-- ==== Sys2Proof/Word.lean ====
section
/-! DEFINITION. The word types of the model: bytes, the manual's fixed widths, byte strings, sparse tables and memories. -/

namespace Sys2Proof

/-- One byte. -/
abbrev Byte := BitVec 8
/-- A byte string: a message body, a frame payload, a document. -/
abbrev Bytes := List Byte
abbrev W16 := BitVec 16
abbrev W32 := BitVec 32
abbrev W64 := BitVec 64
/-- A SHA-512 digest, a nonce or a measurement register: 64 bytes. -/
abbrev Digest := BitVec 512
/-- A sparse table: (index, value) pairs by rising index; an index that is not listed holds the table's reset value. -/
abbrev Tbl (α : Type) := List (Nat × α)
/-- A byte memory: (address, byte) pairs by rising address; an unlisted address reads as zero (R239, R249). -/
abbrev Mem := List Host.Cell

end Sys2Proof
end

