-- ==== Sys2Proof/Data.lean ====
section
/-! DEFINITION. The data the commands carry and the state is made of: status codes, roles, requests, events, frames,
and the components of State (one structure for each unit of the manual). Each field's comment gives its width, the rule
that names it and its reset value. -/

namespace Sys2Proof

/-! ## Status codes, roles, requests -/

/-- The status codes of R324. -/
inductive Status where
  | ok | notAdmitted | deferred | late | badLength | outOfRegion | badDescriptor | fenced | staleGeneration
  | linkLost | poison | tagFail | counterExhausted | checksumFail | arrayMismatch | conflict | denied
  | unresponsive | notReady
deriving DecidableEq, Repr

/-- The ports a session or a report request arrives on (R7). -/
inductive Port where
  | host | mgmt
deriving DecidableEq, Repr

/-- The roles a session can have (R6, R305, R402). -/
inductive Role where
  | tenant (p : BitVec 4) | fabric | operator | titleholder
deriving DecidableEq, Repr

/-- The rights column of R313 and R403: any session, fabric manager, tenant, tenant or fabric manager, either
management role, operator, titleholder. -/
inductive Rights where
  | any | f | t | tf | either | o | h
deriving DecidableEq, Repr

/-- One check of R15: its order, whether it fails, and the code on failure. -/
structure Check where
  order : Nat
  fails : Bool
  code  : Status
deriving DecidableEq, Repr

/-- The header of a received datagram (R301) as far as it is not its place in the session, and what R302 finds of it. -/
structure RxHead where
  version : Byte := 1            -- VERSION
  flags   : Byte := 0            -- FLAGS; MORE of a request is what `frags` gives
  rsvHi   : Byte := 0            -- reserved [231:224]
  rsvLo   : BitVec 48 := 0       -- reserved [47:0]
  seq     : Option Nat := none   -- SEQ; none: the next in order
  len     : Option W16 := none   -- LENGTH, where it disagrees with the UDP length; none: it agrees
  peer    : Option Nat := none   -- address and UDP port it comes from; none: the session's
  tagBad  : Bool := false        -- its tag does not verify
deriving DecidableEq, Repr
/-- What a received datagram acknowledges (R301). -/
structure RxAcks where
  ackSeq : Nat := 0
  sack   : W32 := 0
deriving DecidableEq, Repr

/-- The header of a mailbox request (R311), with the session and port it arrived on. OPCODE is the command itself. -/
structure Req where
  port     : Port        -- the port the request arrived on
  sess     : Nat         -- SESSION_ID of the session (R301)
  tag      : W16         -- REQ_TAG
  status   : W16         -- STATUS, zero in a request
  ctx      : BitVec 8    -- CONTEXT_ID
  gen      : BitVec 8    -- GENERATION
  part     : BitVec 4    -- PARTITION
  rsvHi    : BitVec 4    -- reserved [187:184]
  bodyLen  : BitVec 24   -- BODY_LENGTH
  earliest : W64         -- EARLIEST, zero in a request
  rsvLo    : BitVec 96   -- reserved [95:0]
  head     : RxHead := {} -- the KHT header of its first datagram (R301)
  acks     : RxAcks := {} -- what that header acknowledges
  frags    : Nat := 0    -- datagrams of the message before its last one, with MORE set (R311)
  recurs   : W16 := 0    -- not of the header: the causes of ALERT_CAUSE that recur in the sample of that moment (R42)
deriving DecidableEq, Repr

/-- An event (R322). -/
structure Event where
  code       : W16
  part       : BitVec 4
  deviceWide : Bool
  direct     : Bool
  ctx        : BitVec 8
  gen        : BitVec 8
  body       : Bytes
  time       : W64
  qseq       : W32
deriving DecidableEq, Repr

/-- A link frame (R270): header, payload, path tag, hop trailer. -/
structure Frame where
  hdr     : BitVec 256 := 0
  payload : Bytes := []
  ptag    : BitVec 128 := 0
  txc     : W64 := 0
  htag    : BitVec 128 := 0
  place   : Nat := 0         -- of a DATA frame: byte offset of its tile's slot in the far window (R279), which no header field carries
deriving DecidableEq, Repr

/-- What leaves the device: the observable trace of its ports and sideband lands. On an open session nothing leaves in the
clear (R2, R302): its datagrams are the entries `sealed`, and behind the last datagram of a message stands the model's own
record of what it says (`response`, `sessioned`, `event`, `khtAck`), which its receiver alone can read. -/
inductive Emit where
  | response (port : Port) (sess : Nat) (opcode tag : W16) (status : Status) (ctx gen : BitVec 8) (part : BitVec 4) (earliest : Nat) (body : Bytes)
  | sealed (sess : Nat) (hdr : BitVec 256) (cipher : Bytes) (tag : BitVec 128)
  | hello (port : Port) (kind : Byte) (payload : Bytes)
  | sessioned (sess : Nat) (opcode : W16) (body : Bytes)
  | khtAck (sess : Nat) (ackSeq : Nat) (sack : W32)
  | resend (sess : Nat) (seq : Nat)
  | event (sess : Nat) (ev : Event)
  | i2cNack
  | jtag (width : Nat) (bits : Nat)
  | frame (link : Nat) (f : Frame)
  | bulk (sess : Nat) (sub : BitVec 256) (chunk : Bytes)
  | relay (sess : Nat) (msg : Bytes)
  | eth (kind : Nat) (bytes : Bytes)
  | debugData (status : Status) (data : Bytes)
  | linkState (link : Nat) (new : Nat)
  | fwStatus (status : Status)
  | mem (master : Nat) (status : Status) (data : Bytes)
deriving DecidableEq, Repr

/-- What every PTP message carries (IEEE 1588-2019): its domain, the identity of the clock port that sent it, its sequence number. -/
structure PtpHdr where
  domain : Byte
  source : Nat
  seq    : Nat
deriving DecidableEq, Repr
/-- A PTP message (R298): Announce with the rank of its clock; Sync with the time base at its receipt as the PCS stamped it; Follow_Up
with the precise origin time; Delay_Resp with its receive time. -/
inductive PtpMsg where
  | announce (h : PtpHdr) (rank : Nat)
  | sync (h : PtpHdr) (t2 : Nat)
  | followUp (h : PtpHdr) (t1 : Nat)
  | delayResp (h : PtpHdr) (t4 : Nat)
deriving DecidableEq, Repr
/-- A Delay_Resp with its receive time. -/
structure PtpResp where
  h  : PtpHdr
  t4 : Nat
deriving DecidableEq, Repr
/-- A PTP_RELAY datagram (R300). -/
structure PtpRelay where
  head : RxHead := {}
  acks : RxAcks := {}
  msg  : PtpMsg
deriving DecidableEq, Repr
/-- The header of a received BULK datagram: its SEQ is an operand of its own. -/
structure BulkHead where
  head : RxHead := {}
  acks : RxAcks := {}
deriving DecidableEq, Repr
/-- The rest of a received ACK: SACK_MAP, and its header. -/
structure KhtAck where
  sack : W32
  head : RxHead := {}
deriving DecidableEq, Repr

/-! ## Package, power, boot -/

/-- The four reference clocks (R26). -/
inductive Refclk where
  | sys | hp | lk0 | lk1
deriving DecidableEq, Repr

/-- The causes of the power-fail sequence (R33). -/
inductive PowerCause where
  | pwrgoodFell | vinLow | refclkSys
  | vinCollapse   -- VIN falls away before the final commit completes (R34)
deriving DecidableEq, Repr

/-- The board's boot straps and whether the flash reads of a slot meet an xSPI error, at the moment the ROM samples them
(R22, R54 check 1). -/
structure BootPins where
  sel   : BitVec 2
  errA  : Bool
  errB  : Bool
  trstN : Bool        -- land TRST_N is driven high (R21)
deriving DecidableEq, Repr

/-- The internal rails, in the fixed order in which the regulators bring them up (R30). -/
inductive Rail where
  | morion | hostFurlong | hbm | almandine
deriving DecidableEq, Repr

/-- Where the supply stands (R30, R33, R40). -/
inductive Supply where
  | off      -- VIN absent
  | rising   -- VIN valid, the rails coming up
  | on       -- all internal rails within tolerance
  | failed   -- the power-fail sequence ran; only the auxiliary rail is on
  | tripped  -- the trip sequence ran; the sideband lands are latched
deriving DecidableEq, Repr

/-- A telemetry window (R406): the samples of the running window, and the values over the last complete one. -/
structure TelWin where
  idx   : Nat := 0          -- number of the running window on the time base (R406); reset 0
  n     : Nat := 0          -- power samples in the running window
  sumV  : Nat := 0          -- mV
  sumI  : Nat := 0          -- mA
  sumP  : Nat := 0          -- µW
  temps : Tbl Int := []     -- hottest reading of each sensor in the running window, 1/16 °C
  vin   : Nat := 0          -- last complete window: mean VIN, mV; reset 0
  iin   : Nat := 0          -- mean input current, mA; reset 0
  pin   : Nat := 0          -- mean input power, mW; reset 0
  hot   : Tbl Int := []     -- hottest reading of each sensor; reset 0
  stat  : BitVec 4 := 0     -- STATUS[14:11] at its end; reset 0
deriving DecidableEq, Repr

/-- The package's supply, clocks, sensors and sideband lands. -/
structure Pkg where
  supply     : Supply := .off      -- R30, R33, R40; reset off
  vinMv      : Nat := 0         -- last VIN sample, mV (R35); reset 0
  iinMa      : Nat := 0         -- last input-current sample, mA (R35); reset 0
  pwrgood    : Bool := false        -- land PWRGOOD (R21: pull-down); reset low
  resetN     : Bool := false        -- land RESET_N; reset low
  trstN      : Bool := false        -- land TRST_N (R21: pull-down, so floating it holds the test access port in reset); reset low
  rails      : List Rail := []      -- the internal rails that are up, in the order in which they came up (R30); reset none
  bootsel    : BitVec 2 := 0    -- BOOTSEL as last sampled (R22); reset 00
  thermtrip  : Bool := false    -- the device drives land THERMTRIP_N low (R40); reset released
  powerUp    : Bool := false    -- VIN became valid and the firmware has not started since (R40, R415); reset false
  xspiErrA   : Bool := false    -- flash reads of slot A end with an xSPI error, as last met (R54); reset false
  xspiErrB   : Bool := false    -- the same of slot B
  alertLatch : Bool := false        -- ALERT_N latched low by a trip (R40); reset false
  xspiResetN : Bool := false        -- land XSPI_RESET_N; driven low from power-up until the boot ROM starts (R23)
  clkLost    : BitVec 4 := 0    -- reference clocks lost and not restored since, as refclk (R27, R42); reset 0
  refclk     : BitVec 4 := 0    -- presence: [3] SYS, [2] HP, [1] LK0, [0] LK1 (R27, R41 STATUS[10:7]); reset 0
  alertCause : W16 := 0         -- ALERT_CAUSE (R41); reset 0
  pwrLimiting : Bool := false       -- STATUS.PWR_LIMITING (R36); reset 0
  curLimiting : Bool := false       -- STATUS.CUR_LIMITING (R36); reset 0
  overCur    : Nat := 0         -- consecutive samples above 345 A (R37); reset 0
  overVolt   : Nat := 0         -- consecutive µs above 13.2 V (R37); reset 0
  underVolt  : Nat := 0         -- consecutive µs below 10.8 V (R33); reset 0
  tripAt     : Nat := 0         -- time base at which the last trip sequence began (R40); reset 0
  curBound   : Bool := false        -- the current limit has bound for more than 10 ms and still binds (R36, R42); reset false
  rampTurn   : Nat := 0         -- the core whose clock ramps next: ramps are staggered (R29); reset 0
  lastI      : List Nat := []    -- the last 100 current samples, newest first (R35); reset empty
  lastVP     : List (Nat × Nat) := []  -- the last 1,000 (VIN mV, power mW) samples, newest first (R35); reset empty
  win10      : TelWin := {}     -- running and last complete window of 10 ms (R41, R406)
  win100     : TelWin := {}     -- of 100 ms (R406)
  win1k      : TelWin := {}     -- of 1 s (R406)
  powUs      : Nat := 0         -- µs of operation not yet counted in POWERED_SECONDS (R416); reset 0
  limUs      : Nat := 0         -- µs not yet counted in LIMITING_SECONDS; reset 0
  thrUs      : Nat := 0         -- µs not yet counted in THROTTLE_SECONDS; reset 0
  energyPj   : Nat := 0         -- pJ not yet counted in ENERGY_WH; reset 0
  sensors    : Tbl Int := []     -- last reading of each of the 72 sensors, 1/16 °C (R38); reset 0
  tripArm    : Tbl Bool := []    -- the sensor's previous sample was at or above its trip temperature (R40); reset false
  throttled  : BitVec 4 := 0    -- Almandine dies being throttled (R38); reset 0
  hotStacks  : BitVec 12 := 0   -- stacks with doubled refresh (R38); reset 0
  regFaults  : Nat := 0         -- regulator phases lost (R41); reset 0
  tripHist   : W16 := 0         -- TRIP_HISTORY (R41); reset 0
deriving DecidableEq, Repr

/-- Where the start-up sequence stands (R46, R56). -/
inductive BootPhase where
  | stopped   -- no boot ROM running
  | hostBoot  -- BOOTSEL = 10: the ROM waits for an image on the host port (R310)
  | checked   -- a slot passed R54; components loaded and hashed next
  | firmware  -- control has passed to the firmware
  | ports     -- both ports are up; requests other than attestation are refused
  | ready     -- READY announced
  | halted    -- BOOT_HALT
deriving DecidableEq, Repr

structure Boot where
  phase     : BootPhase := .stopped    -- reset stopped
  source    : Byte := 0xFF         -- BOOT_SOURCE of R66: 0 slot A, 1 slot B, 2 host port, 0xFF none; reset 0xFF
  fallback  : Bool := false         -- FLAGS.FALLBACK_BOOT (R67); reset 0
  cosigned  : Bool := false         -- FLAGS.COSIGNED (R67); reset 0
  keyIndex  : Byte := 0         -- VENDOR_KEY_INDEX of the manifest booted (R66); reset 0
  fwVersion : W32 := 0          -- FW_VERSION (R66); reset 0
  fwSvn     : W32 := 0          -- FW_SVN (R66); reset 0
  manifest  : Bytes := []        -- the 1,576 manifest bytes of the image that booted (R59); reset empty
  image     : Mem := []          -- the image loaded from the host port (R310), as a slot; reset empty
  causeA    : Byte := 0         -- failure cause of slot A in this boot (R54); 0 none
  causeB    : Byte := 0         -- failure cause of slot B
  attempts  : Tbl Nat := []      -- HBM training attempts of each stack (R47); reset 0
  trained   : BitVec 12 := 0    -- stacks whose training succeeded; reset 0
  outStacks : BitVec 12 := 0    -- stacks taken out of service (R49); reset 0
  attach    : BitVec 1 := 0     -- which 400 Gb/s attachment host-port boot tries (R310); reset 0
  sender    : Option Nat := none   -- the first sender that answered a BOOT_OFFER (R310); reset none
  recvd     : List (Nat × Nat) := [] -- (offset, length) of image bytes received (R310); reset empty
  romRuns   : Nat := 0          -- how often the boot ROM has started since power-up
  coRule     : Bool := false    -- COSIGN_REQUIRED as the boot ROM read it: a change applies from the next boot (R413); reset 0
  coKey      : Digest := 0      -- the co-signing key digest beside it; reset 0
  secondLifeWait : Bool := false    -- a second-life sequence runs: CLIENT_HELLO refused (R418); reset false
deriving DecidableEq, Repr

/-- Lifecycle states of R68. -/
inductive Lifecycle where
  | blank | dev | prod | prodDebug | retired
deriving DecidableEq, Repr

/-- The fuses (R62, R68, R70, R410, R412). -/
structure Fuses where
  lifecycle  : Lifecycle := .blank   -- R68; reset BLANK, as manufactured
  serial     : W64 := 0         -- device serial (R64); reset 0 until provisioned
  secret     : Option Nat := none  -- the 256-bit fused secret (R62), held by name; none in BLANK
  vendorKeys : Tbl Digest := []  -- hashes of the vendor public keys in fuse slots 0–3 (R53); reset 0
  revoked    : BitVec 4 := 0    -- vendor key revocations (R59); reset 0
  svn        : Nat := 0         -- burnt security-version fuses, 0–64; reset 0
  ownerEpoch : Nat := 0         -- burnt owner-epoch fuses, 0–64; reset 0
  debugKey   : Digest := 0      -- hash of the Brynleham debug key (R70); reset 0
  titleKey   : Digest := 0      -- hash of the Brynleham title key (R412); reset 0
deriving DecidableEq, Repr

/-- A debug token (R70). -/
structure DebugToken where
  serial    : W64
  nonce     : Digest
  duration  : Nat
  scope     : BitVec 4
  vendorKey : Bytes
  vendorSig : Bytes
  titleKey  : Bytes
  titleSig  : Bytes
deriving DecidableEq, Repr

/-- One access through the debug access port (R69, R71, R233). -/
structure DebugOp where
  die   : BitVec 2        -- the die group addressed: 0 Morion, 1 Almandine, 2 Furlong, 3 host port
  ctx   : BitVec 8
  va    : W64
  write : Bool
  data  : BitVec 512
deriving DecidableEq, Repr

structure Jtag where
  ir        : Byte := 0xFF             -- the 8-bit instruction register (R69); reset 0xFF BYPASS
  bscan     : Nat := 0                 -- boundary-scan cells as last preloaded (R69); reset 0
  nonce     : Option (Digest × Nat) := none -- the latest challenge's nonce and when it was issued (R70); reset none
  status    : W16 := 0              -- AUTH_STATUS (R69, R71); reset 0
  tokJtag   : Option DebugToken := none -- token under verification, by JTAG; reset none
  tokMgmt   : Option (DebugToken × Req) := none -- token under verification, by the management port; reset none
  scope     : BitVec 4 := 0         -- scope the debug access port is open for (R71); reset 0
  duration  : Nat := 0              -- seconds of the accepted token; reset 0
deriving DecidableEq, Repr

/-- One event-log entry (R61): the register, the event type and the data. -/
structure LogEntry where
  reg   : Nat
  etype : W32
  data  : Bytes
deriving DecidableEq, Repr

structure Measure where
  mr    : Tbl Digest := []       -- MR0–MR7, 64 bytes each (R59); reset 0
  count : Tbl Nat := []          -- 32-bit extend counts (R59); reset 0
  log   : List LogEntry := []    -- the firmware's event log (R61); reset empty
deriving DecidableEq, Repr

/-! ## Non-volatile memory, the service ledger -/

/-- The title record of R412. -/
structure Title where
  holder     : Digest := 0      -- TITLEHOLDER_KEY
  opRoot     : Digest := 0      -- OPERATOR_ROOT
  cosign     : Bool := false        -- COSIGN_REQUIRED
  cosignKey  : Digest := 0      -- co-signing key digest
deriving DecidableEq, Repr

/-- A fault-log entry (R403, R427). -/
structure FaultEntry where
  cycle  : Nat := 0
  time   : W64 := 0
  kind   : W16 := 0
  unit   : W16 := 0
  status : W16 := 0
  part   : Byte := 0
deriving DecidableEq, Repr

/-- The service ledger (R416, R417). -/
structure Ledger where
  counters    : Tbl Nat := []    -- S0–S14 and S15–S26 by number (R416); reset 0
  saturated   : BitVec 28 := 0  -- SATURATED (R415); reset 0
  tdiePeak    : Int := 0        -- TDIE_PEAK, 1/16 °C; reset 0
  thbmPeak    : Int := 0        -- THBM_PEAK; reset 0
  linkSym     : Tbl Nat := []    -- CORRECTED_SYMBOLS per link; reset 0
  linkFences  : Tbl Nat := []    -- FENCES per link; reset 0
  linkDegSec  : Tbl Nat := []    -- DEGRADED_SECONDS per link; reset 0
  stackMask   : BitVec 12 := 0  -- HBM_STACK_MASK at the last READY; reset 0
  ownerEpoch  : Nat := 0        -- OWNER_EPOCH committed with the title list (R412); reset 0
  retirements : List Bytes := [] -- RETIREMENTS list, oldest first (R417); reset empty
  retTotal    : Nat := 0
  trips       : List Bytes := [] -- TRIPS list
  tripTotal   : Nat := 0
  titles      : List Bytes := [] -- TITLES list
  titleTotal  : Nat := 0
  scrubs      : List Bytes := [] -- SCRUBS list
  scrubTotal  : Nat := 0
  retireSig   : Bytes := []      -- the signature of RETIRE (R414); reset empty
  lastTrip    : BitVec 2 := 0   -- how the last power-on ended: [1] power trip, [0] thermal trip (R40); reset 0
  clean       : Bool := true       -- the final commit of R33 or R40 was made (R415); reset true
  satPosted   : BitVec 28 := 0  -- saturation bits already posted, each once (R404, R415); reset 0
deriving DecidableEq, Repr

/-- The retired lines of one array (R155). -/
structure FoldMap where
  rows    : W64 := 0   -- RETIRED_ROWS; reset 0
  cols    : W64 := 0   -- RETIRED_COLS; reset 0
  retired : Bool := false  -- ARRAY_RETIRED; reset 0
deriving DecidableEq, Repr

/-- Settings of the management port (R401). -/
structure MgNet where
  mode : BitVec 2 := 0                    -- MG_MODE: 0 AUTO, 1 10GBASE-KR, 2 1000BASE-KX; reset AUTO
  ipv6 : List (BitVec 128) := []          -- configured IPv6 addresses, at most 2, beside the link-local one; reset empty
  ipv4 : Option (W32 × Nat) := none    -- an IPv4 address with its prefix length; reset none
  vlan : Nat := 0                         -- VLAN_ID: 0 untagged, or 1-4,094; reset 0
  port : Nat := 19291                     -- MG_PORT, the UDP port of KHT, 1,024-65,535; reset 19,291
deriving DecidableEq, Repr

structure Nvm where
  flash       : Mem := []          -- the boot flash, two slots of 64 MiB (R52), as the byte XOR 0xFF, so that erased reads 0xFF
  title       : Title := {}        -- R412; reset zeros
  pendTitle   : Option (Title × Nat) := none -- pending-transfer record with the epoch it burns (R412); reset none
  idCert      : Bytes := []        -- identity certificate (R64); reset empty
  committed   : Option Mem := none   -- the last committed configuration set (R57, R332); reset none
  fold        : Tbl FoldMap := []  -- fold maps, by core × 4 + array (R155); reset no line retired
  mgNet       : MgNet := {}        -- settings of the management port (R401); reset the defaults
  ledger      : Ledger := {}       -- the last committed ledger record (R34); reset zeros
  retiredLks  : W32 := 0          -- links in RETIRED (R264); reset 0
  secondLife  : Bool := false         -- second-life flag (R418); reset false
  slDone      : Bool := false         -- its tests are done and its record committed: READY completes it (R418); reset false
  staged      : Option (Nat) := none -- slot that is STAGED (R408); reset none
  stageSlot   : Option (Nat × Nat × Nat) := none -- slot being staged, its image length, bytes written; reset none
  activation  : Option Bytes := none -- pending activation: the booted slot's first 4 KiB (R409); reset none
  faultLog    : List FaultEntry := [] -- device-wide fault log, newest last, at most 4,096 (R403); reset empty
  scrubPend   : Tbl Nat := []      -- partitions whose scrub must be run again (R352): START_TIME; reset empty
deriving DecidableEq, Repr

/-! ## Time -/

/-- PTP states of R299. -/
inductive PtpState where
  | freeRun | acquiring | locked | holdover
deriving DecidableEq, Repr

structure TimeUnit where
  base      : W64 := 0          -- time base, ns (R11); reset 0
  frac      : Nat := 0          -- fraction of a ns in units of 10^-9 ns, below 10^9; reset 0
  ppb       : Int := 0          -- frequency correction applied, parts in 10^9, within ±500,000 (R299); reset 0
  half      : Bool := false         -- running at half rate to remove a backward offset (R299); reset false
  ahead     : Nat := 0          -- ns still to be removed at half rate; reset 0
  ptp       : PtpState := .freeRun     -- R299; reset FREE_RUN
  goodSyncs : Nat := 0          -- consecutive Syncs below 100 ns; reset 0
  badSyncs  : Nat := 0          -- consecutive Syncs at 100 ns or more; reset 0
  syncSeq   : Nat := 0          -- sequence number of the last Sync; reset 0
  syncT2    : Nat := 0          -- time base at its receipt; reset 0
  pair      : Option (Nat × Nat) := none -- origin and receipt of the last Sync whose Follow_Up has come; reset none
  delay     : Int := 0          -- mean path delay, ns; reset 0
  reqT3     : Nat := 0          -- departure of the last Delay_Req; reset 0
  relay     : Option Nat := none -- the session that relays the selected transmitter's messages (R300); reset none
  phaseAt   : Option Nat := none -- when PPS_IN last gave the phase (R300); reset none
  offset    : Int := 0          -- last offset (TIME_READ); reset 0
  steps     : Nat := 0          -- forward steps since power-up (TIME_READ); reset 0
  master    : Option (Nat × Nat) := none -- (rank, identity) of the best transmitter (R298); reset none
  ppsOut    : Bool := false         -- land PPS_OUT pulsed at the last whole second; reset false
  lastPps   : Option Nat := none   -- when the last PPS_OUT pulse began; reset none
  moved     : Bool := false         -- PTP has moved the time base since that pulse; reset false
  ppsIn     : Option Nat := none   -- last PPS_IN capture, a multiple of 8 ns (R25); reset none
  ppsReject : Nat := 0          -- captures rejected by PPS_ASSIST (R300); reset 0
  reports   : List Nat := []     -- times of the attestation reports of the last second (R66); reset empty
deriving DecidableEq, Repr

/-! ## Numbers -/

/-- An exact value of the arithmetic units: a NaN with its payload code, a signed infinity, or the finite value
(−1)^neg × num ÷ den × 2^exp. A zero keeps its sign. -/
inductive Val where
  | nan (code : BitVec 9)
  | inf (neg : Bool)
  | fin (neg : Bool) (num den : Nat) (exp : Int)
deriving DecidableEq, Repr

/-! ## Jacinth cores -/

/-- The state of a tag in a grain core's tag table (R216). -/
inductive TagState where
  | idle | outstanding | done (status : W16)
deriving DecidableEq, Repr

/-- What a grain core waits for. -/
inductive Waiting where
  | none | tag | all | sum | send | recv | barrier | sync | issue
deriving DecidableEq, Repr

structure Grain where
  started   : Bool := false              -- started by CONTEXT_START (R425); reset 0
  stopped   : Bool := false              -- executed HALT or faulted; reset 0
  faulted   : Bool := false              -- stopped by a grain-core fault (R219); reset 0
  exit      : W64 := 0               -- exit code of HALT (R215); reset 0
  regs      : Tbl W64 := []           -- X1–X15, 64 bits (R213); reset 0
  pc        : Nat := 0               -- program counter, instruction words (R213); reset 0
  prog      : Mem := []               -- program store, 64 KiB (R213); reset 0
  scratch   : Mem := []               -- data scratch, 16 KiB (R213); reset 0
  tags      : Tbl TagState := []      -- tag table, 256 entries (R213, R216); reset IDLE
  doneOrder : List Nat := []          -- DONE tags in completion order (R215 WAITALL); reset empty
  splitStat : Tbl (List W16) := []    -- the status of each split that a matrix completion carried in a split mode, by tag (R136); reset empty
  sums      : Tbl (BitVec 86) := []   -- SM0–SM15 (R202); reset 0
  trapVec   : W64 := 0               -- trap vector (R215); reset 0
  inTrap    : Bool := false              -- a trap handler runs (R218); reset 0
  trapRet   : Nat := 0               -- saved address (R218); reset 0
  trapCause : Byte := 0              -- reset 0
  trapTag   : Byte := 0              -- reset 0
  trapQueue : List (Byte × Byte) := [] -- (cause, tag) of queued traps, at most 8; reset empty
  trapsLost : Nat := 0               -- TRAPS_LOST, saturates at 0xFFFF; reset 0
  arriving  : List (Byte × Byte) := [] -- traps raised and not yet taken; reset empty
  inbox     : List (W64 × Byte) := [] -- inbox of four values with the sender's owner set (R213, R217); reset empty
  owner     : Byte := 0              -- program owner set (R89); reset 0
  waiting   : Waiting := .none           -- reset none
  barrier   : Option Byte := none       -- the barrier this grain core has arrived at (R222); reset none
  released  : Bool := false              -- the barrier it arrived at outside a handler has been released (R222); reset false
  releasedT : Bool := false              -- the barrier it waits for in a trap handler has been released; reset false
  arrivedIn : Bool := false              -- that arrival was made in a trap handler; reset false
deriving DecidableEq, Repr

/-- An accumulation group (R161), 112 bits. -/
abbrev Group := BitVec 112

/-- One bank of one array (R137, R148). -/
inductive BankState where
  | filling | ready | active | releasing
deriving DecidableEq, Repr

structure Bank where
  state : BankState := .filling   -- R148; reset FILLING
  held  : Bool := false           -- it has been filled since the core's context was installed
  chunk : Nat := 0                -- the k-chunk it holds
  cpass : Nat := 0                -- the column pass it serves (R156)
  vals  : Tbl (List (Nat × Val)) := [] -- stationary values: (column × 2^16 + k-block) × 4 + FP32 plane: (position, value); reset empty
  sums  : Tbl (List (Nat × Val)) := [] -- checksum slots: (split × 2^16 + k-block) × 4 + plane (R137, R154); reset empty
  special : List Nat := []        -- k-blocks whose SPECIAL bit is set (R143); reset empty
deriving DecidableEq, Repr

/-- Rows of one split that a row block covers: split, first output row, how many. -/
abbrev RowPart := Nat × Nat × Nat

/-- A row block of the fold loop (R138) or of a re-execution (R175). -/
structure RowBlk where
  num   : Nat := 0           -- ROW_BLOCK
  parts : List RowPart := []
deriving DecidableEq, Repr

/-- One set of at most four row blocks under one column pass; `dry` where the run only forms scales (R181). -/
structure MatItem where
  cpass : Nat := 0
  dry   : Bool := false
  redo  : Bool := false
  blks  : List RowBlk := []
deriving DecidableEq, Repr

/-- A wavefront inside the arrays: its tag (R130), its row block, and the operands it carries. -/
structure Wave where
  tag   : W64 := 0
  cpass : Nat := 0
  blk   : RowBlk := {}                -- the block its operands belong to
  a     : Tbl (List (Nat × Val)) := [] -- streamed values by split × 128 + row: (position, value); row 64 holds the edge sums (R154)
  b     : Tbl (List (Nat × Val)) := [] -- stationary values by array × 128 + column (64 + q for the checksum slots)
deriving DecidableEq, Repr

/-- Position of the fold loop of R138: item of the plan, chunk, block of the set, k-block of the chunk, FP32 pass. -/
structure Cursor where
  item  : Nat := 0
  chunk : Nat := 0
  block : Nat := 0
  kblk  : Nat := 0
  pass  : Nat := 0
deriving DecidableEq, Repr

/-- A row block whose groups are being read out. -/
structure MatDrain where
  wave  : Nat := 0           -- the wavefront that carries its marker
  cpass : Nat := 0
  dry   : Bool := false
  redo  : Bool := false
  blk   : RowBlk := {}
  rows  : List Nat := []     -- rows read out: split × 128 + row, 64 for the checksum row
  cmp   : List Nat := []     -- splits compared
deriving DecidableEq, Repr

/-- A row block that mismatched and is undecided (R175), with where R174 places the mismatch. -/
structure Mismatch where
  split : Nat := 0
  blk   : Nat := 0
  row0  : Nat := 0
  rows  : Nat := 0
  array : Nat := 0
  kind  : Nat := 0           -- location kind of R174
  row   : Nat := 0
  col   : Nat := 0
  again : Bool := false         -- REEXECUTE or RETIRE_AND_REEXECUTE has been decided; the rows run again at the stream's end
deriving DecidableEq, Repr

/-- What one output tile has gathered so far (R180). -/
structure TileAcc where
  begun : Bool := false
  final : Bool := false
  exc   : BitVec 13 := 0     -- the group records' decode flags; an element's flags are in MatRun.elemFl
  inh   : BitVec 13 := 0
  owner : Byte := 0
  pois  : Bool := false
deriving DecidableEq, Repr

/-- A matrix descriptor being run (R132-R136). -/
structure MatRun where
  desc    : BitVec 512 := 0    -- the descriptor
  grain   : Nat := 0           -- the issuing grain core
  cfg     : BitVec 512 := 0    -- latched output-stage slot (R177)
  epoch   : W32 := 0           -- latched step epoch (R93)
  plan    : List MatItem := [] -- the fold loop's sets
  cur     : Cursor := {}        -- where the loop stands
  loads   : Tbl Nat := []       -- bank loads done by each array
  split   : Tbl Status := []    -- status of each split (R136)
  dead    : List Nat := []      -- splits whose headers were refused (R147)
  tiles   : Tbl TileAcc := []   -- by split × 4096 + output tile
  done    : List Nat := []      -- rows whose last column pass has been read out and compared: split × 8192 + row
  elemFl  : Tbl (BitVec 13 × BitVec 13) := [] -- EXC_LOCAL bits of an output element, and those of them that count (R180): (split × 8192 + row) × 256 + column
  fed     : List RowPart := []  -- rows into whose groups a streamed tile other than a SKIP_TILE fed (R80)
  waves0  : Nat := 0            -- wavefronts of the descriptor that entered before those in flight
  amax    : Tbl Val := []       -- row-maximum unit and its store (R181), by ((split × 8192 + row) × 128 + scale block)
  pendDrain : Option MatDrain := none -- a drain marker due on the next wavefront
  drain   : Option MatDrain := none   -- the block being read out
  base    : Tbl Group := []     -- groups held when the descriptor started
  baseRecs : Tbl W64 := []      -- their group records
  invalid : Bool := false          -- an invalid event has been detected; the trap of R171 was raised
  capt    : Tbl (Nat × BitVec 384) := [] -- smallest event of each cause with its place (R171), written at completion
  mism    : List Mismatch := [] -- undecided mismatches
  reexec  : Tbl Nat := []       -- re-executions made by split × 256 + row block (R175)
  placed  : Tbl Mismatch := []  -- the first mismatch of a row block, by split × 256 + row block (R176)
  redo    : Tbl (Nat × Nat) := [] -- re-execution under way of split × 256 + row block: compares to come, array of its mismatch (R176)
  kept    : List Mismatch := []  -- row blocks kept with CHECKSUM
  failStep : Bool := false         -- FAIL_STEP was decided: the context is fenced when the descriptor has completed
  saving  : Bool := false          -- stopped by a SAVE
deriving DecidableEq, Repr

/-- Groups held by CLEAR_HOLD or ACCUM_HOLD (R133). -/
structure Held where
  shape : BitVec 64 := 0 -- SPLIT, M0-M3 and N of the held pass
  grain : Nat := 0
  pois  : List Nat := [] -- splits whose held groups derive from poisoned or failed data (R94, R86)
  fed   : List RowPart := [] -- rows into whose groups a streamed tile other than a SKIP_TILE fed (R80)
deriving DecidableEq, Repr

structure Arrays where
  queue   : Tbl (List (BitVec 512)) := [] -- matrix queue of each grain core, 16 descriptors (R125); reset empty
  turn    : BitVec 1 := 0            -- the grain core whose queue is taken next (R125); reset GC0
  run     : Option MatRun := none       -- reset none
  held    : Option Held := none         -- reset none
  lastStat : Option (Nat × BitVec 512 × List Nat) := none -- grain core and descriptor whose stationary operand the banks hold, and the splits they hold it of (STAT_REUSE)
  banks   : Tbl Bank := []            -- by array × 2 + bank; reset FILLING
  flight  : List Wave := []           -- the wavefronts of the running descriptor that entered, oldest first
  pos     : Tbl Nat := []             -- progress of each cell: 2n, or 2n + 1 once wavefront n's marker was captured
  groups  : Tbl Group := []           -- G0-G3 of each cell (R131, R161), by cell × 4 + g; reset cleared
  readout : Tbl Group := []           -- read-out register of each cell (R131); reset 0
  recs    : Tbl W64 := []             -- the 16 group records, by split × 4 + g of column pass 0, 16 more for each further column pass (R168, R156); reset 0
  rrecs   : Tbl W64 := []             -- the group record captured with the drained group, by split
  save    : Tbl Group := []           -- groups frozen by a SAVE marker (R153)
deriving DecidableEq, Repr

/-- A vector descriptor in a queue: the bytes copied by ISSUE with the views latched (R208). -/
structure VDesc where
  hdr   : BitVec 512 := 0        -- the 64-byte header (R192) or the parameter update (R209)
  code  : List W64 := []          -- the 16 instruction slots of a chain
  views : Tbl (BitVec 512) := []  -- view table as latched at ISSUE
  clash : Bool := false           -- it names a summary register that was named by an outstanding descriptor at ISSUE (R202)
deriving DecidableEq, Repr

/-- A running chain or parameter update on one channel. -/
structure Chan where
  busy   : Bool := false             -- reset false
  grain  : Nat := 0              -- the queue it came from
  row    : Nat := 0              -- row in iteration order (R194)
  pc     : Nat := 0              -- position within the row's passes and blocks (R194)
  regs   : Tbl W32 := []          -- V0–V31 by register × 64 + lane (R187); reset 0
  flags  : Tbl (BitVec 13) := []  -- lane flag words (R206), by lane; reset 0
  redAcc : Tbl Group := []        -- W96 accumulators of RED SUM, by instruction
  redVal : Tbl Val := []          -- running MAX, MIN, ABSMAX of RED, by instruction
  redInt : Tbl Int := []          -- running INT32 results and counts of RED, by instruction
  redFlag : Tbl (BitVec 13) := [] -- OR of the lane words that fed a reduction register
  packed : Tbl Nat := []          -- COMPRESS and EXPAND counts of the row, by instruction
  dead   : List Nat := []         -- i0 of the row's elements without a result: GATHER, EXPAND or PERM took them from a SKIP_TILE (R80)
  hold   : Tbl Val := []          -- elements held until their scale group is known (R199), by instruction × 2^24 + i0
  done   : Bool := false             -- every row dealt to this channel has run
deriving DecidableEq, Repr

/-- A running vector descriptor (R187, R191, R206). -/
structure VecRun where
  d      : VDesc := {}
  grain  : Nat := 0
  epoch  : W32 := 0
  owner  : Byte := 0                   -- OR of the inputs' owner sets and the program owner set (R206)
  inh    : BitVec 13 := 0              -- OR of the inputs' exception fields (R92)
  pois   : Bool := false                   -- an input is poisoned (R94)
  crcBad : Bool := false                   -- an input PAYLOAD_CRC failed (R191)
  exc    : Tbl (BitVec 13) := []        -- flags of the lanes stored, by destination tile address (R206)
  dests  : List (Nat × Nat × Nat) := [] -- destination tiles touched: address, view, tile index in its grid
  skips  : List Nat := []               -- addresses of the source tiles that are SKIP_TILE (R80)
  skipTo : List Nat := []               -- destination tiles that a skipped element would have gone to
  live   : List Nat := []               -- destination tiles in which an element has been written
  written : List Nat := []              -- elements written, by ((address × 2^12 + row) × 2^12 + column) × 2^5 + instruction (R190)
  status : Status := .ok
  capt   : Tbl (Nat × BitVec 384) := [] -- the first event of each cause (R207), with its place in the logical order
  smW96  : Tbl Group := []              -- per channel partials of SUMM SUM, by instruction × 8 + channel (R202)
  smVal  : Tbl (Nat × Val) := []        -- MAX, MIN, ABSMAX of SUMM by the same index, with the row that set it
  smInt  : Tbl Int := []                -- integer results and counts by the same index
  smExc  : Tbl (BitVec 13) := []        -- lane flags that fed the summary, by instruction
  scale  : BitVec 1 := 0               -- run of a column-scale chain (R194): the first writes nothing
  amax   : Tbl Val := []                -- column amax kept between the runs (R199)
  colSc  : Tbl Nat := []                -- new column scales, by tile address × 4096 + column, written with the final headers
  nonfin : Nat := 0                    -- non-finite gradients of a parameter update (R212), saturating 64 bits
  trapped : Bool := false
deriving DecidableEq, Repr

structure Vector8 where
  queue : Tbl (List VDesc) := []  -- vector queue of each grain core, 16 entries (R187); reset empty
  turn  : BitVec 1 := 0          -- whose head starts first when both could (R187); reset GC0
  chans : Tbl Chan := []          -- VC0–VC7; reset idle
  runs  : Tbl VecRun := []        -- running descriptors by lowest channel of their mask
deriving DecidableEq, Repr

/-- A tile-mover descriptor being run (R250–R254). -/
structure MovRun where
  desc   : BitVec 512 := 0
  grain  : Nat := 0
  done   : Nat := 0            -- tiles moved
  status : Option Status := none  -- the status that stopped it, or that it completed with
  first  : Status := .ok         -- the first status other than OK of a tile that did not stop it (R256)
  waitAdm : Option Nat := none    -- held by ADMIT_WAIT until this time (R285)
  srcs   : List (Nat × Nat) := [] -- source slots it retains (R252): address, bytes
  dsts   : List (Nat × Nat) := [] -- destination slots its ranges name (R231): address, bytes; reset empty
  stallAt : Option Nat := none    -- since when it stalls on push-ahead (R387)
  ext    : Nat := 0            -- ns stalled on push-ahead: they extend its bound (R387)
  waitAcc : Bool := false          -- TM_ACC_READ waiting for contributions (R258)
  accept : Nat := 0            -- time of acceptance
  charged : Nat := 0           -- charged bytes (R285)
  epoch  : W32 := 0
  owner  : Byte := 0           -- the issuing grain core's program owner set
  sent   : List Nat := []       -- transfer numbers of a TM_SEND, in tile order (R282)
  stats  : Tbl Status := []      -- their statuses, once they completed
  stream : Nat := 0            -- bytes of the tile stream of the transfer being sent
  push   : Option Nat := none     -- the bulk transfer of a push (R320)
  adds   : List Nat := []       -- contributions of a TM_REDUCE whose record is not yet updated
  rate   : Nat := 0            -- fill rate of its reservation when it was accepted (R292), 10^-7 bytes per ns
  used   : List Nat := []       -- tiles a TM_GATHER has read, whose poison or payload failure is counted
deriving DecidableEq, Repr

structure Mover where
  queue : List (BitVec 512 × Nat) := [] -- 512 descriptors (R250) with the issuing grain core; reset empty
  run   : Option MovRun := none   -- reset none
deriving DecidableEq, Repr

structure Core where
  ctx     : Option Nat := none        -- the context the core serves (R122); reset none
  epoch   : W32 := 0               -- the core's copy of the step epoch (R220); reset 0
  grains  : Tbl Grain := []         -- GC0, GC1
  views   : Tbl (BitVec 512) := []  -- view table, 64 entries (R188); reset 0
  outCfg  : Tbl (BitVec 512) := []  -- output-stage configuration slots, 64 (R177); reset as the field map
  arr     : Arrays := {}
  vec     : Vector8 := {}
  movers  : Tbl Mover := []         -- TM0, TM1
  clock   : Nat := 800               -- island clock, MHz, 800–3,300 (R17, R18); reset 800
  issue8  : Nat := 8               -- array and vector issue in eighths, 1–8 (R36); reset 8
  idle8   : Nat := 0               -- idle cell steps inserted in every eight (R36); reset 0
  limited : Bool := false              -- the power controller has reduced this core and not yet given all of it back (R36); reset false
  stretch : Bool := false              -- the clock stretches in this cycle for droop (R18); reset false
  rngOut  : Tbl W64 := []            -- the random generator of each output stage, by array (R113); reset 0
  rngChan : Tbl W64 := []            -- the random generator of each vector channel (R113); reset 0
  pendFold : List (Nat × Bool × Nat × Bool) := [] -- retirements decided and not yet in force: array, a row, index, the whole array (R157); reset empty
deriving DecidableEq, Repr

/-! ## Memory -/

/-- A write that waits on a group under re-encryption (R243, R260): its line, the bytes it covers (the low ones of `data`), its
master, and whether the master still awaits the answer. -/
structure LineWait where
  pa    : Nat := 0
  off   : Nat := 0            -- first byte of the line that it writes
  len   : Nat := 64           -- bytes it writes
  data  : BitVec 512 := 0
  master : Nat := 0
  reply : Bool := false       -- a bus write: it is answered when the group is done
deriving DecidableEq, Repr

/-- Counters of one 4 KiB group of a sealed region (R239). -/
structure CtrGroup where
  major  : Nat := 0       -- MAJOR, 40 bits; reset 0
  minors : Tbl Nat := []   -- MINOR0–MINOR63, 7 bits; reset 0
  busy   : Bool := false      -- re-encryption in progress (R243); reset false
  trig   : Option LineWait := none -- the write that called for it, whose line it takes in; reset none
  waiting : List LineWait := [] -- writes that wait on it, in order of arrival; reset empty
  warned : Bool := false      -- the notice at MAJOR = 2^39 was given; reset false
  shut   : Bool := false      -- final, and a plain write was refused: every later write is refused (R244); reset false
deriving DecidableEq, Repr

/-- One queued line add (R258). -/
structure LineAdd where
  id    : Nat := 0                -- the contribution it belongs to
  line  : Nat := 0                -- index of the line in the slot's payload
  elems : List (Nat × Nat) := []   -- the elements that take part: bit offset in the line, the contribution's code
deriving DecidableEq, Repr

/-- A contribution under way (R256). -/
structure Contrib where
  ctx    : Nat := 0               -- context whose regions hold the slot
  slot   : Nat := 0               -- virtual address of the slot's record
  hdr    : BitVec 512 := 0        -- the contribution's tile header
  fmt    : Byte := 0              -- slot FORMAT
  master : Nat := 0
  path   : Option (Nat × Nat) := none -- the path and transfer that brought it, for a link
  todo   : List LineAdd := []      -- line adds its master still holds
  queued : Nat := 0               -- line adds in atomic queues
  whole  : Bool := false              -- every line of it has been handed over
  added  : Bool := false              -- some line has been added
  crcBad : Bool := false              -- its PAYLOAD_CRC failed
  failed : Option Status := none    -- the status that cut it short
  pois   : Bool := false              -- it met a poisoned line (R248)
  exc    : BitVec 13 := 0         -- flags the adders raised
deriving DecidableEq, Repr

/-- Zero-on-first-touch work of a region (R249). -/
structure ZotWork where
  ctx   : Nat := 0
  entry : Nat := 0            -- region entry
  base  : Nat := 0            -- physical base
  len   : Nat := 0            -- bytes
  isSealed : Bool := false
  since : Nat := 0            -- when it was queued
deriving DecidableEq, Repr

structure Hbm where
  poison  : List Nat := []          -- poisoned lines, line numbers PA[47:6] rising (R245); reset empty
  groups  : Tbl CtrGroup := []      -- counter groups by PA div 4096; reset untouched
  nodes   : Tbl Nat := []           -- node counters by nodeKey (R240); reset 0
  roots   : Tbl Nat := []           -- root counters by slice × 4 + i, 56 bits (R228); reset 0
  dirty   : List Nat := []          -- metadata lines dirty in the counter caches (R241, R242); reset empty
  clean   : List Nat := []          -- metadata lines held clean there (R241); reset empty
  atomQ   : Tbl (List LineAdd) := [] -- atomic queue of each channel, 64 line adds (R258); reset empty
  zotQ    : List ZotWork := []      -- zero-on-first-touch work queued (R249), in order; reset empty
  zotFree : Tbl Nat := []         -- when the last such work of a stack completed; reset 0
  adds    : Nat := 0             -- contributions accepted so far: the number of the next one; reset 0
  contribs : Tbl Contrib := []    -- contributions under way, by number; reset empty
  linesW  : Tbl Nat := []         -- lines written to each stack and not yet counted in HBM_KIB_WRITTEN (R416); reset 0
  wire    : Option (Nat × BitVec 512 × BitVec 64) := none -- last line written on the HBM pins: address, 512 data bits, 64 side-band bits (R238)
  memEvts : Tbl Nat := []           -- guarded memory faults of a step, by context × 2^32 + epoch (R247)
deriving DecidableEq, Repr

/-- The master ID a memory access carries (R233). -/
abbrev Master := Nat

/-- What the check of a read finds (R238, R241, R246): every check passes, an error confined to one symbol having been corrected, or
the first that fails: the line's tag, its ECC word, the ECC word of its tag line, the MAC or the ECC word of the leaf that holds its
counter, or of a node of the counter tree, its level less one (0 the leaves' parents, 5 the root's children). -/
inductive HbmFind where
  | good | tagBad | eccBad | tagLineBad | leafBad | leafEcc | nodeBad (level : Fin 6) | nodeEcc (level : Fin 6)
deriving DecidableEq, Repr
/-- A full line as a master writes it, with what the read of its old group finds where push-ahead makes one (R386, R400). -/
structure WriteLine where
  data : BitVec 512
  find : HbmFind := .good
deriving DecidableEq, Repr

/-! ## Contexts and partitions -/

/-- States of R336. -/
inductive CtxState where
  | free | creating | active | suspended | fencing | fenced | tearing | scrubbing
deriving DecidableEq, Repr

structure Context where
  state   : CtxState := .free          -- R336; reset FREE
  gen     : BitVec 8 := 0          -- GENERATION (R87); reset 0: the first use has 1
  part    : BitVec 4 := 0          -- the partition it belongs to
  pairs   : BitVec 16 := 0         -- core pairs
  ocMib   : Nat := 0               -- operand-cache allocation per core, MiB (R124)
  regions : Tbl (BitVec 128) := []  -- region table, 1,024 entries (R229); reset invalid
  capt    : Tbl (BitVec 384) := []  -- exception capture records by cause (R169); reset 0
  exc     : Tbl Nat := []           -- 48-bit exception counters by bit (R120); reset 0
  skipped : Nat := 0               -- skipped wavefronts (R143)
  uncheck : Nat := 0               -- unchecked rows and columns (R173)
  refused : Nat := 0               -- refused requests (R16 example)
  poisons : Nat := 0               -- POISON count (R94)
  image   : Bytes := []             -- copy of the program image in the save area (R425); reset empty
  loaded  : Bool := false              -- a CONTEXT_LOAD completed with OK (R338)
  saveReq : Bool := false              -- the fence in progress is with save
  saved   : Tbl Core := []          -- state of each core written by a SAVE (R339); reset empty
  switching : Bool := false            -- a time-slice switch away from this context is under way (R340)
  fenceReq : Option Req := none       -- the request that waits for the fence
  killReq : Option Req := none        -- the CONTEXT_DESTROY that waits
  marks   : List (BitVec 256) := [] -- mark ring, 4,096 records (R221); reset empty
  lostMks : Nat := 0               -- MARKS_LOST, 32 bits, saturating
  store   : List (BitVec 256) := [] -- report store, 65,536 records (R368)
  coarse  : Tbl (Nat × Nat × Byte) := [] -- coarse records by epoch × 16 + phase: begin + 1, end + 1 (0: none yet), owner set (R369)
  dropped : Nat := 0               -- DROPPED (R368)
  dump    : Option (Nat × List Nat) := none -- dump in progress: number, units UNRESPONSIVE (R347)
  areas   : List (Nat × Nat) := [] -- firmware-private memory of its save area (R339, R426): base, bytes; reset empty
  savedOc : Tbl Mem := []           -- operand cache of each core written by a SAVE (R339); reset empty
  incoming : Bool := false             -- a time-slice switch towards this context is under way (R340); reset false
  dumps   : Nat := 0               -- dumps taken of this context: the number of the latest (R346); reset 0
  dumpRec : List Bytes := []        -- tiles of the dump kept (R348); reset empty
  wdUnit  : Nat := 0               -- the watchdog whose dump is in progress or kept: kind, core, unit (R346); reset 0
  pushDelay : Nat := 0             -- ns by which push-ahead has delayed the save under way (R335); reset 0
deriving DecidableEq, Repr

/-- What the dump engine reads of a unit through its state port (R347, R348): the unit, its response status, and as far as it answers the state
it belongs to: a core with its operand cache, the counts of a controller, a link die or the host-port die, the firmware's record of the context. -/
structure DumpRead where
  unit    : Nat
  status  : W16 := 0
  core    : Option Core := none
  cache   : Mem := []
  counts  : List Nat := []
  context : Option Context := none
deriving DecidableEq, Repr

/-- States of R328. -/
inductive PartState where
  | unused | assigned | charter | resetting | scrubbing
deriving DecidableEq, Repr

structure EventQueue where
  items  : List (Event × Bool × List Nat) := [] -- event, sent, sessions still to acknowledge (R344); reset empty
  seq    : Nat := 1           -- QUEUE_SEQ of the next event, from 1; reset 1
  lost   : Nat := 0           -- events discarded and not yet reported; reset 0
  seen   : List Nat := []     -- QUEUE_SEQs that some session has acknowledged and another has not; reset empty
  final  : Option Event := none  -- the reserved slot of PARTITION_RESET_DONE (R344); reset none
  finalTo : Option (List Nat) := none -- once it is sent, the sessions still to acknowledge it; reset none
  debt   : Nat := 0           -- rate-limit tokens spent, in 10^-6 events; reset 0: the bucket is full
  last   : Nat := 0           -- time of the last refill
deriving DecidableEq, Repr

/-- A reservation's token bucket (R285). -/
structure Bucket where
  tok  : Nat := 0   -- tokens in 10^-7 bytes
  last : Nat := 0   -- t_last
  conf : Bool := false  -- CONFIRMED (R284)
  live : Bool := false  -- the bucket has been started (it starts full)
deriving DecidableEq, Repr

/-- A charter in a partition (R354–R363). -/
structure Charter where
  doc     : Bytes := []            -- the charter, as text
  active  : Bool := false             -- ACTIVE, or PENDING
  prov    : Nat := 0              -- the provisioning key, by name (R356)
  shares  : Tbl Bytes := []        -- plaintext shares by owner, until activation
  present : Byte := 0             -- shares-present mask
  auths   : List (Digest × Nat) := [] -- RESTORE_AUTH received: manifest digest, owner (R363)
deriving DecidableEq, Repr

/-- Bank-pair states of R373. -/
inductive BankPair where
  | arrived | settled | opened
deriving DecidableEq, Repr

structure Step where
  joined   : Bool := false          -- STEP_JOIN done
  index    : W16 := 0
  count    : W16 := 0
  buddy    : W64 := 0
  origin   : W64 := 0
  path     : Option (Nat × Nat) := none -- mirror path: die, PATH
  banks    : BankPair := .opened      -- reset OPEN
  commit   : Option W32 := none    -- epoch the committed range holds
  prevCom  : Option W32 := none    -- epoch the working range holds while SETTLED
  arrived  : Option W32 := none    -- epoch of the attempt that has posted STEP_ARRIVED and is undecided
  wrOk     : Bool := true          -- WRITE granted on the working ranges; reset true
  mirEpoch : Option W32 := none    -- the mirror being sent
  mirTile  : Nat := 0           -- slots of it read so far
  mirSent  : Nat := 0           -- tiles of it sent
  mirDel   : Nat := 0           -- tiles of it delivered
  mirDone  : Bool := false          -- the mirror of the committed epoch is complete
  heldA    : Option W32 := none    -- epoch in mirror bank A, complete, held for the origin (R374)
  heldB    : Option W32 := none    -- epoch in mirror bank B
  restore  : Option W32 := none    -- restore from the buddy in progress (R375)
  mirInEp  : W32 := 0           -- epoch of the mirror arriving through window 62
  mirIn    : Nat := 0           -- tiles of it in place
  resIn    : Nat := 0           -- tiles of a restore in place through window 63
  sendBack : Option (Nat × Nat × Nat × W32) := none -- a mirror bank being sent back (R375): bank, path key, slots read, epoch
deriving DecidableEq, Repr

/-- Snapshot states of R379. -/
inductive SnapState where
  | idle | copying | sent
deriving DecidableEq, Repr

structure Snapshot where
  state    : SnapState := .idle        -- reset IDLE
  ckpt     : BitVec 128 := 0       -- checkpoint ID
  epoch    : W32 := 0
  index    : W16 := 0
  count    : W16 := 0
  sink     : Nat := 0              -- sink session
  transfer : W32 := 0
  ranges   : List (Nat × Nat × Nat × Nat) := [] -- the ranges (R380): VBASE, GRANULES, SLOT in 64-byte units, SHUFFLE_WIDTH
  latch    : List (Nat × Nat × Nat × Nat) := [] -- their latched pieces (R383): range, offset in it, physical base, bytes; reset empty
  marks    : List Nat := []         -- watermark of each range, bytes (R384)
  nonce    : Bytes := []            -- SHARD_NONCE (R383)
  key      : Option Bytes := none     -- shard key (R390); destroyed when the snapshot leaves SENT
  areas    : List (Nat × Nat) := [] -- firmware-private memory of the staging area and the map (R385, R426): base, bytes
  staging  : Nat := 0              -- group slots of the staging area
  used     : Nat := 0              -- staging slots taken
  map      : Tbl Nat := []          -- push-ahead map, by physical group number: n (R385)
  stage    : Tbl Bytes := []        -- the push-ahead buffers: old groups not yet drained, by staging slot (R386)
  pbuf     : List Nat := []         -- those groups, oldest first
  turn     : Nat := 0              -- the spill claim whose turn is next (R386); reset 0
  pushed   : Nat := 0
  stallNs  : Nat := 0              -- PUSHAHEAD_NS (R387)
  stalls   : List Nat := []         -- groups whose writers wait for the push-ahead buffer or the staging area (R387); reset empty
  copied   : Nat := 0              -- plaintext bytes copied
  bytes    : Bytes := []            -- the Firkin shard as sent (R391)
  table    : Tbl (Nat × Nat) := []  -- chunk table: offset, stored length
  plain    : Bytes := []            -- plaintext copied, for PLAIN_DIGEST
  chunk    : Nat := 0              -- next chunk
  banked   : Bool := false             -- cut by the second form of R381
  sent     : Nat := 0              -- bytes of the shard handed to KHT; reset 0
  sentAll  : Bool := false             -- the shard's last datagram was handed to KHT; reset false
  record   : Option (W32 × Bytes) := none -- shard record kept for its transfer ID (R393)
deriving DecidableEq, Repr

structure Restore where
  manifest : Bytes := []            -- manifest bytes loaded (R397)
  whole    : Bool := false             -- the last fragment was accepted
  isOpen   : Bool := false             -- a restore is open
  shard    : Nat := 0
  transfer : W32 := 0
  reloc    : Option Nat := none       -- RELOCATE: base
  sess     : Nat := 0              -- the session that opened it; reset 0
  bytes    : Bytes := []            -- stream bytes received in order
  held     : List (Nat × Bytes) := [] -- pieces that arrived ahead of order: offset, bytes; reset empty
  pos      : Nat := 0              -- stream bytes checked (R398); reset 0
  hdr      : Bytes := []            -- the Firkin header once checked; reset empty
  key      : Option Bytes := none     -- shard key (R390); reset none
  got      : Tbl (Nat × Nat) := []  -- frames taken, by chunk index: offset, stored length; reset empty
  plain    : Tbl Bytes := []        -- their plaintext; reset empty
  wrote    : List (Nat × Nat) := [] -- ranges written: VBASE, bytes
  record   : Bytes := []            -- shard record of the shard being restored (R394, R398); reset empty
  ended    : Option Nat := none       -- where the stream ends, once its last datagram arrived (R316); reset none
deriving DecidableEq, Repr

/-- A receive window is 256 bits (R280). -/
abbrev RecvWindow := BitVec 256

structure Partition where
  state   : PartState := .unused         -- R328; reset UNUSED
  before  : PartState := .unused         -- the state before a reset (R328)
  key     : Option Digest := none     -- tenant key digest; reset none
  queue   : EventQueue := {}        -- notification queue, 1,024 events (R344)
  windows : Tbl RecvWindow := []    -- receive windows 0–63 (R280); reset 0
  buckets : Tbl Bucket := []        -- by reservation index 0–255
  staleGen : Nat := 0              -- STALE_GENERATION count (R281)
  epochMis : Nat := 0              -- EPOCH_MISMATCH count
  oorCount : Nat := 0              -- OUT_OF_REGION count
  lateCnt : Nat := 0               -- LATE count (R286)
  charter : Option Charter := none    -- reset none
  step    : Step := {}
  snap    : Snapshot := {}
  rest    : Restore := {}
  scrubAt : Nat := 0               -- time of the accepted release
  scrubPh : Nat := 0               -- scrub phase reached (R349)
  scrubEsc : Bool := false             -- ESCALATED (R352)
  scrubRec : Bytes := []            -- the scrub record (R351)
  relReq  : Bool := false              -- PARTITION_RELEASE waits for a reset to complete (R353)
  rstCause : W16 := 0              -- cause of the reset in progress
  rstEnd  : Nat := 0               -- end of the reset in progress
  held    : Bool := false              -- held by R49: not enabled until a set swap; reset false
deriving DecidableEq, Repr

structure CfgSets where
  active   : Mem := []              -- the active set (R330)
  shadow   : Mem := []              -- the shadow set, as the operator wrote it
  wrote    : List (Nat × Nat) := [] -- offset and length of what has been written since it was a new set (R327); reset empty
  lock     : Option Nat := none       -- session that holds the shadow lock (R403)
  valid    : Bool := false             -- the shadow set passed validation since it was last written
  armed    : Option Mem := none       -- a set armed for a step boundary (R332)
  fresh    : Bool := false             -- the active set awaits its write to non-volatile memory (R332)
  level    : Option Nat := none       -- the coarsening level that a scrub keeps in force over a swap (R350, R407); reset none
deriving DecidableEq, Repr

/-! ## Links -/

inductive LinkState where
  | down | training | hello | attest | keyed | up | fenced | retired
deriving DecidableEq, Repr

/-- Where a frame waiting to be sent stands (R276). -/
structure TxFrame where
  f      : Frame := {}
  cls    : Nat := 2      -- 0 bounded, 1 unbounded, 2 control: CLASS of R270
  pool   : Nat := 0      -- partition, or 16 for the transit pool
  key    : Nat := 0      -- credit pool: bounded pool × 256 + reservation, unbounded 8192 + pool
  bound  : Int := 0      -- time base at which BOUND_REMAINING reaches zero
  src    : Option (Nat × Nat × Nat) := none -- link it arrived on, its LINK_SEQ there, its credits (R275)
  eng    : Bool := false   -- sent by the snapshot engine (R374)
  tries  : Nat := 0      -- its retransmissions (R265)
deriving DecidableEq, Repr

structure Link where
  state   : LinkState := .down        -- R263; reset DOWN
  cause   : Byte := 0             -- cause of the last change (R323); reset NONE
  d       : Nat := 0              -- one-way cable delay D, ns (R262); reset 0
  wait    : Nat := 1              -- retry back-off, s (R264); reset 1
  retryOk : Bool := true             -- the link may be retried; reset true
  polWait : Bool := false             -- refused by policy: retried after the next commit or 60 s (R264)
  fences  : List Nat := []         -- times of the fences of the last hour (R264)
  nonce   : Bytes := []            -- our HELLO nonce
  myHello : Bytes := []            -- our HELLO payload
  hello   : Bytes := []            -- the partner's HELLO payload
  eph     : Nat := 0              -- our ephemeral key, by name
  myRep   : Bytes := []            -- our report to the partner
  report  : Bytes := []            -- the partner's report
  peer    : W64 := 0              -- partner serial
  kcSent  : Bool := false
  kcSeen  : Bool := false
  kcHeld  : Option Frame := none   -- a KEY_CONFIRM that arrived before our own KEYED; reset none
  txSeq   : W32 := 0              -- next LINK_SEQ (R274); reset 0
  rxSeq   : W32 := 0              -- next LINK_SEQ expected; reset 0
  unacked : List TxFrame := []     -- frames sent and not acknowledged, at most 1,024 (R274)
  nakSent : Bool := false         -- a NAK for the frame expected went out: frames behind the gap are discarded in silence (R274); reset false
  txc     : W64 := 0              -- transmit counter TXC (R270); reset 0
  rxTxc   : W64 := 0              -- last TXC accepted (R272); reset 0
  sinceAck : Nat := 0             -- frames received since the last ACK
  hopFail : Nat := 0              -- consecutive hop-check failures (R265)
  ctrlQ   : List TxFrame := []     -- control frames waiting
  retrQ   : List TxFrame := []     -- retransmissions waiting
  bndQ    : List TxFrame := []     -- bounded frames waiting
  unbQ    : List TxFrame := []     -- unbounded frames waiting
  deficit : Tbl Nat := []          -- deficit round-robin counters by pool (R276)
  turn    : Nat := 0              -- pool served next
  creds   : Tbl Nat := []          -- credits held, by credit pool: bounded pool × 256 + reservation, unbounded 8192 + pool (R275)
  spent   : Tbl (Nat × Nat) := []  -- credits spent and not returned, by LINK_SEQ: pool, credits
  charge  : Tbl Nat := []          -- bounded units charged to this link's direction, by pool (R422)
  alloted : Nat := 0              -- bounded credits allotted of this link's receive buffer (R275)
  degraded : Bool := false            -- DEGRADED mark (R277)
  degWin  : Nat := 0              -- windows of 10 ms spent DEGRADED and not yet counted in DEGRADED_SECONDS (R416); reset 0
  misroute : Nat := 0             -- MISROUTED count (R278)
  fillRx  : Nat := 0              -- FILL frames received
  retCred : List (Nat × Nat) := [] -- credits to return in the next ACK: LINK_SEQ, credits (R275); reset empty
deriving DecidableEq, Repr

structure Transfer where
  core   : Nat := 0
  mover  : Nat := 0
  bytes  : Nat := 0
  mirror : Option Nat := none   -- the partition whose buddy mirror it belongs to; 16 and up: of a mirror bank sent back (R375)
deriving DecidableEq, Repr

/-- What PATH_OPEN and PATH_ACCEPT carry beside the fields of HELLO and ATTEST (R269, R364). -/
structure PathExtra where
  far     : W64 := 0             -- serial of the far device
  left    : Nat := 0             -- links still to cross
  part    : BitVec 4 := 0        -- partition of the entry
  ctx     : BitVec 8 := 0        -- sending context and its generation
  gen     : BitVec 8 := 0
  rate    : Nat := 0             -- RATE of the reservation, 0 for none
  charter : Bytes := []           -- charter digest, empty outside a charter
  hops    : List (W64 × Nat × Bool) := [] -- hop records: serial, D of the outgoing link, whether its reservation exists
deriving DecidableEq, Repr, Inhabited

/-- A transfer being received at its delivering device (R273, R281). -/
structure Rx where
  start : Nat := 0            -- OFFSET of the first byte of the tile in progress
  base  : Nat := 0            -- byte offset of its slot in the window
  buf   : Bytes := []          -- its bytes so far
  add   : Option Nat := none   -- its contribution, in REDUCE mode
  late  : Bool := false           -- a frame arrived late
  due   : Option Int := none    -- when BOUND_REMAINING of its latest bounded frame reaches zero (R286)
  ended : Bool := false           -- its last frame has arrived
  wait  : List Nat := []       -- contributions not yet complete
  fail  : Option Status := none -- refused with this status
deriving DecidableEq, Repr

/-- Keying and use of one path at this device, by die × 4096 + PATH. -/
structure PathRec where
  phase  : Nat := 0             -- 0 none, 1 opening (origin), 2 accepted (deliver, unconfirmed), 3 open
  origin : Bool := false
  opn    : Bytes := []           -- PATH_OPEN payload
  extra  : PathExtra := {}       -- origin, transit: what stands in PATH_OPEN behind HELLO and report (R269); reset empty
  accept : Bytes := []           -- PATH_ACCEPT payload
  eph    : Nat := 0
  req    : Option Req := none      -- the PATH_OPEN request that waits
  slot   : Nat := 0             -- PATH_KEY_SLOT
  links  : List Nat := []        -- this device's links of the path
  resv   : Nat := 0
  seq    : Nat := 0             -- PATH_SEQ, 48 bits
  next   : W16 := 0             -- next TRANSFER number
  flight : Tbl Transfer := []    -- transfers awaiting DELIVERED (R282)
  degr   : List (Nat × Nat) := []   -- origin: DEGRADED links of the path that PATH_DEGRADED named, by device serial and link (R277); reset empty
  notice : Bool := false           -- PATH_SEQ reached 2^48 − 2^20: the firmware was notified (R272); reset false
  units  : Nat := 0             -- units charged at this device (R422)
  creds  : Nat := 0             -- bounded credits allotted here
  allUp  : Bool := false            -- every hop confirmed with D at most 200 ns (R262, R269)
  rx     : Tbl Rx := []          -- deliver: transfers being received, by TRANSFER
deriving DecidableEq, Repr

structure Paths where
  table  : Tbl (BitVec 128) := [] -- forwarding tables of FL0 and FL1, by die × 4096 + PATH (R278); reset 0
  recs   : Tbl PathRec := []
  transit : Tbl Bucket := []      -- CONFIRMED state of the 256 transit entries
  held    : List (Nat × Nat × Frame) := [] -- DATA frames whose writes stall on push-ahead (R387): link, path key, frame, as they came; reset empty
deriving DecidableEq, Repr

/-! ## Host port, sessions, bulk -/

structure HostPort where
  up      : Bool := false        -- physical link (R325); reset down
  rate    : Nat := 0         -- Gb/s: 1600, 800 or 400 (R293); reset 0
  mode    : Byte := 0        -- HP mode code (R423); reset 0
  lldp    : Bytes := []       -- last LLDP frame received, up to 512 bytes (R297)
  paused  : Tbl Nat := []     -- until when each priority is paused by the peer (R296); reset 0
  pauseNs : Nat := 0         -- PAUSE_NS (R296); reset 0
  pfcSent : Bool := false        -- our PFC pause on the unbounded priority stands (R296); reset false
  held    : List (Nat × BitVec 256 × Bytes) := [] -- receive buffers (R296): chunks whose write stalls, with session and sub-header; reset empty
  replies : List Emit := []   -- HELLO datagrams that wait for the peer's pause to end (R296); reset empty
  drops   : Nat := 0         -- drop counters of the port (R294, R301, R302); reset 0
  orphans : Nat := 0         -- BULK_ORPHAN (R316); reset 0
deriving DecidableEq, Repr

inductive SessPhase where
  | closed | half | opened
deriving DecidableEq, Repr

/-- What an unacknowledged datagram of ours carried. -/
inductive TxWhat where
  | plain | event (queue : Nat) (qseq : Nat) | bulk (key : Nat) | shard (part : Nat) (transfer : Nat)
deriving DecidableEq, Repr

structure TxRec where
  seq     : Nat := 0
  retries : Nat := 0
  what    : TxWhat := .plain
deriving DecidableEq, Repr

/-- A datagram of an open session before it is sealed: its TYPE and MORE (R301), its payload, and what it lets out beside
itself: the record of the message or chunk it ends. -/
structure Dgram where
  what : TxWhat := .plain
  kind : Nat := 0
  more : Bool := false
  text : Bytes := []
  rec_ : Option Emit := none
  key  : Option (Bytes × Bytes) := none -- key and salt of a chunk (R317, R319); none: the session's
deriving DecidableEq, Repr

structure Session where
  phase   : SessPhase := .closed      -- reset closed
  port    : Port := .host
  role    : Role := .operator
  peer    : Nat := 0            -- the peer's address and UDP port, as one number (R302)
  dgram   : Nat := 0            -- DGRAM_MAX agreed (R306)
  chello  : Bytes := []          -- CLIENT_HELLO payload
  dhello  : Bytes := []          -- DEVICE_HELLO payload
  cred    : Bytes := []          -- the credential's public key
  eph     : Nat := 0            -- the device's ephemeral key, by name
  keys    : Option Bytes := none   -- session keys of a management session (R402)
  txSeq   : Nat := 1            -- next SEQ, from 1 (R303)
  rxSeq   : Nat := 0            -- highest SEQ received in order (R303)
  rxMap   : List Nat := []       -- SEQs received above it, within the window of 1,024
  unacked : List TxRec := []     -- datagrams not acknowledged, at most 1,024
  txHold  : List Dgram := [] -- datagrams held at that limit, or by a pause of their priority, oldest first (R303, R296); reset empty
  rxSince : Nat := 0            -- datagrams received since the last ACK
  tagFail : Nat := 0            -- TAG_FAIL count (R302)
  turn    : Bool := false           -- the model's own: the request at hand was held until its turn in SEQ order (R303); reset false
  busy    : List (W16 × W16) := [] -- outstanding requests: REQ_TAG, opcode (R312)
  wins    : Tbl (BitVec 512) := [] -- bulk windows 0–63 (R314)
deriving DecidableEq, Repr

structure Bulk where
  sess    : Nat := 0
  id      : W32 := 0
  window  : Nat := 0
  copy    : BitVec 512 := 0     -- the window as it stood when the transfer was accepted (R314)
  first   : Nat := 0
  count   : Nat := 0
  out     : Bool := false
  bounded : Bool := false
  accept  : Nat := 0           -- t_a (R318)
  charged : Nat := 0           -- c
  rateN   : Nat := 0           -- r, numerator over 10^6 bytes per ns
  late    : Nat := 0           -- E, ns (R318)
  pauses  : Nat := 0           -- ns paused by the peer (R296)
  seen    : List (Nat × Nat × Nat) := [] -- slot, tile offset and length of the chunks taken
  done    : List Nat := []      -- tiles whose final header is written
  slot    : Nat := 0           -- out: tile being sent
  off     : Nat := 0           -- out: next byte of it
  status  : Option Status := none -- stopped with this status
  push    : Option (Nat × Nat) := none -- core and tile mover of a push (R320)
  srcs    : List (Nat × Nat) := []  -- out: its tiles, address and bytes, in slot order (R319)
  dump    : Bool := false          -- it sends the dump kept of its context (R348)
  resv    : Nat := 0           -- reservation of a bounded transfer (R318)
  ctx     : Nat := 0
  sentAll : Bool := false          -- every datagram of an out transfer was sent
  epoch   : Nat := 0           -- in: the step epoch latched at acceptance (R93)
  hdr     : BitVec 512 := 0    -- out: header of the tile being sent, as its first chunk found it
  text    : Bytes := []        -- out: bytes of that tile sent so far
deriving DecidableEq, Repr

/-- A title transfer that was accepted (R412): its request, and how many of its rows are done: 1 the pending record, 2 the fuse, 3
the keys and the title record. -/
structure TitleRun where
  req  : Req
  done : Nat
  at_  : Nat       -- time of its acceptance
deriving DecidableEq, Repr

structure MgmtPort where
  up      : Bool := false        -- physical link (R401); reset down
  mode    : Byte := 0        -- 0 none, 1 10GBASE-KR, 2 1000BASE-KX
  queue   : EventQueue := {}  -- 1,024 events (R404)
  drops   : Nat := 0         -- dropped datagrams (R401)
  challenge : Option (Digest × Nat) := none -- TITLE_CHALLENGE nonce and its time (R412)
  cert    : Bytes := []       -- management key certificate (R65)
  slRun   : Bool := false        -- a second-life sequence runs (R418); reset false
  slAt    : Nat := 0         -- time of its acceptance (R351, R418); reset 0
  titleRun : Option TitleRun := none -- a title transfer in progress (R412); reset none
deriving DecidableEq, Repr

end Sys2Proof
end

