-- ==== Sys2Proof/Syntax.lean ====
section
/-! DEFINITION. The commands of the block: one constructor for each row of the opcode table, with the operands the
rule of the row gives it. A mailbox row carries the request's header and its body bytes (R311); a link row the link
and the frame; a row inside a Jacinth core the core and the unit that runs it. -/

namespace Sys2Proof

/-- A command to the block, or an event inside it: mailbox requests first. Each comment names the row and the rule that governs it. -/
inductive Instr where
  /-- ROM_STATUS (R56). -/
  | romStatus (r : Req) (body : Bytes)
  /-- RECOVERY_WRITE (R56). -/
  | recoveryWrite (r : Req) (slot : BitVec 1) (image : Bytes) (chain : Bytes) (sig : Bytes)
  /-- ATTEST_REQUEST (R66). -/
  | attestRequest (r : Req) (body : Bytes)
  /-- DEVICE_INFO (R313). -/
  | deviceInfo (r : Req) (body : Bytes)
  /-- TIME_READ (R313). -/
  | timeRead (r : Req) (body : Bytes)
  /-- SESSION_CLOSE (R309). -/
  | sessionClose (r : Req) (body : Bytes)
  /-- TELEMETRY_READ (R406). -/
  | telemetryRead (r : Req) (body : Bytes)
  /-- PARTITION_ASSIGN (R328). -/
  | partitionAssign (r : Req) (body : Bytes)
  /-- PARTITION_RELEASE (R349). -/
  | partitionRelease (r : Req) (body : Bytes)
  /-- PEER_LOST (R290). -/
  | peerLost (r : Req) (body : Bytes)
  /-- CONTEXT_CREATE (R337). -/
  | contextCreate (r : Req) (body : Bytes)
  /-- CONTEXT_LOAD (R425). -/
  | contextLoad (r : Req) (body : Bytes)
  /-- CONTEXT_START (R425). -/
  | contextStart (r : Req) (body : Bytes)
  /-- CONTEXT_FENCE (R341). -/
  | contextFence (r : Req) (body : Bytes)
  /-- CONTEXT_DESTROY (R343). -/
  | contextDestroy (r : Req) (body : Bytes)
  /-- REGION_SET (R231). -/
  | regionSet (r : Req) (body : Bytes)
  /-- REGION_CLEAR (R231). -/
  | regionClear (r : Req) (body : Bytes)
  /-- WINDOW_SET (R280). -/
  | windowSet (r : Req) (body : Bytes)
  /-- PATH_OPEN (R269). -/
  | pathOpen (r : Req) (body : Bytes)
  /-- PATH_CLOSE (R278). -/
  | pathClose (r : Req) (body : Bytes)
  /-- BULK_WINDOW_SET (R315). -/
  | bulkWindowSet (r : Req) (body : Bytes)
  /-- BULK_WINDOW_CLEAR (R313). -/
  | bulkWindowClear (r : Req) (body : Bytes)
  /-- BULK_IN_OPEN (R318). -/
  | bulkInOpen (r : Req) (body : Bytes)
  /-- BULK_OUT_OPEN (R319). -/
  | bulkOutOpen (r : Req) (body : Bytes)
  /-- CAPTURE_READ (R169). -/
  | captureRead (r : Req) (body : Bytes)
  /-- COUNTERS_READ (R120). -/
  | countersRead (r : Req) (body : Bytes)
  /-- PHASE_REPORT_READ (R370). -/
  | phaseReportRead (r : Req) (body : Bytes)
  /-- CONFIG_WRITE (R403). -/
  | configWrite (r : Req) (body : Bytes)
  /-- CONFIG_VALIDATE (R331). -/
  | configValidate (r : Req) (body : Bytes)
  /-- CONFIG_SWAP (R332). -/
  | configSwap (r : Req) (body : Bytes)
  /-- CONFIG_READ (R403). -/
  | configRead (r : Req) (body : Bytes)
  /-- POWER_LIMIT_SET (R405). -/
  | powerLimitSet (r : Req) (body : Bytes)
  /-- ALERT_CLEAR (R42). -/
  | alertClear (r : Req) (body : Bytes)
  /-- FAULT_LOG_READ (R427). -/
  | faultLogRead (r : Req) (body : Bytes)
  /-- LINK_UNRETIRE (R263). -/
  | linkUnretire (r : Req) (body : Bytes)
  /-- MGMT_NET_SET (R401). -/
  | mgmtNetSet (r : Req) (body : Bytes)
  /-- FW_STAGE_BEGIN (R408). -/
  | fwStageBegin (r : Req) (body : Bytes)
  /-- FW_STAGE_DATA (R408). -/
  | fwStageData (r : Req) (body : Bytes)
  /-- FW_STAGE_END (R408). -/
  | fwStageEnd (r : Req) (body : Bytes)
  /-- FW_ACTIVATE (R409). -/
  | fwActivate (r : Req) (body : Bytes)
  /-- FW_ABANDON (R409). -/
  | fwAbandon (r : Req) (body : Bytes)
  /-- SVN_COMMIT (R410). -/
  | svnCommit (r : Req) (body : Bytes)
  /-- DEVICE_RESET (R411). -/
  | deviceReset (r : Req) (body : Bytes)
  /-- SECOND_LIFE (R418). -/
  | secondLife (r : Req) (body : Bytes)
  /-- LEDGER_EXPORT (R416). -/
  | ledgerExport (r : Req) (body : Bytes)
  /-- TITLE_CHALLENGE (R412). -/
  | titleChallenge (r : Req) (body : Bytes)
  /-- TITLE_TRANSFER (R412). -/
  | titleTransfer (r : Req) (body : Bytes)
  /-- OPERATOR_ROOT_SET (R413). -/
  | operatorRootSet (r : Req) (body : Bytes)
  /-- COSIGN_SET (R413). -/
  | cosignSet (r : Req) (body : Bytes)
  /-- RETIRE (R414). -/
  | retire (r : Req) (body : Bytes)
  /-- DEBUG_CHALLENGE (R70). -/
  | debugChallenge (r : Req) (body : Bytes)
  /-- DEBUG_TOKEN (R71). -/
  | debugToken (r : Req) (body : Bytes)
  /-- CHARTER_LOAD (R356). -/
  | charterLoad (r : Req) (body : Bytes)
  /-- KEY_SHARE_ATTEST (R359). -/
  | keyShareAttest (r : Req) (body : Bytes)
  /-- KEY_SHARE_SHARE (R360). -/
  | keyShareShare (r : Req) (body : Bytes)
  /-- KEY_SHARE_RESTORE_AUTH (R359). -/
  | keyShareRestoreAuth (r : Req) (body : Bytes)
  /-- KEY_SHARE_STATUS (R359). -/
  | keyShareStatus (r : Req) (body : Bytes)
  /-- STEP_JOIN (R371). -/
  | stepJoin (r : Req) (body : Bytes)
  /-- STEP_COMMIT (R373). -/
  | stepCommit (r : Req) (body : Bytes)
  /-- STEP_ROLLBACK (R373). -/
  | stepRollback (r : Req) (body : Bytes)
  /-- STEP_UNCOMMIT (R373). -/
  | stepUncommit (r : Req) (body : Bytes)
  /-- MIRROR_RELEASE (R373). -/
  | mirrorRelease (r : Req) (body : Bytes)
  /-- MIRROR_STATUS (R371). -/
  | mirrorStatus (r : Req) (body : Bytes)
  /-- MIRROR_RESTORE (R375). -/
  | mirrorRestore (r : Req) (body : Bytes)
  /-- STEP_ABORT (R373). -/
  | stepAbort (r : Req) (body : Bytes)
  /-- CKPT_CUT (R383). -/
  | ckptCut (r : Req) (body : Bytes)
  /-- CKPT_STATUS (R379). -/
  | ckptStatus (r : Req) (body : Bytes)
  /-- CKPT_STORED (R393). -/
  | ckptStored (r : Req) (body : Bytes)
  /-- CKPT_ABANDON (R395). -/
  | ckptAbandon (r : Req) (body : Bytes)
  /-- CKPT_MANIFEST_LOAD (R397). -/
  | ckptManifestLoad (r : Req) (body : Bytes)
  /-- CKPT_RESTORE_OPEN (R397). -/
  | ckptRestoreOpen (r : Req) (body : Bytes)
  /-- UNKNOWN_MAILBOX_OPCODE (R313). -/
  | unknownMailboxOpcode (r : Req) (op : W16)
  /-- VIN_VALID (R30). -/
  | vinValid (vinMv : Nat)
  /-- RAILS_GOOD (R30). -/
  | railsGood
  /-- PWRGOOD_ASSERT (R30). -/
  | pwrgoodAssert (p : BootPins)
  /-- RESET_N_ASSERT (R32). -/
  | resetNAssert (ns : Nat)
  /-- RESET_N_RELEASE (R32). -/
  | resetNRelease (p : BootPins)
  /-- FIRMWARE_START (R46). -/
  | firmwareStart
  /-- PORTS_UP (R46). -/
  | portsUp
  /-- HBM_TRAINING_COMPLETE (R47). -/
  | hbmTrainingComplete (stack : BitVec 4) (good : Bool)
  /-- DEVICE_READY (R47). -/
  | deviceReady
  /-- HOST_BOOT_ATTACH_TIMEOUT (R310). -/
  | hostBootAttachTimeout
  /-- BOOT_OFFER_TIMER (R310). -/
  | bootOfferTimer
  /-- BOOT_DATA (R310). -/
  | bootData (sender : Nat) (payload : Bytes)
  /-- HOST_BOOT_TIMEOUT (R51). -/
  | hostBootTimeout
  /-- MR_EXTEND (R60). -/
  | mrExtend (n : BitVec 3) (etype : W32) (data : Bytes)
  /-- REFCLK_LOSS (R27). -/
  | refclkLoss (c : Refclk)
  /-- REFCLK_RESTORED (R27). -/
  | refclkRestored (c : Refclk)
  /-- POWER_FAIL (R33). -/
  | powerFail (cause : PowerCause)
  /-- POWER_RESTORED (R33). -/
  | powerRestored (p : BootPins)
  /-- POWER_SAMPLE (R35). -/
  | powerSample (vinMv : Nat) (iinMa : Nat)
  /-- CUR_LIMIT_ALERT (R36). -/
  | curLimitAlert
  /-- TEMP_SAMPLE (R38). -/
  | tempSample (sensor : BitVec 7) (t16 : Int)
  /-- TRIP_LATCH_RELEASE (R40). -/
  | tripLatchRelease
  /-- LEDGER_COMMIT (R34). -/
  | ledgerCommit
  /-- ALERT_CAUSE_WRITE (R42). -/
  | alertCauseWrite (mask : W16) (fresh : W16)
  /-- I2C_WRITE_OTHER (R41). -/
  | i2cWriteOther (offset : Byte) (v : W16)
  /-- PPS_OUT_PULSE (R25). -/
  | ppsOutPulse
  /-- PPS_IN_EDGE (R25). -/
  | ppsInEdge (width : Nat)
  /-- EXTEST (R69). -/
  | extest (scan : Nat)
  /-- IDCODE (R69). -/
  | idcode
  /-- SAMPLE_PRELOAD (R69). -/
  | samplePreload (scan : Nat)
  /-- AUTH_CHALLENGE (R70). -/
  | authChallenge
  /-- AUTH_TOKEN (R71). -/
  | authToken (t : DebugToken)
  /-- AUTH_STATUS (R69). -/
  | authStatus
  /-- DEBUG_ACCESS (R69). -/
  | debugAccess (op : DebugOp)
  /-- BYPASS (R69). -/
  | bypass (code : Byte) (tdi : Bool)
  /-- DEBUG_TOKEN_VERIFIED (R71). -/
  | debugTokenVerified (resetToo : Bool)
  /-- DEBUG_NONCE_EXPIRY (R70). -/
  | debugNonceExpiry
  /-- PROD_DEBUG_EXPIRY (R68). -/
  | prodDebugExpiry
  /-- MATMUL (R132). -/
  | matmul (core : BitVec 5)
  /-- MATDRAIN (R133). -/
  | matdrain (core : BitVec 5)
  /-- WAVEFRONT_ENTER (R128). -/
  | wavefrontEnter (core : BitVec 5)
  /-- CELL_WINDOW_ADD (R164). -/
  | cellWindowAdd (core : BitVec 5) (array : BitVec 2) (row : BitVec 7) (col : BitVec 7)
  /-- DRAIN_MARKER_CAPTURE (R151). -/
  | drainMarkerCapture (core : BitVec 5) (array : BitVec 2) (row : BitVec 7) (col : BitVec 7)
  /-- ROW_READOUT (R151). -/
  | rowReadout (core : BitVec 5) (split : BitVec 2) (row : BitVec 7)
  /-- CHECKSUM_COMPARE (R173). -/
  | checksumCompare (core : BitVec 5) (split : BitVec 2)
  /-- REEXECUTE (R175). -/
  | reexecute (core : BitVec 5)
  /-- RETIRE_AND_REEXECUTE (R175). -/
  | retireAndReexecute (core : BitVec 5) (array : BitVec 2) (isRow : Bool) (idx : BitVec 6)
  /-- KEEP (R175). -/
  | keep (core : BitVec 5)
  /-- FAIL_STEP (R175). -/
  | failStep (core : BitVec 5)
  /-- MISMATCH_DECISION_TIMEOUT (R175). -/
  | mismatchDecisionTimeout (core : BitVec 5)
  /-- BANK_FILL_DONE (R150). -/
  | bankFillDone (core : BitVec 5) (array : BitVec 2) (bank : BitVec 1)
  /-- BANK_RELEASE (R149). -/
  | bankRelease (core : BitVec 5) (array : BitVec 2) (bank : BitVec 1)
  /-- MATRIX_COMPLETION (R136). -/
  | matrixCompletion (core : BitVec 5)
  /-- ARRAY_SAVE (R153). -/
  | arraySave (core : BitVec 5)
  /-- ISSUE_MATRIX (R216). -/
  | issueMatrix (core : BitVec 5) (g : BitVec 1)
  /-- ISSUE_VECTOR (R216). -/
  | issueVector (core : BitVec 5) (g : BitVec 1)
  /-- ISSUE_TILE_MOVER (R216). -/
  | issueTileMover (core : BitVec 5) (g : BitVec 1)
  /-- ISSUE_OUT_CFG (R177). -/
  | issueOutCfg (core : BitVec 5) (g : BitVec 1)
  /-- ISSUE_VIEW (R188). -/
  | issueView (core : BitVec 5) (g : BitVec 1)
  /-- VCHAIN (R194). -/
  | vchain (core : BitVec 5) (g : BitVec 1)
  /-- OPT_UPDATE (R212). -/
  | optUpdate (core : BitVec 5) (g : BitVec 1)
  /-- VEC_LD (R198). -/
  | vecLd (core : BitVec 5) (ch : BitVec 3)
  /-- VEC_ST (R198). -/
  | vecSt (core : BitVec 5) (ch : BitVec 3)
  /-- VEC_LDC (R195). -/
  | vecLdc (core : BitVec 5) (ch : BitVec 3)
  /-- VEC_ADD (R197). -/
  | vecAdd (core : BitVec 5) (ch : BitVec 3)
  /-- VEC_SUB (R197). -/
  | vecSub (core : BitVec 5) (ch : BitVec 3)
  /-- VEC_MUL (R197). -/
  | vecMul (core : BitVec 5) (ch : BitVec 3)
  /-- VEC_FMA (R197). -/
  | vecFma (core : BitVec 5) (ch : BitVec 3)
  /-- VEC_DIV (R197). -/
  | vecDiv (core : BitVec 5) (ch : BitVec 3)
  /-- VEC_SQRT (R197). -/
  | vecSqrt (core : BitVec 5) (ch : BitVec 3)
  /-- VEC_MAX (R197). -/
  | vecMax (core : BitVec 5) (ch : BitVec 3)
  /-- VEC_MIN (R197). -/
  | vecMin (core : BitVec 5) (ch : BitVec 3)
  /-- VEC_ABS (R195). -/
  | vecAbs (core : BitVec 5) (ch : BitVec 3)
  /-- VEC_NEG (R195). -/
  | vecNeg (core : BitVec 5) (ch : BitVec 3)
  /-- VEC_FUNC (R197). -/
  | vecFunc (core : BitVec 5) (ch : BitVec 3)
  /-- VEC_CMP (R195). -/
  | vecCmp (core : BitVec 5) (ch : BitVec 3)
  /-- SEL (R195). -/
  | sel (core : BitVec 5) (ch : BitVec 3)
  /-- CVT (R198). -/
  | cvt (core : BitVec 5) (ch : BitVec 3)
  /-- LOGIC (R195). -/
  | logic (core : BitVec 5) (ch : BitVec 3)
  /-- PERM (R200). -/
  | perm (core : BitVec 5) (ch : BitVec 3)
  /-- GATHER (R200). -/
  | gather (core : BitVec 5) (ch : BitVec 3)
  /-- POS (R204). -/
  | pos (core : BitVec 5) (ch : BitVec 3)
  /-- RED (R201). -/
  | red (core : BitVec 5) (ch : BitVec 3)
  /-- SUMM (R202). -/
  | summ (core : BitVec 5) (ch : BitVec 3)
  /-- COMPRESS (R203). -/
  | compress (core : BitVec 5) (ch : BitVec 3)
  /-- EXPAND (R203). -/
  | expand (core : BitVec 5) (ch : BitVec 3)
  /-- W96ADD (R184). -/
  | w96add (core : BitVec 5) (ch : BitVec 3)
  /-- VECTOR_COMPLETION (R190). -/
  | vectorCompletion (core : BitVec 5) (ch : BitVec 3)
  /-- ALU (R215). -/
  | alu (core : BitVec 5) (g : BitVec 1)
  /-- ADDI (R215). -/
  | addi (core : BitVec 5) (g : BitVec 1)
  /-- ANDI (R215). -/
  | andi (core : BitVec 5) (g : BitVec 1)
  /-- ORI (R215). -/
  | ori (core : BitVec 5) (g : BitVec 1)
  /-- XORI (R215). -/
  | xori (core : BitVec 5) (g : BitVec 1)
  /-- SHLI (R215). -/
  | shli (core : BitVec 5) (g : BitVec 1)
  /-- SHRI (R215). -/
  | shri (core : BitVec 5) (g : BitVec 1)
  /-- LDK (R215). -/
  | ldk (core : BitVec 5) (g : BitVec 1)
  /-- LD (R215). -/
  | ld (core : BitVec 5) (g : BitVec 1)
  /-- ST (R215). -/
  | st (core : BitVec 5) (g : BitVec 1)
  /-- BEQ (R215). -/
  | beq (core : BitVec 5) (g : BitVec 1)
  /-- BNE (R215). -/
  | bne (core : BitVec 5) (g : BitVec 1)
  /-- BLT (R215). -/
  | blt (core : BitVec 5) (g : BitVec 1)
  /-- BGE (R215). -/
  | bge (core : BitVec 5) (g : BitVec 1)
  /-- BLTU (R215). -/
  | bltu (core : BitVec 5) (g : BitVec 1)
  /-- BGEU (R215). -/
  | bgeu (core : BitVec 5) (g : BitVec 1)
  /-- JAL (R215). -/
  | jal (core : BitVec 5) (g : BitVec 1)
  /-- JR (R215). -/
  | jr (core : BitVec 5) (g : BitVec 1)
  /-- WAIT (R216). -/
  | wait (core : BitVec 5) (g : BitVec 1)
  /-- POLL (R216). -/
  | poll (core : BitVec 5) (g : BitVec 1)
  /-- WAITALL (R215). -/
  | waitall (core : BitVec 5) (g : BitVec 1)
  /-- RDSUM (R217). -/
  | rdsum (core : BitVec 5) (g : BitVec 1)
  /-- EPOCH (R220). -/
  | epoch (core : BitVec 5) (g : BitVec 1)
  /-- PMARK (R221). -/
  | pmark (core : BitVec 5) (g : BitVec 1)
  /-- RDTIME (R215). -/
  | rdtime (core : BitVec 5) (g : BitVec 1)
  /-- SETTRAP (R215). -/
  | settrap (core : BitVec 5) (g : BitVec 1)
  /-- TRAPRET (R218). -/
  | trapret (core : BitVec 5) (g : BitVec 1)
  /-- RDTRAP (R215). -/
  | rdtrap (core : BitVec 5) (g : BitVec 1)
  /-- GSEND (R215). -/
  | gsend (core : BitVec 5) (g : BitVec 1)
  /-- GRECV (R217). -/
  | grecv (core : BitVec 5) (g : BitVec 1)
  /-- BARRIER (R222). -/
  | barrier (core : BitVec 5) (g : BitVec 1)
  /-- HALT (R215). -/
  | halt (core : BitVec 5) (g : BitVec 1)
  /-- TRAP_TAKE (R218). -/
  | trapTake (core : BitVec 5) (g : BitVec 1)
  /-- TM_COPY (R251). -/
  | tmCopy (core : BitVec 5) (mover : BitVec 1)
  /-- TM_LAYOUT (R251). -/
  | tmLayout (core : BitVec 5) (mover : BitVec 1)
  /-- TM_GATHER (R251). -/
  | tmGather (core : BitVec 5) (mover : BitVec 1)
  /-- TM_ZERO (R251). -/
  | tmZero (core : BitVec 5) (mover : BitVec 1)
  /-- TM_ZERO_ACC (R253). -/
  | tmZeroAcc (core : BitVec 5) (mover : BitVec 1)
  /-- TM_REDUCE (R256). -/
  | tmReduce (core : BitVec 5) (mover : BitVec 1)
  /-- TM_ACC_READ (R258). -/
  | tmAccRead (core : BitVec 5) (mover : BitVec 1)
  /-- ACC_READ_RELEASE (R258). -/
  | accReadRelease (core : BitVec 5) (mover : BitVec 1)
  /-- TM_SEND (R282). -/
  | tmSend (core : BitVec 5) (mover : BitVec 1)
  /-- ADMIT_WAIT_EXPIRY (R285). -/
  | admitWaitExpiry (core : BitVec 5) (mover : BitVec 1)
  /-- TILE_MOVE (R252). -/
  | tileMove (core : BitVec 5) (mover : BitVec 1)
  /-- TILE_MOVER_COMPLETION (R252). -/
  | tileMoverCompletion (core : BitVec 5) (mover : BitVec 1)
  /-- HBM_READ (R241). -/
  | hbmRead (m : Master) (pa : W64) (find : HbmFind)
  /-- HBM_WRITE (R242). -/
  | hbmWrite (m : Master) (pa : W64) (line : WriteLine)
  /-- PARTIAL_WRITE (R247). -/
  | partialWrite (m : Master) (pa : W64) (len : BitVec 7) (data : BitVec 512) (find : HbmFind)
  /-- LINE_ADD (R258). -/
  | lineAdd (stack : BitVec 4) (ch : BitVec 5) (find : HbmFind)
  /-- GROUP_REENCRYPT_DONE (R243). -/
  | groupReencryptDone (group : W64) (bad : W64)
  /-- METADATA_WRITEBACK (R242). -/
  | metadataWriteback (line : W64)
  /-- ZOT_WORK_DONE (R249). -/
  | zotWorkDone (ctx : BitVec 8) (entry : BitVec 10)
  /-- PUSHAHEAD_DRAIN (R386). -/
  | pushaheadDrain (part : BitVec 4)
  /-- LINK_SIGNAL_DETECT (R263). -/
  | linkSignalDetect (link : BitVec 5)
  /-- LINK_TRAINING_DONE (R262). -/
  | linkTrainingDone (link : BitVec 5) (d : Nat)
  /-- TRAIN_TIMEOUT (R263). -/
  | trainTimeout (link : BitVec 5)
  /-- LINK_HELLO (R266). -/
  | linkHello (link : BitVec 5) (payload : Bytes)
  /-- HELLO_TIMEOUT (R263). -/
  | helloTimeout (link : BitVec 5)
  /-- LINK_ATTEST (R266). -/
  | linkAttest (link : BitVec 5) (payload : Bytes)
  /-- ATTEST_TIMEOUT (R263). -/
  | attestTimeout (link : BitVec 5)
  /-- POLICY_VERDICT (R267). -/
  | policyVerdict (link : BitVec 5) (accept : Bool)
  /-- KEY_CONFIRM (R266). -/
  | keyConfirm (link : BitVec 5) (f : Frame)
  /-- KEY_TIMEOUT (R263). -/
  | keyTimeout (link : BitVec 5)
  /-- LINK_FENCE (R265). -/
  | linkFence (link : BitVec 5) (cause : Byte)
  /-- LINK_RESET (R265). -/
  | linkReset (link : BitVec 5) (f : Frame)
  /-- LINK_FENCED_TIMEOUT (R263). -/
  | linkFencedTimeout (link : BitVec 5)
  /-- LINK_RETRY_TIMER (R264). -/
  | linkRetryTimer (link : BitVec 5)
  /-- LINK_TRANSMIT (R276). -/
  | linkTransmit (link : BitVec 5)
  /-- DATA (R281). -/
  | data (link : BitVec 5) (f : Frame)
  /-- LINK_ACK (R274). -/
  | linkAck (link : BitVec 5) (f : Frame)
  /-- NAK (R274). -/
  | nak (link : BitVec 5) (f : Frame)
  /-- FILL (R276). -/
  | fill (link : BitVec 5) (f : Frame)
  /-- LINK_ACK_TIMER (R274). -/
  | linkAckTimer (link : BitVec 5)
  /-- LINK_RETRANSMIT_TIMEOUT (R274). -/
  | linkRetransmitTimeout (link : BitVec 5)
  /-- FEC_WINDOW (R277). -/
  | fecWindow (link : BitVec 5) (errors : Nat)
  /-- DEGRADED_FENCE_TIMER (R277). -/
  | degradedFenceTimer (link : BitVec 5)
  /-- PATH_OPEN_FRAME (R269). -/
  | pathOpenFrame (link : BitVec 5) (f : Frame)
  /-- PATH_ACCEPT (R269). -/
  | pathAccept (link : BitVec 5) (f : Frame)
  /-- PATH_CONFIRM (R269). -/
  | pathConfirm (link : BitVec 5) (f : Frame)
  /-- PATH_CLOSE_FRAME (R278). -/
  | pathCloseFrame (link : BitVec 5) (f : Frame)
  /-- PATH_LOST (R282). -/
  | pathLost (link : BitVec 5) (f : Frame)
  /-- PATH_DEGRADED (R277). -/
  | pathDegraded (link : BitVec 5) (f : Frame)
  /-- DELIVERED (R282). -/
  | delivered (link : BitVec 5) (f : Frame)
  /-- REFUSED (R281). -/
  | refused (link : BitVec 5) (f : Frame)
  /-- PATH_REOPEN (R272). -/
  | pathReopen (die : BitVec 1) (path : BitVec 12)
  /-- PFC_PAUSE_FRAME (R296). -/
  | pfcPauseFrame (prios : Byte) (ns : Nat)
  /-- LLDP_FRAME (R297). -/
  | lldpFrame (data : Bytes)
  /-- LLDP_TRANSMIT (R297). -/
  | lldpTransmit
  /-- ARP_FRAME (R294). -/
  | arpFrame (data : Bytes)
  /-- NEIGHBOUR_DISCOVERY (R294). -/
  | neighbourDiscovery (data : Bytes)
  /-- ICMP_ECHO (R294). -/
  | icmpEcho (data : Bytes)
  /-- HOST_LINK_UP (R284). -/
  | hostLinkUp (mode : Byte)
  /-- HOST_LINK_DOWN (R325). -/
  | hostLinkDown
  /-- PTP_ANNOUNCE (R298). -/
  | ptpAnnounce (hdr : PtpHdr) (rank : Nat)
  /-- PTP_SYNC (R299). -/
  | ptpSync (hdr : PtpHdr) (t2 : Nat)
  /-- PTP_FOLLOW_UP (R298). -/
  | ptpFollowUp (hdr : PtpHdr) (t1 : Nat)
  /-- PTP_DELAY_RESP (R298). -/
  | ptpDelayResp (resp : PtpResp)
  /-- PTP_DELAY_REQ_TIMER (R298). -/
  | ptpDelayReqTimer
  /-- PTP_SYNC_TIMEOUT (R299). -/
  | ptpSyncTimeout
  /-- PTP_ANNOUNCE_TIMEOUT (R298). -/
  | ptpAnnounceTimeout
  /-- PTP_RELAY (R300). -/
  | ptpRelay (sess : Nat) (msg : PtpRelay)
  /-- CLIENT_HELLO (R306). -/
  | clientHello (port : Port) (peer : Nat) (payload : Bytes)
  /-- CLIENT_FINISH (R307). -/
  | clientFinish (sess : Nat) (payload : Bytes)
  /-- HALF_OPEN_TIMEOUT (R306). -/
  | halfOpenTimeout (sess : Nat)
  /-- ATTEST_ONLY (R308). -/
  | attestOnly (port : Port) (peer : Nat) (payload : Bytes)
  /-- KHT_ACK (R303). -/
  | khtAck (sess : Nat) (ackSeq : Nat) (ack : KhtAck)
  /-- KHT_ACK_TIMER (R303). -/
  | khtAckTimer (sess : Nat)
  /-- KHT_RETRANSMIT_TIMEOUT (R303). -/
  | khtRetransmitTimeout (sess : Nat)
  /-- SESSION_TIMEOUT (R303). -/
  | sessionTimeout (sess : Nat)
  /-- BULK_DATAGRAM (R316). -/
  | bulkDatagram (sess : Nat) (seq : Nat) (head : BulkHead) (cipher : Bytes) (tag : BitVec 128)
  /-- BULK_OUT_CHUNK (R319). -/
  | bulkOutChunk (key : Nat)
  /-- MAILBOX_BOUND_EXPIRY (R312). -/
  | mailboxBoundExpiry (sess : Nat) (tag : W16)
  /-- EVENT_SEND (R344). -/
  | eventSend (queue : Nat)
  /-- FENCE_CONFIRMED (R341). -/
  | fenceConfirmed (ctx : BitVec 8)
  /-- FENCE_LIMIT (R342). -/
  | fenceLimit (ctx : BitVec 8)
  /-- PARTITION_RESET_LIMIT (R342). -/
  | partitionResetLimit (part : BitVec 4)
  /-- CONTEXT_SCRUB_DONE (R343). -/
  | contextScrubDone (ctx : BitVec 8)
  /-- PHASE_MARK_DRAIN (R368). -/
  | phaseMarkDrain (ctx : BitVec 8)
  /-- QUANTUM_EXPIRY (R340). -/
  | quantumExpiry (core : BitVec 5)
  /-- CONTEXT_SAVE_DONE (R340). -/
  | contextSaveDone (ctx : BitVec 8)
  /-- CONTEXT_RESTORE_DONE (R340). -/
  | contextRestoreDone (ctx : BitVec 8)
  /-- WATCHDOG_EXPIRY (R346). -/
  | watchdogExpiry (ctx : BitVec 8) (unit : Nat)
  /-- DUMP_UNIT_TIMEOUT (R347). -/
  | dumpUnitTimeout (ctx : BitVec 8) (unit : Nat)
  /-- DUMP_DONE (R348). -/
  | dumpDone (ctx : BitVec 8)
  /-- SCRUB_KEY_PHASE (R349). -/
  | scrubKeyPhase (part : BitVec 4)
  /-- SCRUB_LEDGER_COMMIT (R349). -/
  | scrubLedgerCommit (part : BitVec 4)
  /-- SCRUB_DONE (R349). -/
  | scrubDone (part : BitVec 4)
  /-- SCRUB_RESTART (R352). -/
  | scrubRestart (part : BitVec 4)
  /-- CONFIG_SET_PERSISTED (R332). -/
  | configSetPersisted
  /-- SECOND_LIFE_TEST_DONE (R418). -/
  | secondLifeTestDone
  /-- SNAPSHOT_CHUNK (R389). -/
  | snapshotChunk (part : BitVec 4)
  /-- REGULATOR_PHASE_FAILURE (R41). -/
  | regulatorPhaseFailure (phase : Nat)
  /-- SUPPLY_DROOP (R18). -/
  | supplyDroop (core : BitVec 5)
  /-- PROVISIONING (R68). -/
  | provisioning (serial : W64) (secret : Nat) (keys : Tbl Digest) (debugKey : Digest) (titleKey : Digest) (cert : Bytes)
  /-- PROD_FUSE_BURN (R68). -/
  | prodFuseBurn
  /-- ILLEGAL_INSTRUCTION (R219). -/
  | illegalInstruction (core : BitVec 5) (g : BitVec 1)
  /-- TRACE_EXPORT (R333). -/
  | traceExport
  /-- DROPPED_FRAME (R294). -/
  | droppedFrame (port : Port)
  /-- TITLE_NONCE_EXPIRY (R412). -/
  | titleNonceExpiry
  /-- SIGNAL_LOSS (R263). -/
  | signalLoss (link : BitVec 5)
  /-- MGMT_PORT_LINK_DOWN (R401). -/
  | mgmtPortLinkDown
  /-- MGMT_PORT_LINK_UP (R401). -/
  | mgmtPortLinkUp (mode : Byte)
deriving DecidableEq, Repr

end Sys2Proof
end

