-- ==== Sys2Proof/Config.lean ====
section
/-! DEFINITION. What the manual leaves open or takes from a published standard: free values, and the cryptographic
functions, as constants without a body. No proof can see a value of any of them. -/

namespace Sys2Proof

/-- The n-th free value: a random number of the entropy source, an undefined value (DESIGN CHOICE, log entry 2). -/
opaque Config.freeValue : Nat → Nat

/-- The 16 bits that a 64-bit random generator gives in a state, and its next state (R113, DESIGN CHOICE, log entry 125). -/
opaque Config.rngBits : BitVec 64 → BitVec 16
opaque Config.rngNext : BitVec 64 → BitVec 64

/-- SHA-512 (R1, R60). Assumption 3, as every constant below. -/
opaque Config.sha512 : Bytes → Digest
/-- HKDF with SHA-512 (R62, R307): salt, input key, info, output length. -/
opaque Config.hkdf : Bytes → Bytes → Bytes → Nat → Bytes
/-- The P-521 public point of a private key (R62). -/
opaque Config.pubOf : Bytes → Bytes
/-- ECDSA P-521 with SHA-512: private key, message; r then s, 132 bytes (R52). -/
opaque Config.ecdsaSign : Bytes → Bytes → Bytes
/-- ECDSA P-521 with SHA-512: public key, message, signature (R52). -/
opaque Config.ecdsaVerify : Bytes → Bytes → Bytes → Bool
/-- ECDH on P-521: private key, the other side's point (R307). -/
opaque Config.ecdh : Bytes → Bytes → Bytes
/-- A byte string is the uncompressed encoding of a point of P-521 (R356). -/
opaque Config.pointOk : Bytes → Bool
/-- AES-256-GCM: key, IV, additional data, plaintext; ciphertext and tag (R302). -/
opaque Config.gcmSeal : Bytes → Bytes → Bytes → Bytes → Bytes × BitVec 128
/-- AES-256-GCM: key, IV, additional data, ciphertext, tag; the plaintext where the tag verifies. -/
opaque Config.gcmOpen : Bytes → Bytes → Bytes → Bytes → BitVec 128 → Option Bytes
/-- AES-256 of one block (FIPS 197): the key's 32 bytes, the block, its first byte most significant (R235-R240). -/
opaque Config.aesBlock : Bytes → BitVec 128 → BitVec 128
/-- The four check symbols of the Reed-Solomon code over a line's 68 data symbols (R238), whose generator the manual does not give. -/
opaque Config.eccCheck : BitVec 544 → BitVec 32
/-- The public keys at the leaf and at the root of a certificate chain of at most 4 X.509 certificates, where every
signature of it verifies (R305, R402). -/
opaque Config.certChain : Bytes → Option (Bytes × Bytes)
/-- The public key an identity certificate carries and its serial number, where the chain to the Brynleham root verifies
(R64). -/
opaque Config.idCert : Bytes → Option (Bytes × W64)
/-- The subject of a certificate, a Name in DER (R65). -/
opaque Config.certSubject : Bytes → Bytes
/-- The data with which an entry to PROD_DEBUG extends MR7 (R59), which the manual does not give. -/
opaque Config.debugEntry : DebugToken → Bytes
/-- The bytes of ROM_IDENTITY (R59). -/
opaque Config.romIdentity : Bytes
/-- The bytes of FUSE_SUMMARY, whose fields R59 lists and whose layout it does not give. -/
opaque Config.fuseSummary : Fuses → Bytes
/-- The 8-bit silicon stepping of IDCODE (R69), 4 bits of which are used. -/
opaque Config.stepping : Nat
/-- Boundary-scan cells (R69), whose number the manual does not give. -/
opaque Config.scanLength : Nat
/-- How many cores' clocks may move in one sample of 1 µs without the input current changing faster than 25 A/µs (R29); the
manual gives no number. -/
opaque Config.rampCores : Nat
/-- The firmware's policy tables that extend MR6 (R59). -/
opaque Config.fwPolicy : Bytes
/-- The lines that the n-th second-life test retires (R418): core, array, row or column, line. Which cells fail is no matter of the manual's. -/
opaque Config.testFaults : Nat → List (BitVec 5 × BitVec 2 × Bool × BitVec 6)
/-- The bytes of a debug token as MR7 is extended with them (R71): R70 lists its fields and gives no layout. -/
opaque Config.tokenBytes : DebugToken → Bytes
/-- A debug token read from the body of DEBUG_TOKEN (R403), whose layout the manual does not give. -/
opaque Config.tokenOf : Bytes → Option DebugToken
/-- The bytes a debug token's vendor and title signatures cover (R70). -/
opaque Config.tokenSigned : DebugToken → Bytes
/-- Zstandard compression of a Firkin chunk (R391). -/
opaque Config.zstd : Bytes → Bytes
/-- Zstandard decompression, where the frame is well formed. -/
opaque Config.unzstd : Bytes → Option Bytes
/-- The performance counters of COUNTERS_READ (R313), which the manual does not list: context, generation. -/
opaque Config.perfCounters : Nat → Nat → Bytes
/-- The CONTROL record and the DATA records of what a dump read of a unit (R348), whose bytes the manual does not lay out. -/
opaque Config.dumpControl : DumpRead → Bytes
opaque Config.dumpData : DumpRead → List Bytes

/-- What a path message holds between its report and its charter binding, which the manual does not lay out: written, and read, with
the bytes that follow it. -/
opaque Config.pathExtraBytes : PathExtra → Bytes
opaque Config.pathExtraOf : Bytes → Option (PathExtra × Bytes)
/-- The receive window that the delivering device binds a path to (R278), which the manual leaves to it. -/
opaque Config.pathWindow : PathExtra → BitVec 6
/-- The settings that a body of MGMT_NET_SET holds, whose layout the manual does not give (R401); none where it holds none. -/
opaque Config.netSettings : Bytes → Option MgNet
/-- The Brynleham title key whose hash is fused (R412). -/
opaque Config.titleKeyOf : Digest → Bytes
/-- The TYPE of a TRACE_EXPORT frame: R333 makes it a control frame, and R271 lists no code for it. -/
opaque Config.traceType : Nat
/-- The outgoing link a transit's firmware chooses towards a far device, and its transit reservation (R279). -/
opaque Config.pathRoute : PathExtra → BitVec 5 × BitVec 8

/-- The event codes of the joint-training events, in 0x0050-0x005F (R323), which the manual does not assign: 0
CHARTER_PENDING, 1 CHARTER_ACTIVE, 2 STEP_ARRIVED, 3 STEP_COMMITTED, 4 MIRROR_DONE, 5 MIRROR_RECEIVED, 6 RESTORE_DONE. -/
opaque Config.jointCode : Nat → BitVec 4

/-- The result of a FUNC whose value at an operand the manual does not state (SINPI and COSPI of an infinity, R197). -/
opaque Config.unstatedFunc : Nat → W32 → W32

end Sys2Proof
end

