-- ==== Sys2Proof/Machine/Bits.lean ====
section
/-! DEFINITION. Sparse tables, byte memories, byte strings and bit fields: the helpers every unit uses. -/

namespace Sys2Proof.Machine

/-! ## Sparse tables -/

/-- Entry k of a table, or its reset value. -/
def tget {α : Type} (d : α) : Tbl α → Nat → α
  | [], _ => d
  | (i, v) :: t, k => if i = k then v else tget d t k

/-- A table with entry k set. -/
def tset {α : Type} : Tbl α → Nat → α → Tbl α
  | [], k, v => [(k, v)]
  | (i, w) :: t, k, v => if k < i then (k, v) :: (i, w) :: t else if k = i then (k, v) :: t else (i, w) :: tset t k v

/-- A table with entry k changed. -/
def tmod {α : Type} (d : α) (t : Tbl α) (k : Nat) (f : α → α) : Tbl α := tset t k (f (tget d t k))

/-- A table without the entries whose index satisfies p: they read as the reset value. -/
def tdrop {α : Type} (p : Nat → Bool) (t : Tbl α) : Tbl α := t.filter (fun e => !p e.1)

/-! ## Byte memories: an unlisted byte reads as zero -/

/-- One byte of a memory. -/
def mget (m : Mem) (a : Nat) : Byte := tget 0 m a

/-- A memory with one byte written; writing zero removes the entry. -/
def mset : Mem → Nat → Byte → Mem
  | [], a, v => if v = 0 then [] else [(a, v)]
  | (i, w) :: t, a, v =>
    if a < i then (if v = 0 then (i, w) :: t else (a, v) :: (i, w) :: t)
    else if a = i then (if v = 0 then t else (a, v) :: t)
    else (i, w) :: mset t a v

/-- A memory with a byte string written from an address. -/
def mwrite (m : Mem) : Nat → Bytes → Mem
  | _, [] => m
  | a, b :: bs => mwrite (mset m a b) (a + 1) bs

/-- The n bytes of a memory from an address. -/
def mread (m : Mem) (a n : Nat) : Bytes := (List.range n).map (fun i => mget m (a + i))

/-- A memory with the n bytes from an address set to zero. -/
def mzero (m : Mem) (a n : Nat) : Mem := m.filter (fun c => !(a ≤ c.1 && c.1 < a + n))

/-- The canonical form: addresses strictly rise, and no listed byte is zero. -/
def Memory.wf : Mem → Bool
  | [] => true
  | (_, v) :: [] => v != 0
  | (a, v) :: (b, w) :: t => v != 0 && (a < b) && Memory.wf ((b, w) :: t)

/-! ## Byte strings -/

/-- A byte string as a little-endian number (R9: memory and tile payloads). -/
def natLE (b : Bytes) : Nat := b.foldr (fun x n => x.toNat + 256 * n) 0
/-- A byte string as a big-endian number (R9: the wire). -/
def natBE (b : Bytes) : Nat := b.foldl (fun n x => n * 256 + x.toNat) 0
/-- The k bytes of a number, little-endian. -/
def bytesLE : Nat → Nat → Bytes
  | 0, _ => []
  | k + 1, n => BitVec.ofNat 8 n :: bytesLE k (n / 256)
/-- The k bytes of a number, big-endian. -/
def bytesBE (k n : Nat) : Bytes := (bytesLE k n).reverse
/-- The bytes [off, off + len) of a byte string. -/
def slice (b : Bytes) (off len : Nat) : Bytes := (b.drop off).take len
def be (b : Bytes) (off len : Nat) : Nat := natBE (slice b off len)
def le (b : Bytes) (off len : Nat) : Nat := natLE (slice b off len)
/-- A digest as 64 bytes in network order, and back. -/
def digestBytes (d : Digest) : Bytes := bytesBE 64 d.toNat
def digestOf (b : Bytes) : Digest := BitVec.ofNat 512 (natBE b)
/-- A byte string filled with zeros to a length. -/
def padTo (n : Nat) (b : Bytes) : Bytes := b.take n ++ List.replicate (n - b.length) 0
/-- The ASCII bytes of a domain string. -/
def ascii (t : String) : Bytes := t.toList.map (fun c => BitVec.ofNat 8 c.toNat)
/-- Whether every byte is zero. -/
def allZero (b : Bytes) : Bool := b.all (· == 0)

/-- Little-endian number of n bytes in a memory. -/
def mnum (m : Mem) (a n : Nat) : Nat := natLE (mread m a n)

/-! ## Bit fields -/

/-- The field [hi:lo] of a number. -/
def nbits (n hi lo : Nat) : Nat := n / 2 ^ lo % 2 ^ (hi + 1 - lo)
/-- The field [hi:lo] of a word. -/
def fld {w : Nat} (x : BitVec w) (hi lo : Nat) : Nat := nbits x.toNat hi lo
/-- One bit of a word. -/
def bit {w : Nat} (x : BitVec w) (i : Nat) : Bool := x.getLsbD i
/-- One bit of a number. -/
def nbit (n i : Nat) : Bool := n.testBit i
/-- A word with the field [hi:lo] replaced. -/
def setFld {w : Nat} (x : BitVec w) (hi lo v : Nat) : BitVec w :=
  BitVec.ofNat w (x.toNat - nbits x.toNat hi lo * 2 ^ lo + v % 2 ^ (hi + 1 - lo) * 2 ^ lo)
/-- A word with one bit set or cleared. -/
def setBit {w : Nat} (x : BitVec w) (i : Nat) (b : Bool) : BitVec w :=
  if b then x ||| BitVec.ofNat w (2 ^ i) else x &&& ~~~ BitVec.ofNat w (2 ^ i)
/-- How many bits of the low n are set. -/
def popcount (n x : Nat) : Nat := (List.range n).foldl (fun c i => if x.testBit i then c + 1 else c) 0
/-- The low w bits of a number as a two's-complement integer. -/
def signed (w n : Nat) : Int := (BitVec.ofNat w n).toInt
/-- The bits of an integer in w-bit two's complement. -/
def ofInt (w : Nat) (i : Int) : Nat := (BitVec.ofInt w i).toNat
/-- Round up division. -/
def ceilDiv (a b : Nat) : Nat := (a + b - 1) / b
def natMin (a b : Nat) : Nat := if a ≤ b then a else b
def natMax (a b : Nat) : Nat := if a ≤ b then b else a

/-! ## CRC-32C -/

/-- One bit step of CRC-32C (reflected polynomial 0x82F63B78). -/
def crcBit (c : W32) : W32 := if c.getLsbD 0 then (c >>> 1) ^^^ 0x82F63B78 else c >>> 1
def crcByte (c : W32) (b : Byte) : W32 :=
  crcBit (crcBit (crcBit (crcBit (crcBit (crcBit (crcBit (crcBit (c ^^^ b.setWidth 32))))))))
/-- CRC-32C of a byte string (R82). -/
def crc32c (b : Bytes) : W32 := ~~~ (b.foldl crcByte 0xFFFFFFFF)

end Sys2Proof.Machine
end

