-- ==== Sys2Proof/Machine/Cert.lean ====
section
/-! DEFINITION. Private keys of P-521 from derived bytes (R62), and the management key certificate in DER (R63, R65). -/

namespace Sys2Proof.Machine

/-! ## Private keys -/

/-- The order of P-521, of the standard that R62 names (PRESUMED, log entry 114). -/
def p521Order : Nat :=
  0x1FFFFFFFFFFFFFFFFFFFFFFFFFFFFFFFFFFFFFFFFFFFFFFFFFFFFFFFFFFFFFFFFFFFA51868783BF2F966B7FCC0148F709A5D03BB5C9B8899C47AEBB6FB71E91386409
/-- A private key from derived bytes by the extra-random-bits method of FIPS 186-5 (R62): a scalar of 66 bytes. -/
def extraBitsKey (b : Bytes) : Bytes := bytesBE 66 (natBE b % (p521Order - 1) + 1)

/-! ## DER -/

def derLength (n : Nat) : Bytes :=
  if n < 128 then bytesBE 1 n else if n < 256 then 0x81 :: bytesBE 1 n else 0x82 :: bytesBE 2 n
/-- One element: tag, length, contents. -/
def der (tag : Nat) (b : Bytes) : Bytes := bytesBE 1 tag ++ derLength b.length ++ b
def derSeq (l : List Bytes) : Bytes := der 0x30 l.flatten
/-- An INTEGER that is not negative, from its big-endian bytes. -/
def derInt (b : Bytes) : Bytes :=
  let d := b.dropWhile (· == 0)
  der 0x02 (match d with | x :: _ => if x ≥ 0x80 then 0 :: d else d | [] => [0])
def derOid (l : List Nat) : Bytes := der 0x06 (l.map (BitVec.ofNat 8 ·))
/-- A Name of one attribute a set: object identifier, string tag, text. -/
def derName (l : List (List Nat × Nat × String)) : Bytes :=
  derSeq (l.map (fun a => der 0x31 (derSeq [derOid a.1, der a.2.1 (ascii a.2.2)])))
/-- An extension: identifier, whether critical, the value its OCTET STRING holds. -/
def derExt (oid : List Nat) (critical : Bool) (v : Bytes) : Bytes :=
  derSeq ([derOid oid] ++ (if critical then [der 0x01 [0xFF]] else []) ++ [der 0x04 v])

/-- ecdsa-with-SHA512. -/
def ecdsaSha512 : Bytes := derSeq [derOid [0x2A, 0x86, 0x48, 0xCE, 0x3D, 0x04, 0x03, 0x04]]
/-- A hexadecimal digit; R64 does not say in which case its digits are, the model takes capitals (log entry 114). -/
def serialDigit (n : Nat) : Char := Char.ofNat (if n < 10 then 48 + n else 55 + n)
/-- The device serial in 16 hexadecimal digits (R64). -/
def serialText (serial : W64) : String := String.ofList ((List.range 16).map (fun i => serialDigit (serial.toNat / 16 ^ (15 - i) % 16)))

/-! ## The certificate of R65 -/

/-- The subject: serialNumber as the identity certificate, and the common name. -/
def mgmtSubject (serial : W64) : Bytes :=
  derName [([0x55, 0x04, 0x05], 0x13, serialText serial), ([0x55, 0x04, 0x03], 0x0C, "HKZ-4820 management")]
/-- id-ecPublicKey with secp521r1, and the point. -/
def mgmtKeyInfo (point : Bytes) : Bytes :=
  derSeq [derSeq [derOid [0x2A, 0x86, 0x48, 0xCE, 0x3D, 0x02, 0x01], derOid [0x2B, 0x81, 0x04, 0x00, 0x23]], der 0x03 (0 :: point)]
/-- keyUsage digitalSignature and keyAgreement; basicConstraints with cA false; 2.25.48204820.1 with the report's digest. -/
def mgmtExtensions (digest : Digest) : Bytes :=
  der 0xA3 (derSeq [
    derExt [0x55, 0x1D, 0x0F] true (der 0x03 [3, 0x88]),
    derExt [0x55, 0x1D, 0x13] true (derSeq []),
    derExt [0x69, 0x96, 0xFE, 0x98, 0x14, 0x01] false (der 0x04 (digestBytes digest))])
/-- The TBSCertificate: its issuer is the subject of the identity certificate, its serialNumber the owner epoch before the device
serial. The strings' types and the nesting of the extension's OCTET STRING are the model's (log entry 114). -/
def mgmtTbs (idCert : Bytes) (epoch : Nat) (serial : W64) (point : Bytes) (digest : Digest) : Bytes :=
  derSeq [der 0xA0 (derInt [2]), derInt (bytesBE 1 epoch ++ bytesBE 8 serial.toNat), ecdsaSha512, Config.certSubject idCert,
    derSeq [der 0x18 (ascii "20000101000000Z"), der 0x18 (ascii "99991231235959Z")], mgmtSubject serial, mgmtKeyInfo point,
    mgmtExtensions digest]
/-- A certificate from its TBSCertificate and a signature r then s of 66 bytes each. -/
def certOf (tbs sig : Bytes) : Bytes :=
  derSeq [tbs, ecdsaSha512, der 0x03 (0 :: derSeq [derInt (slice sig 0 66), derInt (slice sig 66 66)])]

end Sys2Proof.Machine
end

