-- ==== Sys2Proof/Machine/Reset.lean ====
section
/-! DEFINITION. The reset value of each unit of the device, from which State.reset is made and which every sparse table
answers for an index it does not list. Each field's own reset value stands beside it in Data.lean. -/

namespace Sys2Proof.Machine

def pkgReset : Pkg := {}
def bootReset : Boot := {}
def fusesReset : Fuses := {}
def nvmReset : Nvm := {}
def jtagReset : Jtag := {}
def measureReset : Measure := {}
def timeReset : TimeUnit := {}
def grainReset : Grain := {}
def coreReset : Core := {}
def hbmReset : Hbm := {}
def contextReset : Context := {}
def partitionReset : Partition := {}
def cfgReset : CfgSets := {}
def linkReset : Link := {}
def pathRecReset : PathRec := {}
def pathsReset : Paths := {}
def hostReset : HostPort := {}
def sessionReset : Session := {}
def bulkReset : Bulk := {}
def mgmtReset : MgmtPort := {}
def ledgerReset : Ledger := {}
def queueReset : EventQueue := {}

end Sys2Proof.Machine
end

