-- ==== Sys2Proof/Machine/State.lean ====
section
/-! DEFINITION. The state of the device, its reset, and the ways a command can stop. -/

namespace Sys2Proof.Machine

/-- A fault: the manual gives the device no behaviour. -/
inductive Fault where
  /-- Raised by POWER_SAMPLE and VIN_VALID on a VIN above the absolute maximum of 14.0 V: the device is damaged (R28), and
  the manual gives a damaged device no effect. Safe: the machine stops where the hardware may do anything. -/
  | damaged
deriving DecidableEq, Repr

/-- A refusal: the model gives the command no meaning. -/
inductive Refusal where
  /-- Raised by the arm of a command whose meaning is not written. Safe: the machine stops. -/
  | notModelled (mnemonic : String)
deriving DecidableEq, Repr

/-- A mailbox request that arrived whole before a datagram ahead of it (R303): its session, the SEQ of its last datagram, itself. -/
structure HeldReq where
  sess : Nat
  seq  : Nat
  cmd  : Instr
deriving DecidableEq, Repr

structure State where
  pkg      : Pkg             -- supply, clocks, sensors, sideband lands (chapter 1)
  boot     : Boot            -- start-up sequence (chapter 2)
  fuses    : Fuses           -- fuses (R62, R68, R70, R410, R412)
  nvm      : Nvm             -- boot flash and embedded non-volatile memory
  mrs      : Measure         -- measurement registers and their event log (R59, R61)
  keys     : Tbl Bytes       -- key store, by key slot (R232); an unlisted slot is zeroised; reset all zeroised
  jtag     : Jtag            -- test access port (R69)
  time     : TimeUnit        -- time base, PTP, PPS (R11, R25, R299)
  cores    : Tbl Core        -- JC00-JC31 (R8)
  mem      : Mem             -- the plaintext of HBM and of the operand caches (R224); unlisted bytes read as zero
  hbm      : Hbm             -- counters, poison, atomic queues (R236-R258)
  ctxs     : Tbl Context     -- contexts 0-255 (R336)
  parts    : Tbl Partition   -- partitions P0-P15 (R328)
  cfg      : CfgSets         -- configuration sets (R330)
  links    : Tbl Link        -- LK00-LK31 (R263)
  paths    : Paths           -- forwarding tables and the paths of this device (R269, R278)
  host     : HostPort        -- host port (R293)
  sess     : Tbl Session     -- KHT sessions: 0-127 of the host port, 128 and up of the management port (R301, R402)
  heldReqs : List HeldReq    -- requests received ahead of their turn, in SEQ order (R303); reset empty
  bulk     : Tbl Bulk        -- bulk transfers, by session * 2^32 + transfer ID (R318)
  mgmt     : MgmtPort        -- management port (R401)
  ledger   : Ledger          -- the service ledger's running counters (R415)
  devQueue : EventQueue      -- device event queue, 4,096 events (R344)
  out      : List Emit       -- the model's own: what has left the device's ports, oldest first; reset empty
  free     : Nat             -- the model's own: how many free values have been drawn; reset 0
  pending  : List Instr      -- the model's own: the commands that wait, first in, first out; reset empty
deriving DecidableEq, Repr

/-- The device as manufactured, with VIN absent: every unit at its reset value, memory with nothing listed, no command
waiting. -/
def State.reset : State :=
  { pkg := pkgReset, boot := bootReset, fuses := fusesReset, nvm := nvmReset, mrs := measureReset, keys := [],
    jtag := jtagReset, time := timeReset, cores := [], mem := [], hbm := hbmReset, ctxs := [], parts := [],
    cfg := cfgReset, links := [], paths := pathsReset, host := hostReset, sess := [], heldReqs := [], bulk := [], mgmt := mgmtReset,
    ledger := ledgerReset, devQueue := queueReset, out := [], free := 0, pending := [] }

end Sys2Proof.Machine
end

