-- ==== Sys2Proof/Machine/Ops.lean ====
section
/-! DEFINITION. The operations that every family of commands shares: the units of the state, key slots, measurement,
the ledger's counters, events, datagrams, sessions, the configuration set, and the ordered checks of R15. -/

namespace Sys2Proof.Machine

/-- What a meaning answers. -/
abbrev Out := Host.Outcome State Fault Refusal

/-! ## Units of the state -/

def coreOf (s : State) (c : Nat) : Core := tget coreReset s.cores c
def setCore (s : State) (c : Nat) (k : Core) : State := { s with cores := tset s.cores c k }
def ctxOf (s : State) (c : Nat) : Context := tget contextReset s.ctxs c
def setCtx (s : State) (c : Nat) (k : Context) : State := { s with ctxs := tset s.ctxs c k }
def partOf (s : State) (p : Nat) : Partition := tget partitionReset s.parts p
def setPart (s : State) (p : Nat) (k : Partition) : State := { s with parts := tset s.parts p k }
def linkOf (s : State) (l : Nat) : Link := tget linkReset s.links l
def setLink (s : State) (l : Nat) (k : Link) : State := { s with links := tset s.links l k }
def sessOf (s : State) (n : Nat) : Session := tget sessionReset s.sess n
def setSess (s : State) (n : Nat) (k : Session) : State := { s with sess := tset s.sess n k }
def pathOf (s : State) (k : Nat) : PathRec := tget pathRecReset s.paths.recs k
def setPath (s : State) (k : Nat) (r : PathRec) : State :=
  { s with paths := { s.paths with recs := tset s.paths.recs k r } }

def setPkg (s : State) (p : Pkg) : State := { s with pkg := p }
def setBoot (s : State) (b : Boot) : State := { s with boot := b }
def emit (s : State) (e : Emit) : State := { s with out := s.out ++ [e] }

/-- Time base (R11). -/
def now (s : State) : Nat := s.time.base.toNat

/-- The firmware runs (R46): the supply is on and boot has passed control to it. -/
def fwRuns (s : State) : Bool :=
  s.pkg.supply == .on && (s.boot.phase == .firmware || s.boot.phase == .ports || s.boot.phase == .ready)
/-- The device has announced READY (R47). -/
def isReady (s : State) : Bool := s.pkg.supply == .on && s.boot.phase == .ready
/-- The ports serve attestation: the firmware's ports are up, or BOOT_HALT's recovery responder runs (R48, R56). -/
def portsUp (s : State) : Bool :=
  s.pkg.supply == .on && (s.boot.phase == .ports || s.boot.phase == .ready)
def bootHalted (s : State) : Bool := s.pkg.supply == .on && s.boot.phase == .halted

/-- A free value (DESIGN CHOICE, log entry 2): the n-th the device draws. -/
def draw (s : State) : Nat × State := (Config.freeValue s.free, { s with free := s.free + 1 })
/-- n random bytes of the entropy source. -/
def drawBytes (n : Nat) (s : State) : Bytes × State := (bytesBE n (Config.freeValue s.free), { s with free := s.free + 1 })

/-! ## Key store -/

/-- The contents of a key slot; the empty string for a zeroised slot (R232). -/
def keyOf (s : State) (slot : Nat) : Bytes := tget [] s.keys slot
def setKey (s : State) (slot : Nat) (k : Bytes) : State := { s with keys := tset s.keys slot k }
/-- Zeroise every slot whose number satisfies p. -/
def zeroKeys (p : Nat → Bool) (s : State) : State := { s with keys := tdrop p s.keys }
def zeroAllKeys (s : State) : State := { s with keys := [] }
def zeroKey (n : Nat) (s : State) : State := zeroKeys (· == n) s
/-- Fill a memory key slot from the entropy source: K_CTR, K_MAC and K_XTS, 128 bytes (R232). -/
def freshKey (slot : Nat) (s : State) : State := let (k, s) := drawBytes 128 s; setKey s slot k

/-- Slots of the model's own for the keys R62 derives: above the 1,024 numbered slots (DESIGN CHOICE, log entry 4). -/
def slotIdentity : Nat := 0x400
def slotMgmt : Nat := 0x401
def slotTitle : Nat := 0x402

/-! ## Measurement (R59, R60) -/

/-- extend(n, event_type, data), at its count limit no change; what the extend would have recorded takes effect all the same (DESIGN
CHOICE, log entry 145). -/
def mrExtend (n : Nat) (etype : W32) (data : Bytes) (s : State) : State :=
  let c := tget 0 s.mrs.count n
  if c = 0xFFFFFFFF then s else
  let d := Config.sha512 (bytesBE 4 etype.toNat ++ data)
  let v := Config.sha512 (digestBytes (tget 0 s.mrs.mr n) ++ digestBytes d)
  { s with mrs := { mr := tset s.mrs.mr n v, count := tset s.mrs.count n (c + 1),
                    log := s.mrs.log ++ [⟨n, etype, data⟩] } }

/-! ## Codes -/

def statusCode : Status → Nat
  | .ok => 0x0000 | .notAdmitted => 0x0101 | .deferred => 0x0102 | .late => 0x0103
  | .badLength => 0x0201 | .outOfRegion => 0x0202 | .badDescriptor => 0x0203
  | .fenced => 0x0301 | .staleGeneration => 0x0302 | .linkLost => 0x0303
  | .poison => 0x0401 | .tagFail => 0x0402 | .counterExhausted => 0x0403
  | .checksumFail => 0x0501 | .arrayMismatch => 0x0502 | .conflict => 0x0601
  | .denied => 0x0701 | .unresponsive => 0x0801 | .notReady => 0x0901

/-- The status of a code on the wire; a reserved code is malformed (R324). -/
def statusOf (n : Nat) : Status :=
  match [Status.ok, .notAdmitted, .deferred, .late, .badLength, .outOfRegion, .badDescriptor, .fenced,
    .staleGeneration, .linkLost, .poison, .tagFail, .counterExhausted, .checksumFail, .arrayMismatch, .conflict,
    .denied, .unresponsive, .notReady].find? (fun c => statusCode c == n) with
  | some c => c
  | none => .badDescriptor

/-- LIFECYCLE codes (R68); PROD_DEBUG is the volatile state above PROD. -/
def lifecycleCode : Lifecycle → Nat
  | .blank => 1 | .dev => 2 | .prod => 3 | .prodDebug => 4 | .retired => 5

/-! ## Configuration set (R330) -/

/-- The little-endian field of len bytes at an offset of a set. -/
def setNum (m : Mem) (off len : Nat) : Nat := mnum m off len

/-- The directory index of a section type among the n entries of the directory. -/
def secIndexFrom (m : Mem) (ty : Nat) : Nat → Nat → Option Nat
  | 0, _ => none
  | k + 1, i => if setNum m (0x20 + 16 * i) 2 = ty then some i else secIndexFrom m ty k (i + 1)
def secIndex (m : Mem) (ty : Nat) : Option Nat := secIndexFrom m ty 9 0
/-- Offset and length of a section; both 0 where the set has none. -/
def secOff (m : Mem) (ty : Nat) : Nat :=
  match secIndex m ty with | some i => setNum m (0x24 + 16 * i) 4 | none => 0
def secLen (m : Mem) (ty : Nat) : Nat :=
  match secIndex m ty with | some i => setNum m (0x28 + 16 * i) 4 | none => 0
/-- The field of len bytes at an offset of a section; 0 where the section is absent. -/
def secNum (m : Mem) (ty off len : Nat) : Nat :=
  match secIndex m ty with | some i => setNum m (setNum m (0x24 + 16 * i) 4 + off) len | none => 0

def active (s : State) : Mem := s.cfg.active

/-- PARTITIONS entry p of a set (R327). -/
def pSlices (m : Mem) (p : Nat) : Nat := secNum m 1 (64 * p + 40) 24
def pSealed (m : Mem) (p : Nat) : Nat := secNum m 1 (64 * p + 16) 24
def pCores (m : Mem) (p : Nat) : Nat := secNum m 1 (64 * p + 14) 2
def pHostShare (m : Mem) (p : Nat) : Nat := secNum m 1 (64 * p + 13) 1
def pEventRate (m : Mem) (p : Nat) : Nat := secNum m 1 (64 * p + 12) 1
def pQuota (m : Mem) (p : Nat) : Nat := secNum m 1 (64 * p + 11) 1
def pQuantum (m : Mem) (p : Nat) : Nat := secNum m 1 (64 * p + 10) 1
def pEnabledIn (m : Mem) (p : Nat) : Bool := nbit (secNum m 1 (64 * p) 1) 0
/-- Enabled by the active set and not held by R49. -/
def pEnabled (s : State) (p : Nat) : Bool := pEnabledIn (active s) p && !(partOf s p).held
/-- Link share of a partition, and the transit share (SHARES). -/
def linkShare (m : Mem) (l p : Nat) : Nat := secNum m 2 (32 * l + p) 1
/-- Reservation entry i of table t: P0-P15, then 16 for transit (R284). -/
def resvEntry (m : Mem) (t i : Nat) : BitVec 64 := BitVec.ofNat 64 (secNum m 3 (2048 * t + 8 * i) 8)
/-- A partition that R49 holds: none of its reservations, shares and claims takes effect. -/
def isHeld (s : State) (p : Nat) : Bool := p < 16 && (partOf s p).held
def resvOf (s : State) (t i : Nat) : BitVec 64 := if isHeld s t then 0 else resvEntry (active s) t i
def shareOf (s : State) (l p : Nat) : Nat := if isHeld s p then 0 else linkShare (active s) l p
def linkEnabled (m : Mem) (l : Nat) : Bool := secNum m 4 (16 * l) 1 == 1
def degradeSer (m : Mem) (l : Nat) : W32 := BitVec.ofNat 32 (secNum m 4 (16 * l + 4) 4)
def claimCount (m : Mem) : Nat := secNum m 5 0 2
def claimEntry (m : Mem) (i : Nat) : BitVec 64 := BitVec.ofNat 64 (secNum m 5 (8 + 8 * i) 8)
/-- The valid claims in force, by R49 none of a held partition's. -/
def claimsOf (s : State) : List (BitVec 64) :=
  ((List.range (claimCount (active s))).map (claimEntry (active s))).filter (fun e => bit e 0 && !isHeld s (fld e 35 32))
/-- P_limit in force, in W: 3,200 until a set is active (R1). -/
def pLimit (s : State) : Nat := if (secIndex (active s) 6).isNone then 3200 else secNum (active s) 6 0 2
/-- The coarsening level in force: during a scrub it is the one before it (R350, R407). -/
def telemetryLevel (s : State) : Nat := s.cfg.level.getD (secNum (active s) 7 0 1)
/-- A HOST_PORT setting (R423). -/
def hostSet (s : State) (off len : Nat) : Nat := secNum (active s) 8 off len
def watchdogMs (s : State) (i : Nat) : Nat := secNum (active s) 9 (4 * i) 4

/-! ## Ledger counters (R415, R416) -/

/-- Width in bits of counter Sn. -/
def ledgerWidth (n : Nat) : Nat :=
  if n = 2 ∨ n = 3 ∨ n = 4 ∨ n ≥ 15 then 64 else if n = 8 ∨ n = 9 ∨ n = 12 ∨ n = 13 ∨ n = 14 then 16 else 32

/-! ## Event queues (R344) -/

/-- Queue 0-15: the partition's; 16: device-wide; 17: the management port's. -/
def queueOf (s : State) (q : Nat) : EventQueue :=
  if q < 16 then (partOf s q).queue else if q = 16 then s.devQueue else s.mgmt.queue
def setQueue (s : State) (q : Nat) (k : EventQueue) : State :=
  if q < 16 then setPart s q { partOf s q with queue := k }
  else if q = 16 then { s with devQueue := k } else { s with mgmt := { s.mgmt with queue := k } }
def queueCap (q : Nat) : Nat := if q = 16 then 4096 else 1024

def mkEvent (s : State) (q code ctx gen : Nat) (body : Bytes) (seq : Nat) (direct : Bool) : Event :=
  { code := BitVec.ofNat 16 code, part := BitVec.ofNat 4 (if q < 16 then q else 0), deviceWide := q == 16 && !direct,
    direct := direct, ctx := BitVec.ofNat 8 ctx, gen := BitVec.ofNat 8 gen, body := body, time := s.time.base,
    qseq := BitVec.ofNat 32 seq }

/-- Post an event to a queue; a full queue discards and counts it. -/
def postTo (q code ctx gen : Nat) (body : Bytes) (s : State) : State :=
  let k := queueOf s q
  if k.items.length ≥ queueCap q then setQueue s q { k with lost := natMin (k.lost + 1) 0xFFFFFFFF }
  else setQueue s q { k with items := k.items ++ [(mkEvent s q code ctx gen body k.seq false, false, [])],
                             seq := k.seq + 1 }
/-- Post a partition event about a context. -/
def postPart (p code ctx : Nat) (body : Bytes) (s : State) : State :=
  postTo p code ctx (ctxOf s ctx).gen.toNat body s
/-- Post a device-wide event; the management port receives its own copy (R404). -/
def postDev (code : Nat) (body : Bytes) (s : State) : State := postTo 17 code 0 0 body (postTo 16 code 0 0 body s)
/-- Post an event to a queue with PARTITION set. -/
def postNaming (p q code : Nat) (body : Bytes) (s : State) : State :=
  let k := queueOf s q
  if k.items.length ≥ queueCap q then setQueue s q { k with lost := natMin (k.lost + 1) 0xFFFFFFFF }
  else setQueue s q { k with items := k.items ++ [({ mkEvent s q code 0 0 body k.seq false with part := BitVec.ofNat 4 p }, false, [])], seq := k.seq + 1 }
/-- A joint-training event of partition p to the device-wide queue, with PARTITION set (DESIGN CHOICE, log entry 7), and its copy (R404). -/
def postJoint (k p : Nat) (body : Bytes) (s : State) : State :=
  let code := 0x50 + (Config.jointCode k).toNat
  postNaming p 17 code body (postNaming p 16 code body s)
def postMgmt (code : Nat) (body : Bytes) (s : State) : State := postTo 17 code 0 0 body s

/-- Add k to a value that stays at its all-ones value: (the new value, whether it is saturated). -/
def satAdd (w v k : Nat) : Nat × Bool := if v + k ≥ 2 ^ w - 1 then (2 ^ w - 1, true) else (v + k, false)

/-- Set saturation bit b; each bit posts LEDGER_SATURATED once (R404, R415), which the ledger remembers. -/
def saturate (b : Nat) (s : State) : State :=
  let s := { s with ledger := { s.ledger with saturated := setBit s.ledger.saturated b true } }
  if bit s.ledger.satPosted b then s
  else postMgmt 0x0073 [BitVec.ofNat 8 b] { s with ledger := { s.ledger with satPosted := setBit s.ledger.satPosted b true } }

/-- Advance counter Sn by k. -/
def ledgerAdd (n k : Nat) (s : State) : State :=
  let (v, full) := satAdd (ledgerWidth n) (tget 0 s.ledger.counters n) k
  let s := { s with ledger := { s.ledger with counters := tset s.ledger.counters n v } }
  if full then saturate n s else s

/-- A full list overwrites its oldest entry and never loses its total (R417). -/
def listAdd (cap : Nat) (l : List Bytes) (e : Bytes) : List Bytes :=
  if l.length ≥ cap then l.drop 1 ++ [e] else l ++ [e]

/-- POWER_CYCLE and TIME of a list entry. -/
def stamp (s : State) : Bytes := bytesBE 4 (tget 0 s.ledger.counters 0) ++ bytesBE 8 (now s)

def ledgerRetirement (core array kind idx : Nat) (s : State) : State :=
  { s with ledger := { s.ledger with
      retirements := listAdd 1152 s.ledger.retirements (stamp s ++ (bytesBE 1 core ++ bytesBE 1 array ++ bytesBE 1 kind ++ bytesBE 1 idx)),
      retTotal := s.ledger.retTotal + 1 } }
def ledgerTrip (cause sensor reading : Nat) (s : State) : State :=
  { s with ledger := { s.ledger with
      trips := listAdd 32 s.ledger.trips (stamp s ++ (bytesBE 1 cause ++ bytesBE 1 sensor ++ bytesBE 2 reading)),
      tripTotal := s.ledger.tripTotal + 1 } }
def ledgerTitle (epoch : Nat) (key : Digest) (s : State) : State :=
  { s with ledger := { s.ledger with
      titles := listAdd 64 s.ledger.titles (stamp s ++ (bytesBE 1 epoch ++ [0, 0, 0] ++ digestBytes key)),
      titleTotal := s.ledger.titleTotal + 1 } }
def ledgerScrub (rec : Bytes) (s : State) : State :=
  { s with ledger := { s.ledger with
      scrubs := listAdd 256 s.ledger.scrubs rec, scrubTotal := s.ledger.scrubTotal + 1 } }

/-- Commit the ledger in one atomic step (R34). -/
def ledgerCommit (s : State) : State := { s with nvm := { s.nvm with ledger := s.ledger } }

/-- Add an entry to the device-wide fault log, a ring of 4,096 (R403, R427). -/
def faultLog (kind unit status part : Nat) (s : State) : State :=
  let e : FaultEntry := { cycle := tget 0 s.ledger.counters 0, time := s.time.base, kind := BitVec.ofNat 16 kind,
                          unit := BitVec.ofNat 16 unit, status := BitVec.ofNat 16 status, part := BitVec.ofNat 8 part }
  let l := s.nvm.faultLog
  { s with nvm := { s.nvm with faultLog := (if l.length ≥ 4096 then l.drop 1 else l) ++ [e] } }

/-- Set bits of ALERT_CAUSE; each rising bit posts ALERT (R42, R404). -/
def alertSet (i : Nat) (s : State) : State :=
  if bit s.pkg.alertCause i then s else
  let v := setBit s.pkg.alertCause i true
  postMgmt 0x0070 (bytesBE 2 v.toNat) { s with pkg := { s.pkg with alertCause := v } }

/-! ## Fold maps and graded capacity (R155, R66) -/

def foldOf (s : State) (core array : Nat) : FoldMap := tget {} s.nvm.fold (4 * core + array)
def cellsOfArray (f : FoldMap) : Nat :=
  if f.retired then 0 else (64 - popcount 64 f.rows.toNat) * (64 - popcount 64 f.cols.toNat)
/-- CELLS_ACTIVE: what each listed fold map takes from the 524,288 cells of the device. -/
def cellsActive (s : State) : Nat := 524288 - (s.nvm.fold.map (fun e => 4096 - cellsOfArray e.2)).sum
def linesOfArray (f : FoldMap) : Nat := if f.retired then 64 else popcount 64 f.rows.toNat + popcount 64 f.cols.toNat
def retiredLines (s : State) : Nat := (s.nvm.fold.map (fun e => linesOfArray e.2)).sum
def capacityPermille (s : State) : Nat := cellsActive s * 1000 / 524288
/-- Stacks in service: trained (DESIGN CHOICE, log entry 144) and not taken out by R49. -/
def stackMask (s : State) : BitVec 12 := s.boot.trained &&& ~~~ s.boot.outStacks
def stackIn (s : State) (k : Nat) : Bool := bit (stackMask s) k

/-! ## Sessions and datagrams (R303, R309) -/

def bulkKey (sess id : Nat) : Nat := sess * 2 ^ 32 + id

/-- Change the run of a context's tile mover, in its core or in the core's state that a SAVE wrote. -/
def modMover (ctx core mover : Nat) (f : MovRun → MovRun) (s : State) : State :=
  let on (k : Core) : Core :=
    let m := tget {} k.movers mover
    { k with movers := if m.run.isSome then tset k.movers mover { m with run := m.run.map f } else k.movers }
  let k := coreOf s core
  if k.ctx == some ctx then setCore s core (on k)
  else
    let x := ctxOf s ctx
    if x.saved.any (fun e => e.1 == core) then setCtx s ctx { x with saved := tmod coreReset x.saved core on } else s
/-- End the descriptor a tile mover runs with a status. -/
def moverEnd (ctx core mover : Nat) (st : Status) (s : State) : State :=
  modMover ctx core mover (fun r => { r with status := some st }) s

/-- A snapshot of partition p ends (R395): interception is disarmed, the staging area and the map are released, the
shard key and any pending record are destroyed; CKPT_FAILED carries the status. -/
def snapEnd (p : Nat) (st : Status) (s : State) : State :=
  let n := (partOf s p).snap
  if n.state == .idle then s
  else postDev 0x0062 (bytesBE 1 p ++ bytesBE 16 n.ckpt.toNat ++ bytesBE 2 (statusCode st))
    (setPart s p { partOf s p with snap := { ({} : Snapshot) with stallNs := n.stallNs } })

/-- A closed session acknowledges no event (R309): one that the other sessions have acknowledged leaves, one that none has is sent
again. -/
def forgetReceiver (n : Nat) (k : EventQueue) : EventQueue :=
  let left (l : List Nat) : List Nat := l.filter (· != n)
  let final := match k.final, k.finalTo with
    | some e, some l => if l.contains n && (left l).isEmpty then (if k.seen.contains e.qseq.toNat then (none, none) else (some e, none)) else (some e, some (left l))
    | f, w => (f, w)
  { k with
    items := k.items.filterMap (fun x =>
      if !(x.2.1 && x.2.2.contains n) then some x
      else if !(left x.2.2).isEmpty then some (x.1, true, left x.2.2)
      else if k.seen.contains x.1.qseq.toNat then none else some (x.1, false, [])),
    final := final.1, finalTo := final.2 }
/-- Space has returned to a queue that lost events: EVENTS_LOST carries the count (R344). -/
def reportLost (q : Nat) (s : State) : State :=
  let k := queueOf s q
  if k.lost = 0 || k.items.length ≥ queueCap q then s
  else postTo q 0x0033 0 0 (bytesBE 4 k.lost) (setQueue s q { k with lost := 0 })

/-- Close session n (R309): keys zeroised, its bulk transfers complete with LINK_LOST (a push with its descriptor), its
requests' responses discarded, its bulk windows removed, a snapshot sent to it ended (R395). -/
def closeSession (n : Nat) (s : State) : State :=
  let q := sessOf s n
  if q.phase == .closed then s else
  let pushes := s.bulk.filterMap (fun e => if e.2.sess = n then e.2.push.map (fun p => (e.2.ctx, p)) else none)
  let s := pushes.foldl (fun s pm => moverEnd pm.1 pm.2.1 pm.2.2 .linkLost s) s
  let s := { s with bulk := s.bulk.filter (fun e => e.2.sess != n) }
  let s := if n < 128 then zeroKeys (fun k => k == 0x260 + 2 * n || k == 0x261 + 2 * n) s else s
  let s := setSess s n sessionReset
  let s := { s with parts := s.parts.map (fun e => (e.1, { e.2 with queue := forgetReceiver n e.2.queue })),
                    devQueue := forgetReceiver n s.devQueue, mgmt := { s.mgmt with queue := forgetReceiver n s.mgmt.queue },
                    heldReqs := s.heldReqs.filter (fun h => h.sess != n) }
  let s := (List.range 18).foldl (fun s q => reportLost q s) s
  let s := if s.cfg.lock == some n then { s with cfg := { s.cfg with lock := none } } else s
  (List.range 16).foldl (fun s p => if (partOf s p).snap.sink = n then snapEnd p .linkLost s else s) s

/-- Close every session that satisfies p. -/
def closeSessions (p : Nat → Session → Bool) (s : State) : State :=
  (s.sess.filter (fun e => p e.1 e.2 && e.2.phase != .closed)).foldl (fun s e => closeSession e.1 s) s

/-- SACK_MAP: bit n stands for SEQ rxSeq + 2 + n (R301). -/
def sackMap (r : Nat) (l : List Nat) : W32 :=
  BitVec.ofNat 32 (((List.range 32).filter (fun n => l.contains (r + 2 + n))).map (2 ^ ·)).sum
/-- The header of a datagram of session n with its TYPE, MORE, SEQ and LENGTH (R301). -/
def khtHeader (q : Session) (n kind : Nat) (more : Bool) (seq len : Nat) : BitVec 256 :=
  BitVec.ofNat 256 (2 ^ 248 + kind * 2 ^ 240 + more.toNat * 2 ^ 239 + n % 2 ^ 32 * 2 ^ 192 + seq % 2 ^ 48 * 2 ^ 144 +
    q.rxSeq % 2 ^ 48 * 2 ^ 96 + (sackMap q.rxSeq q.rxMap).toNat * 2 ^ 64 + len % 2 ^ 16 * 2 ^ 48)
/-- The device's key and salt of a session (R307, R402): of the host port's in its numbered slot, of a management session's in
the management registers. -/
def sendKeyOf (s : State) (n : Nat) : Bytes × Bytes :=
  let k := keyOf s (0x261 + 2 * n)
  let o := (sessOf s n).keys.getD []
  if n < 128 then (k.take 32, slice k 32 4) else (slice o 32 32, slice o 68 4)
/-- A datagram as it leaves (R302): the payload under a key, the header as additional data, the IV the salt and SEQ. -/
def sealWith (k : Bytes × Bytes) (h : BitVec 256) (n seq : Nat) (text : Bytes) : Emit :=
  let c := Config.gcmSeal k.1 (k.2 ++ bytesBE 8 seq) (bytesBE 32 h.toNat) text
  .sealed n h c.1 c.2
/-- A datagram under the device's key of its session. -/
def sealOf (s : State) (n kind : Nat) (more : Bool) (seq : Nat) (text : Bytes) : Emit :=
  sealWith (sendKeyOf s n) (khtHeader (sessOf s n) n kind more seq text.length) n seq text

/-- The header of a mailbox message (R311). -/
def messageHeader (op tag status ctx gen part len earliest : Nat) : Bytes :=
  bytesBE 2 op ++ bytesBE 2 tag ++ bytesBE 2 status ++ bytesBE 1 ctx ++ bytesBE 1 gen ++
    (bytesBE 1 (part * 16) ++ bytesBE 3 len ++ bytesBE 8 earliest ++ bytesBE 12 0)
/-- The header of an event (R322). -/
def eventHeader (e : Event) : Bytes :=
  bytesBE 2 e.code.toNat ++ bytesBE 1 (e.part.toNat * 16 + e.deviceWide.toNat * 8 + e.direct.toNat * 4) ++
    (bytesBE 1 e.ctx.toNat ++ bytesBE 1 e.gen.toNat ++ bytesBE 2 e.body.length ++ bytesBE 1 0 ++
     bytesBE 8 e.time.toNat ++ bytesBE 4 e.qseq.toNat ++ bytesBE 12 0)
/-- The TYPE and the bytes of a message that a session carries; none for a chunk, which is a datagram of its own. -/
def messageOf : Emit → Option (Nat × Bytes)
  | .response _ _ op tag st ctx gen part earliest body =>
    some (2, messageHeader op.toNat tag.toNat (statusCode st) ctx.toNat gen.toNat part.toNat body.length earliest ++ body)
  | .sessioned _ op body => some (2, messageHeader op.toNat 0 0 0 0 0 body.length 0 ++ body)
  | .event _ ev => some (4, eventHeader ev ++ ev.body)
  | .relay _ msg => some (6, msg)
  | _ => none
/-- VLAN_ID of a port's settings (R295, R401). -/
def vlanOf (s : State) (port : Port) : Nat := match port with | .host => hostSet s 4 2 | .mgmt => s.nvm.mgNet.vlan
/-- The peer of a session has an IPv4 address: its number, address × 2^16 + port, fits in 48 bits (R302). -/
def isV4 (q : Session) : Bool := q.peer < 2 ^ 48
/-- Bytes of a frame beside the KHT payload: Ethernet with its check and tag, IP, UDP, the KHT header and the tag (log entry 113). -/
def frameRest (s : State) (q : Session) : Nat := 18 + (if vlanOf s q.port = 0 then 0 else 4) + (if isV4 q then 20 else 40) + 8 + 48
/-- Payload bytes of a datagram at most: what a frame of DGRAM_MAX leaves (R295, R301). -/
def payloadMax (s : State) (q : Session) : Nat := natMin 9088 (q.dgram - frameRest s q)
/-- The largest chunk that fits a session's datagrams (R316). -/
def chunkSize (s : State) (q : Session) : Nat := natMin 8192 ((payloadMax s q - 32) / 64 * 64)
/-- The fragments of a message, each but the last of m bytes (R311). -/
def fragments (m : Nat) : Nat → Bytes → List Bytes
  | 0, b => [b]
  | f + 1, b => if b.length ≤ m then [b] else b.take m :: fragments m f (b.drop m)
/-- The datagrams of a message sent on a session, in SEQ order. -/
def datagramsOf (s : State) (n : Nat) (w : TxWhat) (e : Emit) : List Dgram :=
  match messageOf e with
  | some (kind, b) =>
    let m := payloadMax s (sessOf s n)
    let fs := if m = 0 then [b] else fragments m b.length b
    let last := fs.length - 1
    fs.mapIdx (fun i t => { what := w, kind := kind, more := i < last, text := t, rec_ := if i < last then none else some e })
  | none => []

/-- PCP_MAP: 0 PTP, 1 KHT control, 2 bounded bulk, 3 unbounded bulk (R295). -/
def pcp (s : State) (i : Nat) : Nat := hostSet s (0x0C + i) 1
/-- The peer pauses the priority of a class (R296). -/
def classPaused (s : State) (i : Nat) : Bool := tget 0 s.host.paused (pcp s i) > now s
/-- ns that the peer's pause of a class's priority still lasts. -/
def pauseLeft (s : State) (i : Nat) : Nat := tget 0 s.host.paused (pcp s i) - now s
/-- A port carries datagrams: the ports are up (R46), and the port's link is (R325, R401). -/
def portOpen (s : State) (port : Port) : Bool := portsUp s && (match port with | .host => s.host.up | .mgmt => s.mgmt.up)
/-- Control datagrams of a session wait for the peer: of a host-port session alone, the management port has no PFC (R296, R401). -/
def ctrlPaused (s : State) (n : Nat) : Bool := n < 128 && classPaused s 1
/-- A datagram on the session's priority of its class would wait for the peer. -/
def whatPaused (s : State) (n : Nat) (w : TxWhat) : Bool :=
  n < 128 && classPaused s (match w with
    | .bulk key => if s.bulk.any (fun e => e.1 == key && e.2.bounded) then 2 else 3
    | .shard _ _ => 3
    | _ => 1)

/-- Send a datagram on an open session: it takes the next SEQ, waits at the limit of 1,024 unacknowledged (R303) and, a control
datagram, while the peer pauses its priority (R296) or others wait in front; nothing leaves while the port is down (R325). The session ends with its sequence numbers (R304). On a
session that is not open it is discarded (R309). -/
def sendDgram (n : Nat) (d : Dgram) (s : State) : State :=
  let q := sessOf s n
  if q.phase != .opened then s
  else if q.unacked.length ≥ 1024 || !portOpen s q.port || (d.kind != 3 && (ctrlPaused s n || !q.txHold.isEmpty)) then setSess s n { q with txHold := q.txHold ++ [d] }
  else
    let x := sealWith (d.key.getD (sendKeyOf s n)) (khtHeader q n d.kind d.more q.txSeq d.text.length) n q.txSeq d.text :: d.rec_.toList
    let s := setSess s n { q with txSeq := q.txSeq + 1, unacked := q.unacked ++ [⟨q.txSeq, 0, d.what⟩] }
    let s := { s with out := s.out ++ x }
    if q.txSeq + 1 ≥ 2 ^ 48 - 1 then closeSession n s else s
def sendOn (n : Nat) (w : TxWhat) (e : Emit) (s : State) : State := (datagramsOf s n w e).foldl (fun s d => sendDgram n d s) s
/-- Warn once with SESSION_EXPIRING when SEQ has reached 2^48 - 2^20 between two states (R304). -/
def warnSeq (n : Nat) (s s' : State) : State :=
  if (sessOf s n).txSeq < 2 ^ 48 - 2 ^ 20 ∧ 2 ^ 48 - 2 ^ 20 ≤ (sessOf s' n).txSeq then
    sendOn n .plain (.event n (mkEvent s' 16 0x0041 0 0 [] 0 true)) s' else s'
/-- Send, and warn. -/
def sendDatagram (n : Nat) (w : TxWhat) (e : Emit) (s : State) : State := warnSeq n s (sendOn n w e s)
/-- A direct event on a session (R321, R322), about a context or none. -/
def sendDirect (n code : Nat) (ctx : Option Nat) (body : Bytes) (s : State) : State :=
  sendDatagram n .plain (.event n (mkEvent s 16 code (ctx.getD 0) (match ctx with | some c => (ctxOf s c).gen.toNat | none => 0) body 0 true)) s
/-- A chunk goes out under its key, behind its sub-header (R316). -/
def sendChunk (n : Nat) (w : TxWhat) (key : Bytes × Bytes) (sub : BitVec 256) (chunk : Bytes) (s : State) : State :=
  warnSeq n s (sendDgram n { what := w, kind := 3, text := bytesBE 32 sub.toNat ++ chunk, rec_ := some (.bulk n sub chunk), key := some key } s)
/-- The datagrams that a session holds go out, as far as they may (R303, R296). -/
def sendHeld (n : Nat) (s : State) : State :=
  let q := sessOf s n
  if q.txHold.isEmpty then s
  else warnSeq n s (q.txHold.foldl (fun s d => sendDgram n d s) (setSess s n { q with txHold := [] }))

/-- Sessions with a phase opened that satisfy p. -/
def openSessions (s : State) (p : Nat → Session → Bool) : List Nat :=
  (s.sess.filter (fun e => e.2.phase == .opened && p e.1 e.2)).map (·.1)

def isTenantOf (p : Nat) (q : Session) : Bool := match q.role with | .tenant t => t.toNat == p | _ => false
def isFabric (q : Session) : Bool := q.role == .fabric

/-! ## Requests (R15, R312) -/

/-- The first failed check in the order of R15. -/
def firstFailure (cs : List Check) : Option Status :=
  match (cs.filter (·.fails)).foldl (fun (b : Option Check) c =>
      match b with | none => some c | some d => if c.order < d.order then some c else some d) none with
  | some c => some c.code
  | none => none

/-- A response to a request (R311). -/
def respondAt (r : Req) (op : Nat) (st : Status) (earliest : Nat) (body : Bytes) (s : State) : State :=
  sendDatagram r.sess .plain
    (.response r.port r.sess (BitVec.ofNat 16 (op + 0x8000)) r.tag st r.ctx r.gen r.part earliest body) s
def respond (r : Req) (op : Nat) (st : Status) (body : Bytes) (s : State) : State := respondAt r op st 0 body s

/-- Whether the credential of the session or port holds a right (R6, R7, R313, R403). -/
def holds (s : State) (r : Req) (rt : Rights) : Bool :=
  let role := (sessOf s r.sess).role
  match rt with
  | .any => match role with | .tenant p => p == r.part | _ => true
  | .f => role == .fabric
  | .t => role == .tenant r.part
  | .tf => role == .tenant r.part || role == .fabric
  | .either => role == .operator || role == .titleholder
  | .o => role == .operator
  | .h => role == .titleholder

/-- The checks every mailbox request meets: READY, rights, reserved header fields, the body's length, an outstanding
REQ_TAG, 64 requests outstanding (R12, R48, R311, R312); a retired device serves attestation and the ledger only (R414);
a titleholder session at owner epoch 0 four messages (R412). -/
def headerChecks (s : State) (r : Req) (op : Nat) (rt : Rights) (lenOk : Bool) : List Check :=
  let q := sessOf s r.sess
  [ ⟨1, !isReady s && op != 0x0001, .notReady⟩,
    ⟨2, !holds s r rt, .denied⟩,
    ⟨2, s.fuses.lifecycle == .retired && op != 0x0001 && op != 0x0320, .denied⟩,
    ⟨2, q.role == .titleholder && s.fuses.ownerEpoch == 0 && !(op == 0x0001 || op == 0x0320 || op == 0x0330 || op == 0x0331), .denied⟩,
    ⟨5, r.rsvHi != 0 || r.rsvLo != 0 || r.status != 0 || r.earliest != 0, .badDescriptor⟩,
    ⟨6, !lenOk || r.bodyLen.toNat > 65504, .badLength⟩,
    ⟨8, q.busy.any (fun b => b.1 == r.tag), .conflict⟩,
    ⟨9, q.busy.length ≥ 64, .notAdmitted⟩ ]

/-- The port answers a mailbox request: its datagram belongs to an open session of that port (R302). -/
def mailboxOpen (s : State) (r : Req) : Bool :=
  portOpen s r.port && (sessOf s r.sess).phase == .opened && (sessOf s r.sess).port == r.port

/-- The SEQ numbers received in order reach as far as the received set allows (R303). -/
def rxAdvance : Nat → Nat → List Nat → Nat × List Nat
  | 0, r, l => (r, l)
  | n + 1, r, l => if l.contains (r + 1) then rxAdvance n (r + 1) (l.filter (· != r + 1)) else (r, l)
/-- An ACK datagram: SEQ 0, an empty payload and a tag (R301-R303); while the peer pauses its priority it stays due (R296). -/
def sendKhtAck (n : Nat) (s : State) : State :=
  let q := sessOf s n
  if ctrlPaused s n || !portOpen s q.port then s else
  emit (emit (setSess s n { q with rxSince := 0 }) (sealOf s n 5 false 0 [])) (.khtAck n q.rxSeq (sackMap q.rxSeq q.rxMap))
/-- The highest SEQ received. -/
def rxTop (q : Session) : Nat := q.rxMap.foldl natMax q.rxSeq
/-- A datagram is received under a SEQ; after every 16 an ACK goes out, and SESSION_EXPIRING when the peer's SEQ reaches 2^48 - 2^20
(R304). -/
def rxTake (n seq : Nat) (s : State) : State :=
  let q := sessOf s n
  let (r, l) := rxAdvance 1025 q.rxSeq (seq :: q.rxMap)
  let s := setSess s n { q with rxSeq := r, rxMap := l, rxSince := q.rxSince + 1 }
  let s := if q.rxSince + 1 ≥ 16 then sendKhtAck n s else s
  if seq ≥ 2 ^ 48 - 2 ^ 20 && rxTop q < 2 ^ 48 - 2 ^ 20 then sendOn n .plain (.event n (mkEvent s 16 0x0041 0 0 [] 0 true)) s else s

/-- As many datagrams are received in order. -/
def rxTakes (n : Nat) : Nat → State → State
  | 0, s => s
  | k + 1, s => rxTakes n k (rxTake n ((sessOf s n).rxSeq + 1) s)
/-- The state once the request's datagrams have been received in order (R303, R311); those of a request that waited for its turn have
been. -/
def taken (s : State) (r : Req) : State :=
  let q := sessOf s r.sess
  if q.turn then setSess s r.sess { q with turn := false } else rxTakes r.sess (r.frags + 1) s

/-- Whether a body has exactly n bytes, as the header's BODY_LENGTH says too. -/
def lenIs (r : Req) (body : Bytes) (n : Nat) : Bool := body.length == n && r.bodyLen.toNat == n
/-- Whether a body has at least n bytes, as the header's BODY_LENGTH says too. -/
def lenMin (r : Req) (body : Bytes) (n : Nat) : Bool := body.length ≥ n && r.bodyLen.toNat == body.length

/-- The request waits for its response (R312). -/
def setBusy (r : Req) (op : Nat) (s : State) : State :=
  let q := sessOf s r.sess
  setSess s r.sess { q with busy := q.busy ++ [(r.tag, BitVec.ofNat 16 op)] }
/-- Answer a request that waited; where its slot is gone (its session closed, or R312 answered it), nothing is sent. -/
def respondLate (r : Req) (op : Nat) (st : Status) (body : Bytes) (s : State) : State :=
  let q := sessOf s r.sess
  if q.busy.any (fun b => b.1 == r.tag && b.2.toNat == op) then
    respond r op st body (setSess s r.sess { q with busy := q.busy.filter (fun b => b.1 != r.tag) })
  else s

/-! ## Contexts as requests name them (R338) -/

/-- The context is live in the partition the request names (R338). -/
def ctxLive (s : State) (c p : Nat) : Bool := let k := ctxOf s c; k.state != .free && k.part.toNat == p

/-- In BOOT_HALT the responder on the management port refuses what it does not answer, without a session (R48, R56). -/
def haltRefuse (r : Req) (op : Nat) (s : State) : State :=
  emit s (.response .mgmt r.sess (BitVec.ofNat 16 (op + 0x8000)) r.tag .notReady r.ctx r.gen r.part 0 [])
/-- Run a request: validated by R15, refused with the first failed check's code, which the
context it names counts (R16), or carried out. -/
def request (s : State) (r : Req) (op : Nat) (rt : Rights) (lenOk : Bool) (checks : List Check) (act : State → State) :
    State :=
  if bootHalted s && r.port == .mgmt then haltRefuse r op s
  else if !mailboxOpen s r then s else
  let s := taken s r
  match firstFailure (headerChecks s r op rt lenOk ++ checks) with
  | some c =>
    let k := ctxOf s r.ctx.toNat
    respond r op c [] (if ctxLive s r.ctx.toNat r.part.toNat && k.gen == r.gen && holds s r rt then
      setCtx s r.ctx.toNat { k with refused := k.refused + 1 } else s)
  | none => act s

/-- Checks 3 and 4 of R15, and the CONFLICT column of R338, for a request that names a context. `ok` gives, for a state of
the context, the code that refuses the request there. -/
def ctxChecks (s : State) (r : Req) (ok : CtxState → Option (Nat × Status)) : List Check :=
  let k := ctxOf s r.ctx.toNat
  let live := ctxLive s r.ctx.toNat r.part.toNat
  [⟨3, !live || k.gen != r.gen, .staleGeneration⟩] ++
  (match ok k.state with
   | some (o, c) => [⟨o, true, c⟩]
   | none => [])

/-- Most requests: accepted in CREATING, ACTIVE and SUSPENDED, and FENCED afterwards (R338). -/
def ctxUsual : CtxState → Option (Nat × Status)
  | .free => none | .creating => none | .active => none | .suspended => none
  | _ => some (4, .fenced)
/-- Reads of a context's records, and its destruction: accepted while fencing and fenced too (R338). -/
def ctxReads : CtxState → Option (Nat × Status)
  | .tearing => some (4, .fenced) | .scrubbing => some (4, .fenced)
  | _ => none

def ctxCode : CtxState → Nat
  | .free => 0 | .creating => 1 | .active => 2 | .suspended => 3 | .fencing => 4 | .fenced => 5 | .tearing => 6 | .scrubbing => 7

/-- A change of a context's state, with its CONTEXT_STATE event (R336). -/
def ctxMove (c : Nat) (new_ : CtxState) (st : Status) (s : State) : State :=
  let k := ctxOf s c
  let s := setCtx s c { k with state := new_ }
  postPart k.part.toNat 0x0022 c (bytesBE 1 (ctxCode new_) ++ bytesBE 2 (statusCode st)) s

/-- The contexts of a partition that are not FREE. -/
def ctxsOf (s : State) (p : Nat) : List Nat :=
  (s.ctxs.filter (fun e => e.2.state != .free && e.2.part.toNat == p)).map (·.1)

/-- The partition that holds a core, by the active set (R326). -/
def partOfCore (s : State) (core : Nat) : Option Nat :=
  (List.range 16).find? (fun p => pEnabled s p && nbit (pCores (active s) p) (core / 2))

/-- A partition that is UNUSED or not enabled (R412, R414, R418). -/
def partIdle (s : State) (p : Nat) : Bool := !pEnabled s p || (partOf s p).state == .unused
def allIdle (s : State) : Bool := (List.range 16).all (partIdle s)

end Sys2Proof.Machine
end

