-- ==== Sys2Proof/Machine/ConfigSet.lean ====
section
/-! DEFINITION. Configuration sets: the factory default set of R424, and the putting in force of a set (R332, R59). -/

namespace Sys2Proof.Machine

/-- The nine section types with their LENGTH in the factory default set (R330, R424). -/
def defaultSections : List (Nat × Nat) :=
  [(1, 1024), (2, 1024), (3, 34816), (4, 580), (5, 8), (6, 8), (7, 8), (8, 224), (9, 32)]

/-- The section directory of sections laid out in order from an offset. -/
def dirBytes : List (Nat × Nat) → Nat → Bytes
  | [], _ => []
  | (ty, len) :: t, off => bytesLE 2 ty ++ [0, 0] ++ bytesLE 4 off ++ bytesLE 4 len ++ [0, 0, 0, 0] ++ dirBytes t (off + len)

/-- LINKS of the default set: every link ENABLED with DEGRADE_SER 10^-5 (FP32 0x3727C5AC), one accepted firmware digest, no
refused serial. -/
def defaultLinks (digest : Digest) : Bytes :=
  ((List.range 32).map (fun _ => [1, 0, 0, 0] ++ bytesLE 4 0x3727C5AC ++ List.replicate 8 0)).flatten
    ++ bytesLE 2 1 ++ digestBytes digest ++ bytesLE 2 0

/-- HOST_PORT with the defaults of R295 in the layout of R423. -/
def defaultHostPort : Bytes :=
  padTo 224 ([0, 2] ++ bytesLE 2 0 ++ bytesLE 2 0 ++ bytesLE 2 19290 ++ bytesLE 2 9216 ++ bytesLE 2 10 ++ [7, 6, 5, 3] ++ [0, 1])

/-- WATCHDOGS with the shipped defaults of R345. -/
def defaultWatchdogs : Bytes :=
  bytesLE 4 100 ++ bytesLE 4 100 ++ bytesLE 4 100 ++ bytesLE 4 10 ++ bytesLE 4 10000 ++ List.replicate 12 0

/-- The factory default set (R424), whose sections follow the directory in the order of their types. -/
def defaultSet (digest : Digest) : Mem :=
  let m := mwrite [] 0 (bytesLE 4 0x4B5A4353 ++ bytesLE 2 1 ++ bytesLE 2 9 ++ bytesLE 4 37900 ++ bytesLE 4 0 ++ [1])
  let m := mwrite m 0x20 (dirBytes defaultSections 176)
  let m := mwrite m (176 + 36864) (defaultLinks digest)
  let m := mwrite m (176 + 36864 + 588) (bytesLE 2 3200 ++ List.replicate 6 0 ++ [1])
  let m := mwrite m (176 + 36864 + 604) defaultHostPort
  mwrite m (176 + 36864 + 828) defaultWatchdogs

def setLength (m : Mem) : Nat := setNum m 0x008 4
def setSeq (m : Mem) : Nat := setNum m 0x00C 4
def setBytes (m : Mem) : Bytes := mread m 0 (setLength m)

/-- A byte of an enabled partition's entry in the shadow set that has not been written yet holds its Reset value (R327); in an entry that is
not ENABLED every field is zero (R331; DESIGN CHOICE, log entry 161). -/
def resetField (s : State) (p field value : Nat) (m : Mem) : Mem :=
  let a := secOff m 1 + 64 * p + field
  if (secIndex m 1).isSome && pEnabledIn m p && !(s.cfg.wrote.any (fun w => w.1 ≤ a && a < w.1 + w.2)) then mset m a (BitVec.ofNat 8 value) else m
/-- The shadow set with the Reset values of R327: EVENT_RATE 100, QUANTUM 4. -/
def shadowSet (s : State) : Mem :=
  (List.range 16).foldl (fun m p => resetField s p 10 4 (resetField s p 12 100 m)) s.cfg.shadow

/-- Put a set in force: it becomes the active set and its digest extends MR5 (R59, R332). -/
def activate (m : Mem) (s : State) : State :=
  mrExtend 5 0x00000020 (digestBytes (Config.sha512 (setBytes m))) { s with cfg := { s.cfg with active := m } }

/-- The bytes of a section of a set. -/
def secBytes (m : Mem) (ty : Nat) : Bytes := mread m (secOff m ty) (secLen m ty)

/-- Slice n's stack. -/
def stackOfSlice (n : Nat) : Nat := n / 16

/-- The partitions of the active set that name a slice of a stack out of service are held (R49). -/
def holdPartitions (s : State) : State :=
  (List.range 16).foldl (fun s p =>
    match (List.range 12).find? (fun k => bit s.boot.outStacks k && nbits (pSlices (active s) p) (16 * k + 15) (16 * k) != 0) with
    | some k =>
      if pEnabledIn (active s) p && !(partOf s p).held then
        faultLog 0x0041 k (statusCode .badDescriptor) p (setPart s p { partOf s p with held := true })
      else s
    | none => setPart s p { partOf s p with held := false }) s

end Sys2Proof.Machine
end

