-- ==== Sys2Proof/Machine/Boot.lean ====
section
/-! DEFINITION. Start-up, slot checks, measurement, attestation and device reset (chapter 2): rows VIN_VALID to MR_EXTEND. -/

namespace Sys2Proof.Machine

/-! ## Slots and manifests (R52, R53) -/

/-- Byte of an image source: 0 flash slot A, 1 flash slot B, 2 the image from the host port. -/
def srcByte (s : State) (src o : Nat) : Byte :=
  if src = 2 then mget s.boot.image o else mget s.nvm.flash (src * 0x04000000 + o) ^^^ 0xFF
def srcRead (s : State) (src off len : Nat) : Bytes := (List.range len).map (fun i => srcByte s src (off + i))
def srcNum (s : State) (src off len : Nat) : Nat := natBE (srcRead s src off len)

/-- The manifest's 1,576 bytes; its fields by their offsets of R53. -/
def manifestOf (s : State) (src : Nat) : Bytes := srcRead s src 0x200 1576
def mfNum (m : Bytes) (off len : Nat) : Nat := be m off len
def mfCount (m : Bytes) : Nat := mfNum m 0x006 2
def mfVersion (m : Bytes) : Nat := mfNum m 0x008 4
def mfSvn (m : Bytes) : Nat := mfNum m 0x00C 4
def mfLength (m : Bytes) : Nat := mfNum m 0x010 4
def mfKeyIndex (m : Bytes) : Nat := mfNum m 0x018 1
def mfCosign (m : Bytes) : Bool := nbit (mfNum m 0x014 4) 0
/-- Component i: TYPE, OFFSET, LENGTH, DIGEST. -/
def compType (m : Bytes) (i : Nat) : Nat := mfNum m (0x20 + 80 * i) 2
def compOff (m : Bytes) (i : Nat) : Nat := mfNum m (0x24 + 80 * i) 4
def compLen (m : Bytes) (i : Nat) : Nat := mfNum m (0x28 + 80 * i) 4
def compDigest (m : Bytes) (i : Nat) : Bytes := slice m (0x30 + 80 * i) 64
def comps (m : Bytes) : List Nat := List.range (natMin (mfCount m) 16)

/-- Check 2 of R54. A component of length zero is malformed (R13). -/
def mfWellFormed (m : Bytes) : Bool :=
  mfNum m 0x000 4 == 0x4B5A464D && mfNum m 0x004 2 == 1 && 1 ≤ mfCount m && mfCount m ≤ 16 &&
  mfSvn m ≤ 64 && mfLength m ≤ 0x04000000 && mfNum m 0x014 4 ≤ 1 && mfKeyIndex m ≤ 3 && allZero (slice m 0x019 7) &&
  (comps m).all (fun i => 1 ≤ compType m i && compType m i ≤ 5 && mfNum m (0x2C + 80 * i) 4 == 0 && 0x1000 ≤ compOff m i &&
    1 ≤ compLen m i && compOff m i + compLen m i ≤ mfLength m) &&
  (comps m).any (fun i => compOff m i + compLen m i == mfLength m) &&
  (comps m).all (fun i => (comps m).all (fun j => i == j ||
    (compType m i != compType m j && (compOff m i + compLen m i ≤ compOff m j || compOff m j + compLen m j ≤ compOff m i)))) &&
  (comps m).any (fun i => compType m i == 1) &&
  allZero (slice m (0x20 + 80 * mfCount m) (80 * (16 - mfCount m)))

/-- The seven checks of R54 on a source, in order: the cause code of the first that fails, or 0. The co-signing rule is the one this
boot began with (R413). -/
def slotCheck (s : State) (src : Nat) (xspiErr : Bool) : Nat :=
  let m := manifestOf s src
  let vkey := srcRead s src 0 133
  let ckey := srcRead s src 0x85 133
  let cosigOk := Config.ecdsaVerify ckey (slice m 0 0x5A4) (slice m 0x5A4 132)
  if xspiErr then 0x07
  else if !mfWellFormed m then 0x01
  else if Config.sha512 vkey != tget 0 s.fuses.vendorKeys (mfKeyIndex m) || bit s.fuses.revoked (mfKeyIndex m) then 0x02
  else if !Config.ecdsaVerify vkey (slice m 0 0x520) (slice m 0x520 132) then 0x03
  else if (s.boot.coRule && (!mfCosign m || Config.sha512 ckey != s.boot.coKey)) || (mfCosign m && !cosigOk) then 0x04
  else if mfSvn m < s.fuses.svn then 0x05
  else if (comps m).any (fun i => digestBytes (Config.sha512 (srcRead s src (compOff m i) (compLen m i))) != compDigest m i) then 0x06
  else 0

/-- A failed source extends MR0 with its name and cause, and BOOT_HALT reports the cause (R51, R56). DESIGN CHOICE (log entry 115):
ROM_STATUS has no place for the host port's cause; it stands in slot A's byte. -/
def slotFailure (src cause : Nat) (s : State) : State :=
  let b := s.boot
  let b := if src = 1 then { b with causeB := BitVec.ofNat 8 cause } else { b with causeA := BitVec.ofNat 8 cause }
  mrExtend 0 0x00000004 [BitVec.ofNat 8 src, BitVec.ofNat 8 cause] { s with boot := b }

def secretBytes (s : State) : Bytes := match s.fuses.secret with | some n => bytesBE 32 n | none => []
def serialBytes (s : State) : Bytes := bytesBE 8 s.fuses.serial.toNat
/-- The 80 derived bytes of R62: HKDF of the fused secret. -/
def derived (s : State) (salt : String) (info : Bytes) : Bytes := padTo 80 (Config.hkdf (ascii salt) (secretBytes s) info 80)
/-- The identity key of R62, over the serial. -/
def identityKey (s : State) : Bytes := extraBitsKey (derived s "KAZBA-IDENTITY" (serialBytes s))
/-- BOOT_HALT (R56): the recovery responder brings the management port up at 1000BASE-KX; its reports need the identity key,
which every state but BLANK has (R62, log entry 27). -/
def bootHalt (s : State) : State :=
  let s := if s.fuses.secret == none then s else setKey s slotIdentity (identityKey s)
  { s with boot := { s.boot with phase := .halted, source := 0xFF },
           mgmt := { s.mgmt with up := true, mode := 2 }, host := hostReset }

/-- A source passed R54: its manifest is the one that boots. -/
def bootFrom (src : Nat) (fallback : Bool) (s : State) : State :=
  let m := manifestOf s src
  { s with boot := { s.boot with
      phase := .checked, source := BitVec.ofNat 8 src, fallback := fallback, manifest := m,
      cosigned := mfCosign m, keyIndex := BitVec.ofNat 8 (mfKeyIndex m), fwVersion := BitVec.ofNat 32 (mfVersion m),
      fwSvn := BitVec.ofNat 32 (mfSvn m) } }

/-- Try the flash slot src, then the other (R51). -/
def bootFlash (src : Nat) (errA errB : Bool) (s : State) : State :=
  let err : Nat → Bool := fun x => if x = 0 then errA else errB
  let c := slotCheck s src (err src)
  if c = 0 then bootFrom src false s else
  let s := slotFailure src c s
  let o := 1 - src
  let c := slotCheck s o (err o)
  if c = 0 then bootFrom o true s else bootHalt (slotFailure o c s)

/-- The boot ROM starts (T0 of R46): it samples BOOTSEL and the co-signing rule, releases XSPI_RESET_N, extends MR0 with the ROM identity, the fuse
summary and the boot source, and tries the image source (R50). -/
def bootRom (s : State) : State :=
  let sel := s.pkg.bootsel
  let s := { s with pkg := { s.pkg with xspiResetN := true },
                    boot := { bootReset with romRuns := s.boot.romRuns + 1, secondLifeWait := s.boot.secondLifeWait,
                                              coRule := s.nvm.title.cosign, coKey := s.nvm.title.cosignKey } }
  let s := mrExtend 0 0x00000001 Config.romIdentity s
  let s := mrExtend 0 0x00000002 (Config.fuseSummary s.fuses) s
  let src : Byte := if sel = 0 then 0 else if sel = 1 then 1 else if sel = 2 then 2 else 0xFF
  let s := mrExtend 0 0x00000003 [src] s
  if sel = 3 then bootHalt s
  else if sel = 2 then { s with boot := { s.boot with phase := .hostBoot } }
  else bootFlash sel.toNat s.pkg.xspiErrA s.pkg.xspiErrB s

/-- The board's straps and flash, as the ROM finds them at its next start (R22), and the level of TRST_N from then on (DESIGN CHOICE,
log entry 16). -/
def setPins (p : BootPins) (s : State) : State :=
  { s with pkg := { s.pkg with bootsel := p.sel, xspiErrA := p.errA, xspiErrB := p.errB, trstN := p.trstN } }
/-- The order in which the regulators bring the internal rails up (R30). -/
def railOrder : List Rail := [.morion, .hostFurlong, .hbm, .almandine]

/-- The boot ROM starts when the rails are good and PWRGOOD and RESET_N are high (R30). -/
def tryBoot (s : State) : State :=
  if s.pkg.supply == .on && s.pkg.pwrgood && s.pkg.resetN && s.boot.phase == .stopped then bootRom s else s

/-! ## Device reset (R57) -/

/-- What both a device reset and the loss of the rails destroy: keys, measurement, contexts, partitions, sessions, links,
caches and the readable contents of HBM. Fuses, non-volatile memory, the ledger, the time base and the supply stay. A
pending activation has taken effect (R409), and both ports are down until the firmware brings them up again (R46). -/
def wipe (s : State) : State :=
  { s with
    keys := [], mrs := measureReset, mem := [], hbm := hbmReset, cores := [], ctxs := [], parts := [], cfg := cfgReset,
    links := [], paths := pathsReset, host := hostReset,
    sess := [], heldReqs := [], bulk := [], mgmt := mgmtReset,
    devQueue := queueReset,
    jtag := { s.jtag with tokJtag := none, tokMgmt := none, scope := 0, duration := 0 },
    fuses := { s.fuses with lifecycle := if s.fuses.lifecycle == .prodDebug then .prod else s.fuses.lifecycle },
    nvm := { s.nvm with activation := none, staged := none, stageSlot := none },
    boot := { bootReset with romRuns := s.boot.romRuns, secondLifeWait := s.nvm.secondLife } }

/-- A device reset (R57). It is not performed while the trip or power-fail sequence runs (R58); the sequence of R46 then
runs where RESET_N is high. -/
def deviceReset (s : State) : State := if s.pkg.supply == .on then tryBoot (wipe s) else s

/-- The rails go off: what runs on them is lost. -/
def railsLost (new_ : Supply) (s : State) : State :=
  let s := wipe s
  { s with pkg := { s.pkg with supply := new_, rails := [], xspiResetN := false, pwrLimiting := false, curLimiting := false, curBound := false,
                               throttled := 0, hotStacks := 0 },
           host := hostReset, mgmt := mgmtReset, jtag := jtagReset }
/-- The rails go off after the ledger's final commit: by a power failure (R33) or a trip (R40). -/
def railsOff (new_ : Supply) (s : State) : State := railsLost new_ (ledgerCommit { s with ledger := { s.ledger with clean := true } })

/-- A trip sequence is not complete: it takes at most 1 ms, and ignores RESET_N and PWRGOOD meanwhile (R40). -/
def inTrip (s : State) : Bool := s.pkg.supply == .tripped && now s < s.pkg.tripAt + 1000000
/-- THERMAL_TRIPS and POWER_TRIPS, by the causes. -/
def countTrip (cause : Nat) (s : State) : State :=
  let s := if nbit cause 0 then ledgerAdd 8 1 s else s
  if nbit cause 1 then ledgerAdd 9 1 s else s
/-- The last trip record with a cause added. -/
def tripJoin (cause : Nat) (l : List Bytes) : List Bytes :=
  match l.getLast? with
  | some e => l.dropLast ++ [e.take 12 ++ [e.getD 12 0 ||| BitVec.ofNat 8 cause] ++ e.drop 13]
  | none => l
/-- The trip sequence (R40): cause bit 0 thermal, bit 1 power. A trip of the other kind during it adds its cause to the record. -/
def trip (cause sensor reading : Nat) (s : State) : State :=
  if s.pkg.supply == .off then s
  else if s.pkg.supply == .tripped then
    if !inTrip s || nbit s.ledger.lastTrip.toNat (cause - 1) then s else
    let s := countTrip cause s
    let s := { s with ledger := { s.ledger with lastTrip := s.ledger.lastTrip ||| BitVec.ofNat 2 cause, trips := tripJoin cause s.ledger.trips } }
    ledgerCommit { s with pkg := { s.pkg with thermtrip := s.pkg.thermtrip || nbit cause 0 } }
  else
    let s := countTrip cause (ledgerTrip cause sensor reading s)
    let s := { s with ledger := { s.ledger with lastTrip := BitVec.ofNat 2 cause } }
    let s := railsOff .tripped s
    { s with pkg := { s.pkg with thermtrip := nbit cause 0, alertLatch := true, tripAt := now s } }

/-! ## Identity (R62, R65) -/

/-- The management key of R62. -/
def mgmtKey (s : State) : Bytes :=
  extraBitsKey (derived s "KAZBA-MGMT" (serialBytes s ++ bytesBE 1 s.fuses.ownerEpoch ++ digestBytes s.nvm.title.holder))
/-- The titleholder-bound storage key of R62. DESIGN CHOICE (log entry 116): R62 gives it no length and no form; the model keeps
the 80 derived bytes. -/
def storageKey (s : State) : Bytes := derived s "KAZBA-TITLE" (serialBytes s ++ bytesBE 1 s.fuses.ownerEpoch)
/-- The keys of R62 in the key store; in BLANK no secret is fused and there are none. -/
def deriveIdentity (s : State) : State :=
  if s.fuses.secret == none then s else
  setKey (setKey (setKey s slotIdentity (identityKey s)) slotMgmt (mgmtKey s)) slotTitle (storageKey s)

/-- Sign with the identity key under a domain string (R63). -/
def identitySign (s : State) (domain : String) (b : Bytes) : Bytes :=
  padTo 132 (Config.ecdsaSign (keyOf s slotIdentity) (ascii domain ++ b))

/-! ## The attestation report (R66) -/

/-- State code of PARTITION_SUMMARY (R328). -/
def partCode (k : Partition) : Nat :=
  let c : PartState → Nat := fun x => match x with
    | .unused => 0 | .assigned => 1 | .charter => 2 | .scrubbing => 3 | .resetting => 0
  match k.state with | .resetting => c k.before | x => c x

/-- A partition's entry of PARTITION_SUMMARY; of a held one mask and slices stay (DESIGN CHOICE, log entry 143). -/
def partSummary (s : State) (p : Nat) : Bytes :=
  let m := active s
  if !pEnabled s p then bytesBE 2 (if (partOf s p).held then pCores m p else 0) ++
    bytesBE 1 (if (partOf s p).held then popcount 192 (pSlices m p) else 0) ++ [0]
  else bytesBE 2 (pCores m p) ++ bytesBE 1 (popcount 192 (pSlices m p)) ++ bytesBE 1 (partCode (partOf s p))

/-- FLAGS of R67. -/
def reportFlags (s : State) : Nat :=
  (if s.ledger.saturated != 0 then 32 else 0) + (if s.boot.fallback then 16 else 0) + (if s.fuses.svn ≥ 64 then 8 else 0) +
  (if s.fuses.ownerEpoch ≥ 64 then 4 else 0) + (if s.boot.coRule then 2 else 0) + (if s.boot.cosigned then 1 else 0)

def debugState (s : State) : Nat :=
  match s.fuses.lifecycle with | .blank => 1 | .dev => 1 | .prodDebug => 2 | _ => 0

/-- Bytes 0x000-0x39F of the report over a nonce, for a requester's partition. DESIGN CHOICE (log entry 117): with no manifest
booted and no set active, as in BOOT_HALT, FW_MANIFEST_DIGEST and LAYOUT_DIGEST are SHA-512 of the empty string. -/
def reportBody (s : State) (nonce : Bytes) (reqPart : Nat) : Bytes :=
  bytesBE 4 0x4B5A4152 ++ bytesBE 2 1 ++ bytesBE 2 0x0424 ++ serialBytes s ++
  digestBytes (Config.sha512 (Config.pubOf (keyOf s slotIdentity))) ++ padTo 64 nonce ++ bytesBE 8 (now s) ++
  bytesBE 1 (lifecycleCode s.fuses.lifecycle) ++ bytesBE 1 (debugState s) ++ bytesBE 1 s.fuses.svn ++
  bytesBE 1 s.fuses.ownerEpoch ++ [s.boot.keyIndex, s.boot.source, BitVec.ofNat 8 reqPart, 0] ++
  bytesBE 4 (reportFlags s) ++ bytesBE 4 s.boot.fwVersion.toNat ++ bytesBE 4 s.boot.fwSvn.toNat ++ bytesBE 4 0 ++
  digestBytes (Config.sha512 s.boot.manifest) ++
  ((List.range 8).map (fun i => digestBytes (tget 0 s.mrs.mr i))).flatten ++
  ((List.range 8).map (fun i => bytesBE 4 (tget 0 s.mrs.count i))).flatten ++
  digestBytes (Config.sha512 (secBytes (active s) 1)) ++
  ((List.range 16).map (partSummary s)).flatten ++
  bytesBE 4 (cellsActive s) ++ bytesBE 2 (capacityPermille s) ++ bytesBE 2 (retiredLines s) ++
  bytesBE 2 (stackMask s).toNat ++ bytesBE 6 0

def report (s : State) (nonce : Bytes) (reqPart : Nat) : Bytes :=
  reportBody s nonce reqPart ++ identitySign s "KAZBA-ATTEST-V1" (reportBody s nonce reqPart)

/-- The event log as returned with a report: length, then type, register and data of each entry (R61; DESIGN CHOICE, log entry 5). -/
def eventLogBytes (s : State) : Bytes :=
  let b := (s.mrs.log.map (fun e => bytesBE 1 e.reg ++ bytesBE 4 e.etype.toNat ++ bytesBE 2 e.data.length ++ e.data)).flatten
  bytesBE 4 b.length ++ b

/-- At most 1,000 reports in any second (R66): none, or the earliest time at which the next can be served. -/
def reportWait (s : State) : Option Nat :=
  let l := s.time.reports.filter (fun t => now s < t + 1000000000)
  if l.length < 1000 then none else some (l.head?.getD 0 + 1000000000)
def countReport (s : State) : State :=
  { s with time := { s.time with reports := s.time.reports.filter (fun t => now s < t + 1000000000) ++ [now s] } }

/-- The identity certificate's length and the certificate, as every report and HELLO returns it (R64). -/
def idCertBytes (s : State) : Bytes := bytesBE 2 s.nvm.idCert.length ++ s.nvm.idCert
/-- The management key certificate (R65), reissued over a report with an all-zero nonce; the identity key signs its
TBSCertificate without a prefix (R63). -/
def issueMgmtCert (s : State) : State :=
  let tbs := mgmtTbs s.nvm.idCert s.fuses.ownerEpoch s.fuses.serial (Config.pubOf (keyOf s slotMgmt))
    (Config.sha512 (report s (bytesBE 64 0) 0xFF))
  { s with mgmt := { s.mgmt with cert := certOf tbs (Config.ecdsaSign (keyOf s slotIdentity) tbs) } }

/-! ## The rows -/

/-- CAUSE of the last trip record of a ledger (R40, R41); 0 with none. -/
def lastCause (g : Ledger) : W16 := BitVec.ofNat 16 (be (g.trips.getLast?.getD []) 12 1)
/-- VIN_VALID (R30): the timed power-up begins; the time base starts at zero and all volatile state with it (R11). VIN is
valid at 11.4 V (R30) and damages the device above 14.0 V (R28); a tripped device stays latched (R40). TRIP_HISTORY is read back from
the ledger, and PWR_TRIP_LAST is set where a trip ended the previous power-on (R40, R41). -/
def execVinValid (vinMv : Nat) (s : State) : Out :=
  if vinMv > 14000 then .fault .damaged
  else if vinMv < 11400 || !(s.pkg.supply == .off || s.pkg.supply == .failed) then .next s else
  let f := wipe s
  .next { f with
    pkg := { pkgReset with supply := .rising, alertCause := if s.nvm.ledger.lastTrip = 0 then 0 else 1, vinMv := vinMv, pwrgood := s.pkg.pwrgood, resetN := s.pkg.resetN,
                           bootsel := s.pkg.bootsel, xspiErrA := s.pkg.xspiErrA, xspiErrB := s.pkg.xspiErrB, trstN := s.pkg.trstN, powerUp := true,
                           tripHist := lastCause s.nvm.ledger },
    boot := { bootReset with secondLifeWait := s.nvm.secondLife },
    host := hostReset, mgmt := mgmtReset, jtag := jtagReset, time := timeReset, ledger := s.nvm.ledger }

/-- RAILS_GOOD (R30): every internal rail came up, in order, and is within tolerance. -/
def execRailsGood (s : State) : Out :=
  if s.pkg.supply == .rising then .next (tryBoot (setPkg s { s.pkg with supply := .on, rails := railOrder })) else .next s

/-- PWRGOOD_ASSERT (R30): the reference clocks are stable by then (R26). PWRGOOD is ignored while a trip sequence runs
(R40). -/
def execPwrgoodAssert (p : BootPins) (s : State) : Out :=
  if inTrip s then .next s else
  .next (tryBoot (setPins p { s with pkg := { s.pkg with pwrgood := true, refclk := 0xF, clkLost := 0 } }))

/-- RESET_N_ASSERT (R32): pulses below 2 µs are ignored; RESET_N is ignored during a trip (R40). During boot the ROM
abandons the boot (R58). -/
def execResetNAssert (ns : Nat) (s : State) : Out :=
  if ns < 2000 || inTrip s then .next s else
  let s := setPkg s { s.pkg with resetN := false }
  .next (deviceReset s)

/-- RESET_N_RELEASE (R32): the sequence of R46 runs from T0. -/
def execResetNRelease (p : BootPins) (s : State) : Out :=
  if inTrip s then .next s else
  .next (tryBoot (setPins p (setPkg s { s.pkg with resetN := true })))

/-- The components of a type, measured into a register (R59). -/
def measureComp (reg ty : Nat) (s : State) : State :=
  (comps s.boot.manifest).foldl (fun s i =>
    if compType s.boot.manifest i = ty then mrExtend reg 0x00000011 (compDigest s.boot.manifest i) s else s) s

/-- The counts of a power-up: POWER_CYCLES advances (R416), and UNCLEAN_ENDS where the power-on before ended without its final
commit (R415). -/
def countStart (s : State) : State :=
  if !s.pkg.powerUp then s else
  let s := ledgerAdd 0 1 s
  if s.ledger.clean then s else ledgerAdd 1 1 s
/-- A trip that ended the previous power-on is logged, and ALERT posted for the bit it set (R40, R404, R427). -/
def firstStart (s : State) : State :=
  if !s.pkg.powerUp then s else
  let cause := s.ledger.lastTrip.toNat
  let sensor := be (s.ledger.trips.getLast?.getD []) 13 1
  let s := if cause ≠ 0 then postMgmt 0x0070 (bytesBE 2 s.pkg.alertCause.toNat) (faultLog 0x0030 (cause * 256 + sensor) 0 0xFF s) else s
  ledgerCommit { s with pkg := { s.pkg with powerUp := false },
                        ledger := { s.ledger with lastTrip := 0, clean := false } }

/-! ## The rows of a title transfer (R412) -/

/-- The title record is rewritten under the new storage key, and the fault log is emptied. -/
def titleRewrite (t : Title) (s : State) : State := deriveIdentity { s with nvm := { s.nvm with title := t, faultLog := [] } }
/-- The title list and OWNER_EPOCH are committed, the pending record cleared, and TITLE_TRANSFERRED posted. -/
def titleRecord (t : Title) (epoch : Nat) (s : State) : State :=
  let s := { s with nvm := { s.nvm with pendTitle := none }, ledger := { s.ledger with ownerEpoch := epoch } }
  postMgmt 0x0072 (bytesBE 1 epoch) (ledgerCommit (ledgerTitle epoch t.holder s))
/-- Completes, or discards, a title transfer that a power failure cut short (R412), by what the fuses read. -/
def titleResume (s : State) : State :=
  match s.nvm.pendTitle with
  | none => deriveIdentity s
  | some (t, epoch) =>
    if s.fuses.ownerEpoch < epoch then deriveIdentity { s with nvm := { s.nvm with pendTitle := none } }
    else titleRecord t epoch (titleRewrite t s)

/-- FIRMWARE_START (R46): MR1-MR4 are extended and locked, the keys derived, and control passes to the firmware, which puts
the committed set, or the factory default set, in force (R57, R424). A host port that the ROM brought up goes down: the settings of R295
apply from now on (R310; DESIGN CHOICE, log entry 158). -/
def execFirmwareStart (s : State) : Out :=
  if s.boot.phase != .checked then .next s else
  let s := mrExtend 1 0x00000010 s.boot.manifest s
  let s := measureComp 2 1 s
  let s := measureComp 3 3 (measureComp 3 2 s)
  let s := measureComp 4 5 (measureComp 4 4 s)
  let s := { s with boot := { s.boot with phase := .firmware } }
  let s := titleResume (countStart s)
  let s := (List.range 32).foldl (fun s k => freshKey k s) s
  let s := firstStart s
  let m := match s.nvm.committed with
    | some m => m
    | none => defaultSet (Config.sha512 s.boot.manifest)
  let s := activate m { s with host := { s.host with up := false, mode := 0 } }
  let s := mrExtend 6 0x00000030 Config.fwPolicy s
  .next (issueMgmtCert s)

/-- PORTS_UP (R46): both ports answer attestation from now on. -/
def execPortsUp (s : State) : Out :=
  if s.boot.phase == .firmware then .next (setBoot s { s.boot with phase := .ports }) else .next s

/-- HBM_TRAINING_COMPLETE (R47, R49): an attempt succeeds, or is one of the three a stack has. -/
def execHbmTrainingComplete (stack : BitVec 4) (good : Bool) (s : State) : Out :=
  let k := stack.toNat
  if k ≥ 12 || !(s.boot.phase == .firmware || s.boot.phase == .ports) || bit s.boot.trained k || bit s.boot.outStacks k then .next s
  else if good then .next (setBoot s { s.boot with trained := setBit s.boot.trained k true })
  else
    let n := tget 0 s.boot.attempts k + 1
    let s := setBoot s { s.boot with attempts := tset s.boot.attempts k n }
    if n < 3 then .next s else
    let s := setBoot s { s.boot with outStacks := setBit s.boot.outStacks k true }
    .next (holdPartitions (faultLog 0x0040 k 0 0xFF (ledgerAdd 14 1 s)))

/-- DEVICE_READY (R46, R47): every stack is trained or out of service. SECOND_LIFE_DONE ends a second-life sequence (R418). -/
def execDeviceReady (s : State) : Out :=
  if s.boot.phase != .ports || s.boot.trained ||| s.boot.outStacks != 0xFFF then .next s else
  let s := setBoot s { s.boot with phase := .ready, secondLifeWait := false }
  let s := { s with ledger := { s.ledger with stackMask := stackMask s } }
  let body := [s.boot.source] ++ bytesBE 4 s.boot.fwVersion.toNat
  let done := s.nvm.secondLife && s.nvm.slDone
  let s := postDev 0x0001 body s
  let s := (openSessions s (fun _ _ => true)).foldl (fun s n => sendDirect n 0x0001 none body s) s
  let s := { s with nvm := { s.nvm with secondLife := false, slDone := false } }
  if done then
    .next (postMgmt 0x0074 (bytesBE 4 (cellsActive s) ++ bytesBE 2 (capacityPermille s) ++ bytesBE 2 (retiredLines s) ++ bytesBE 2 (stackMask s).toNat) s)
  else .next s

/-- HOST_BOOT_ATTACH_TIMEOUT (R310): the ROM tries the other 400 Gb/s attachment. Without REFCLK_HP the boot waits (R27). -/
def execHostBootAttachTimeout (s : State) : Out :=
  if s.boot.phase == .hostBoot && bit s.pkg.refclk 2 && !s.host.up then .next (setBoot s { s.boot with attach := s.boot.attach + 1 }) else .next s

/-- BOOT_OFFER_TIMER (R310): serial, MR0 and the largest image, to the all-nodes address. -/
def execBootOfferTimer (s : State) : Out :=
  if s.boot.phase == .hostBoot && bit s.pkg.refclk 2 && s.host.up then
    .next (emit s (.hello .host 0x10 (serialBytes s ++ digestBytes (tget 0 s.mrs.mr 0) ++ bytesBE 4 0x04000000)))
  else .next s

/-- The end of the run of received bytes that starts at 0, from the pieces received, looked at n times. -/
def contiguous (l : List (Nat × Nat)) : Nat → Nat → Nat
  | 0, e => e
  | n + 1, e => contiguous l n (l.foldl (fun e p => if p.1 ≤ e && e < p.1 + p.2 then p.1 + p.2 else e) e)

/-- BOOT_DATA (R310): bytes from the first sender that answered are kept and acknowledged; the image is complete when the
contiguous bytes reach its IMAGE_LENGTH, and is then checked under R54. -/
def execBootData (sender : Nat) (payload : Bytes) (s : State) : Out :=
  let off := be payload 0 4
  let len := be payload 4 2
  let data := payload.drop 6
  if s.boot.phase != .hostBoot || !bit s.pkg.refclk 2 || !s.host.up || payload.length < 6 || data.length != len || len > 8192 || off + len > 0x04000000 ||
     s.boot.sender.getD sender != sender then .next s else
  let l := s.boot.recvd ++ [(off, len)]
  let s := setBoot s { s.boot with sender := some sender, recvd := l, image := mwrite s.boot.image off data }
  let e := contiguous l l.length 0
  let s := emit s (.hello .host 0x12 (bytesBE 4 e))
  if e < 0x214 || e < srcNum s 2 0x210 4 then .next s else
  let c := slotCheck s 2 false
  if c = 0 then .next (bootFrom 2 false s) else .next (bootHalt (slotFailure 2 c s))

/-- HOST_BOOT_TIMEOUT (R51): 30 s without the image's last byte. While REFCLK_HP is lost the boot waits for it (R27). -/
def execHostBootTimeout (s : State) : Out :=
  if s.boot.phase == .hostBoot && bit s.pkg.refclk 2 then .next (bootHalt (slotFailure 2 0x07 s)) else .next s

/-- An opcode that a port's message set does not hold is refused with BAD_DESCRIPTOR (R313, R403). -/
def refuseOpcode (r : Req) (op : Nat) (s : State) : State :=
  request s r op .any true [⟨5, true, .badDescriptor⟩] id

/-- MR_EXTEND (R61): the firmware extends MR6; MR0-MR5 and MR7 are refused with DENIED, as is a register at its count
limit (R60). -/
def execMrExtend (n : BitVec 3) (etype : W32) (data : Bytes) (s : State) : Out :=
  if !fwRuns s then .next s
  else if n != 6 || tget 0 s.mrs.count 6 = 0xFFFFFFFF then .next (emit s (.fwStatus .denied))
  else .next (emit (mrExtend 6 etype data s) (.fwStatus .ok))

end Sys2Proof.Machine
end

