-- ==== Sys2Proof/Machine/CoreOps.lean ====
section
/-! DEFINITION. Operations on the units of a Jacinth core that several families share: completions, captures, grain-core
faults, regions and translation, the start of a fence. -/

namespace Sys2Proof.Machine

def grainOf (k : Core) (g : Nat) : Grain := tget grainReset k.grains g
def setGrain (s : State) (c g : Nat) (x : Grain) : State :=
  setCore s c { coreOf s c with grains := tset (coreOf s c).grains g x }
def modGrain (c g : Nat) (f : Grain → Grain) (s : State) : State := setGrain s c g (f (grainOf (coreOf s c) g))

/-! ## Descriptors (R132, R192, R250): 512 bits, little-endian -/

def descOf (b : Bytes) : BitVec 512 := BitVec.ofNat 512 (natLE b)
def dTag (d : BitVec 512) : Nat := fld d 15 8
def dOp (d : BitVec 512) : Nat := fld d 7 0

/-! ## Completions (R216) -/

/-- A completion moves the tag to DONE with its status. -/
def tagEnd (tag : Nat) (st : Status) (x : Grain) : Grain :=
  { x with tags := tset x.tags tag (.done (BitVec.ofNat 16 (statusCode st))), splitStat := tdrop (· == tag) x.splitStat,
           doneOrder := x.doneOrder.filter (· != tag) ++ [tag] }
def tagDone (c g tag : Nat) (st : Status) (s : State) : State := modGrain c g (tagEnd tag st) s

/-- The statuses of the splits that a matrix completion carries beside the descriptor's (R136). -/
def tagSplits (c g tag : Nat) (l : List Status) (s : State) : State :=
  modGrain c g (fun x => { x with splitStat := tset x.splitStat tag (l.map (fun st => BitVec.ofNat 16 (statusCode st))) }) s

/-- Splits of a matrix descriptor in a split mode (R132); none otherwise. -/
def splitCount (d : BitVec 512) : Nat :=
  if dOp d = 0x20 ∨ dOp d = 0x21 then match fld d 20 19 with | 1 => 2 | 2 => 4 | _ => 0 else 0
/-- The completion of a matrix descriptor: its status, and in a split mode that of each split (R136). -/
def matReport (c g : Nat) (d : BitVec 512) (st : Status) (sts : List Status) (s : State) : State :=
  let s := tagDone c g (dTag d) st s
  if splitCount d = 0 then s else tagSplits c g (dTag d) sts s
/-- A completion as a whole: every split ends with the descriptor's status. -/
def matEnd (c g : Nat) (d : BitVec 512) (st : Status) (s : State) : State := matReport c g d st (List.replicate (splitCount d) st) s

/-! ## Random generators (R113) -/

/-- The generators of a core's four output stages and eight vector channels take their seeds from the entropy source: when the
context is created, and when it is resumed. -/
def seedCore (c : Nat) (s : State) : State :=
  let s := (List.range 4).foldl (fun s a => let (n, s) := draw s; setCore s c { coreOf s c with rngOut := tset (coreOf s c).rngOut a (BitVec.ofNat 64 n) }) s
  (List.range 8).foldl (fun s a => let (n, s) := draw s; setCore s c { coreOf s c with rngChan := tset (coreOf s c).rngChan a (BitVec.ofNat 64 n) }) s
/-- 16 random bits of an output stage. -/
def rndOut (c a : Nat) (s : State) : Nat × State :=
  let g := tget 0 (coreOf s c).rngOut a
  ((Config.rngBits g).toNat, setCore s c { coreOf s c with rngOut := tset (coreOf s c).rngOut a (Config.rngNext g) })
/-- 16 random bits of a vector channel. -/
def rndChan (c ch : Nat) (s : State) : Nat × State :=
  let g := tget 0 (coreOf s c).rngChan ch
  ((Config.rngBits g).toNat, setCore s c { coreOf s c with rngChan := tset (coreOf s c).rngChan ch (Config.rngNext g) })

/-! ## Epochs (R220) -/

/-- A core belongs to the context (its core pairs). -/
def ctxCore (k : Context) (core : Nat) : Bool := bit k.pairs (core / 2)
def ctxCores (k : Context) : List Nat := (List.range 32).filter (ctxCore k)

/-- A context's copy of the epoch in one of its cores: in the core while it holds the context, else as SAVE stored it. -/
def epochCopy (s : State) (c core : Nat) : Nat :=
  let k := coreOf s core
  if k.ctx == some c then k.epoch.toNat else (tget coreReset (ctxOf s c).saved core).epoch.toNat
/-- The context epoch: the smallest of the copies of its cores. -/
def ctxEpoch (s : State) (c : Nat) : Nat :=
  match (ctxCores (ctxOf s c)).map (epochCopy s c) with
  | [] => 0
  | x :: t => t.foldl natMin x

/-! ## Exception captures and counters (R169, R120) -/

/-- Where an event happened, for its capture record. -/
structure Where where
  status : Status := .ok
  tensor : Nat := 0
  addr   : Nat := 0
  tag    : Nat := 0
  core   : Nat := 0
  engine : Nat := 0
  array  : Nat := 0
  split  : Nat := 0
  group  : Nat := 0
  pass   : Nat := 0
  row    : Nat := 0
  col    : Nat := 0
  block  : Nat := 0
  kco    : Nat := 0
  detail : Nat := 0

/-- The 48-byte record of R169 of an event of a context. -/
def capRecord (s : State) (ctx cause : Nat) (w : Where) : BitVec 384 :=
  BitVec.ofNat 384 (cause * 2 ^ 376 + statusCode w.status * 2 ^ 352 + w.tensor * 2 ^ 320 + now s * 2 ^ 256 + ctxEpoch s ctx * 2 ^ 224 +
    w.addr % 2 ^ 48 * 2 ^ 176 + w.tag * 2 ^ 168 + w.core * 2 ^ 163 + w.engine * 2 ^ 160 + w.array * 2 ^ 158 + w.split * 2 ^ 156 +
    w.group * 2 ^ 154 + w.pass * 2 ^ 151 + w.row * 2 ^ 144 + w.col * 2 ^ 137 + w.block * 2 ^ 129 + w.kco % 2 ^ 20 * 2 ^ 109 + w.detail)

/-- Write a record when its cause is first met since it was cleared; a later occurrence advances OVERRUN (R169). -/
def captureRec (ctx cause : Nat) (rec : BitVec 384) (s : State) : State :=
  let k := ctxOf s ctx
  let old := tget 0 k.capt cause
  if fld old 383 376 = 0 then
    postPart k.part.toNat 0x0021 ctx (bytesBE 1 cause) (setCtx s ctx { k with capt := tset k.capt cause rec })
  else setCtx s ctx { k with capt := tset k.capt cause (setFld old 351 336 (natMin (fld old 351 336 + 1) 0xFFFF)) }
def capture (ctx cause : Nat) (w : Where) (s : State) : State := captureRec ctx cause (capRecord s ctx cause w) s

/-- Advance the context's 48-bit counter of exception bit b by n; it saturates (R120). -/
def excCount (ctx b n : Nat) (s : State) : State :=
  let k := ctxOf s ctx
  setCtx s ctx { k with exc := tset k.exc b (natMin (tget 0 k.exc b + n) (2 ^ 48 - 1)) }

/-! ## Regions and translation (R229, R230) -/

def regValid (e : BitVec 128) : Bool := bit e 0
def regVBase (e : BitVec 128) : Nat := fld e 127 101 * 2 ^ 21
def regPBase (e : BitVec 128) : Nat := fld e 100 74 * 2 ^ 21
def regSize (e : BitVec 128) : Nat := fld e 73 55 * 2 ^ 21
def regSlot (e : BitVec 128) : Nat := fld e 54 45
def regSealed (e : BitVec 128) : Bool := fld e 44 43 == 1
def regZot (e : BitVec 128) : Bool := bit e 42
def regHas (e : BitVec 128) (va : Nat) : Bool := regValid e && regVBase e ≤ va && va < regVBase e + regSize e

/-- Rights bits of a region entry. -/
def rREAD : Nat := 36
def rWRITE : Nat := 37
def rATOMIC : Nat := 38
def rHOST : Nat := 39
def rDEBUG : Nat := 40
def rPRIV : Nat := 41

/-- The region entry that holds a virtual address, with its index. -/
def regionAt (k : Context) (va : Nat) : Option (Nat × BitVec 128) := k.regions.find? (fun e => regHas e.2 va)

/-- The operand-cache alias (R124): the core a device-physical address lies in. -/
def aliasBase : Nat := 0x400000000000
def isAlias (a : Nat) : Bool := aliasBase ≤ a && a < aliasBase + 32 * 0x02000000
def aliasCore (a : Nat) : Nat := (a - aliasBase) / 0x02000000
def aliasOff (a : Nat) : Nat := (a - aliasBase) % 0x02000000
def aliasAddr (core off : Nat) : Nat := aliasBase + core * 0x02000000 + off

/-- Working ranges whose WRITE is withdrawn between arrival and the decision (R372, R373): virtual base and length. -/
def bankPairs (ch : Charter) : List (Nat × Nat × Nat × Nat) :=
  (List.range 64).filterMap (fun i =>
    let e := be ch.doc (0x638 + 16 * i) 16
    if nbit e 127 then some (nbits e 126 100 * 2 ^ 21, nbits e 99 73 * 2 ^ 21, nbits e 72 54 * 2 ^ 21, nbits e 53 35 * 64) else none)
def isWorking (s : State) (p va : Nat) : Bool :=
  match (partOf s p).charter with
  | some ch => ch.active && !(partOf s p).step.wrOk && (bankPairs ch).any (fun b => b.2.1 ≤ va && va < b.2.1 + b.2.2.1)
  | none => false

/-- What an access of a context to n bytes at a virtual address needs: DENIED where a region it touches lacks a right, and
OUT_OF_REGION where a byte lies in no region or outside the operand-cache allocation (R230, R233, by the order of R15). The
alias is no region: no slot of an accumulation lies there (R253). The bytes are looked at granule by granule. -/
def accessCheck (s : State) (c : Nat) (rights : List Nat) (va n : Nat) : Status :=
  let k := ctxOf s c
  if n = 0 then .ok else
  if isAlias va then
    if !rights.contains rATOMIC && isAlias (va + n - 1) && aliasCore va == aliasCore (va + n - 1) && ctxCore k (aliasCore va) && aliasOff va + n ≤ k.ocMib * 2 ^ 20
    then .ok else .outOfRegion
  else
    let first := va / 2 ^ 21
    let last := (va + n - 1) / 2 ^ 21
    let grans := (List.range (last - first + 1)).map (fun i => if i = 0 then va else (first + i) * 2 ^ 21)
    if grans.any (fun a => match regionAt k a with
      | some (_, e) => rights.any (fun r => !bit e r) || (bit e rPRIV && !rights.contains rPRIV) ||
                       (rights.contains rWRITE && isWorking s k.part.toNat a)
      | none => false) then .denied
    else if va + n > aliasBase || grans.any (fun a => (regionAt k a).isNone) then .outOfRegion
    else .ok

/-- The physical address of a virtual address of a context; the alias passes untranslated. -/
def translate (s : State) (c : Nat) (va : Nat) : Nat :=
  if isAlias va then va else
  match regionAt (ctxOf s c) va with
  | some (_, e) => regPBase e + (va - regVBase e)
  | none => va

/-- A region whose zero-on-first-touch work is pending reads as zeros (R249). -/
def zotAt (s : State) (c va : Nat) : Bool := match regionAt (ctxOf s c) va with | some (_, e) => regZot e | none => false

/-- n bytes read by a context at a virtual address, byte by byte through the regions that hold them. -/
def vread (s : State) (c va n : Nat) : Bytes :=
  (List.range n).map (fun i => if zotAt s c (va + i) then 0 else mget s.mem (translate s c (va + i)))

/-! ## Owner sets and audiences (R89, R90, R354, R365) -/

/-- Audience i (1-5) of a charter admits an owner set; 0x00 is always admitted. -/
def audience (ch : Charter) (i : Nat) (owner : Byte) : Bool :=
  owner == 0 || nbit (be ch.doc (0x598 + 32 * (i - 1)) 32) owner.toNat
/-- The audience of a partition: only 0x00 may leave without an ACTIVE charter (R361 step 4, R367). -/
def partAudience (s : State) (p i : Nat) (owner : Byte) : Bool :=
  match (partOf s p).charter with | some ch => if ch.active then audience ch i owner else owner == 0 | none => owner == 0

/-! ## Stopping a core's engines -/

/-- The grain core and tag of every descriptor outstanding in a core, oldest first in each unit. -/
def outstandingDescs (k : Core) : List (Nat × Nat) :=
  (match k.arr.run with | some r => [(r.grain, dTag r.desc)] | none => []) ++
  [0, 1].flatMap (fun g => (tget [] k.arr.queue g).map (fun d => (g, dTag d))) ++
  k.vec.runs.map (fun e => (e.2.grain, dTag e.2.d.hdr)) ++
  [0, 1].flatMap (fun g => (tget [] k.vec.queue g).map (fun d => (g, dTag d.hdr))) ++
  [0, 1].flatMap (fun m =>
    (match (tget {} k.movers m).run with | some r => [(r.grain, dTag r.desc)] | none => []) ++
    (tget {} k.movers m).queue.map (fun e => (e.2, dTag e.1)))

/-- Retire a line of an array, or the whole array (R155), with its ledger entry (R417). -/
def retireLine (c : Nat) (e : Nat × Bool × Nat × Bool) (s : State) : State :=
  let (a, isRow, idx, all) := e
  let f := foldOf s c a
  let full := if isRow then popcount 64 f.rows.toNat ≥ 4 else popcount 64 f.cols.toNat ≥ 4
  let already := f.retired || (!all && (if isRow then bit f.rows idx else bit f.cols idx))
  if already then s else
  let whole := full || all
  let f' := if whole then { f with retired := true } else if isRow then { f with rows := setBit f.rows idx true } else { f with cols := setBit f.cols idx true }
  ledgerRetirement c a (if whole then 2 else if isRow then 0 else 1) (if whole then 0 else idx)
    { s with nvm := { s.nvm with fold := tset s.nvm.fold (4 * c + a) f' } }
/-- Groups laid out under the fold map in force are held, in the core or in a copy of it that a SAVE stored (R157). -/
def foldWaits (s : State) (c : Nat) : Bool :=
  let holds (k : Core) : Bool := k.arr.held != none || (match k.arr.run with | some r => !r.base.isEmpty | none => false)
  holds (coreOf s c) || s.ctxs.any (fun e => holds (tget coreReset e.2.saved c))
/-- A descriptor boundary of the core: the retirements decided come into force, with their ledger entries, unless groups are held
(R157). What the banks hold served the old map. -/
def foldBoundary (c : Nat) (s : State) : State :=
  let k := coreOf s c
  if foldWaits s c || k.pendFold.isEmpty then s else
  k.pendFold.foldl (fun s e => retireLine c e s) (setCore s c { k with pendFold := [], arr := { k.arr with lastStat := none } })

/-- The exception captures that a matrix descriptor writes at its completion (R171): the smallest event of each cause. The record
of a checksum mismatch carries the outcome of its split and the re-executions made. -/
def matCaptures (c : Nat) (r : MatRun) (st : Nat → Status) (s : State) : State :=
  r.capt.foldl (fun s e =>
    let sp := fld e.2.2 157 156
    let rec' := if e.1 = 0x05 then
        setFld (setFld e.2.2 367 352 (statusCode (st sp))) 79 72 (tget 0 r.reexec (sp * 256 + fld e.2.2 136 129))
      else e.2.2
    captureRec (((coreOf s c).ctx).getD 0) e.1 rec' s) s

/-- The summary registers that a vector descriptor names (R202, R209). -/
def sumRegs (d : VDesc) : List Nat :=
  if dOp d.hdr = 0x41 then (if bit d.hdr 80 then [fld d.hdr 79 76] else [])
  else (d.code.take (fld d.hdr 104 100)).filterMap (fun w => if fld w 63 56 = 0x41 then some (fld w 7 0 % 16) else none)
/-- The summary registers of a descriptor that completes with a status other than OK: VALID, VALUE 0 (R202), EXC 0, and the owner set
of the inputs it took, 0x00 where it was refused before it took any (DESIGN CHOICE, log entry 129). -/
def summFail (core grain : Nat) (d : VDesc) (owner : Byte) (s : State) : State :=
  modGrain core grain (fun y => { y with sums := (sumRegs d).foldl (fun t r => tset t r (BitVec.ofNat 86 (2 ^ 85 + owner.toNat * 2 ^ 77))) y.sums }) s
/-- The vector descriptors of a core that end unfinished: the captures of the running ones (R207), the summary registers of all. -/
def vecUnfinished (c : Nat) (v : Vector8) (s : State) : State :=
  let s := v.runs.foldl (fun s e =>
    e.2.capt.foldl (fun s q => captureRec (((coreOf s c).ctx).getD 0) q.1 q.2.2 s) (summFail c e.2.grain e.2.d e.2.owner s)) s
  [0, 1].foldl (fun s g => (tget [] v.queue g).foldl (fun s d => summFail c g d 0 s) s) s

/-- Every outstanding descriptor of a core completes with a status, and its engines stop (R160, R208, R254). The arrays
clear their groups; banks hold no descriptor. A running matrix descriptor writes its captures and its splits' statuses. -/
def stopEngines (c : Nat) (st : Status) (s : State) : State :=
  let k := coreOf s c
  let l := outstandingDescs k
  let s := match k.arr.run with
    | some r => matCaptures c r (fun _ => st) s
    | none => s
  let s := vecUnfinished c k.vec s
  let s := foldBoundary c (setCore s c { coreOf s c with arr := {}, vec := {}, movers := [] })
  let s := l.foldl (fun s e => tagDone c e.1 e.2 st s) s
  let mats := (match k.arr.run with | some r => [(r.grain, r.desc)] | none => []) ++
    [0, 1].flatMap (fun g => (tget [] k.arr.queue g).map (fun d => (g, d)))
  mats.foldl (fun s e => matEnd c e.1 e.2 st s) s

/-- The tile movers of a core's state stop, and their descriptors complete with a status. -/
def haltMovers (st : Status) (k : Core) : Core :=
  let l := [0, 1].flatMap (fun m =>
    (match (tget {} k.movers m).run with | some r => [(r.grain, dTag r.desc)] | none => []) ++
    (tget {} k.movers m).queue.map (fun e => (e.2, dTag e.1)))
  l.foldl (fun k e => { k with grains := tset k.grains e.1 (tagEnd e.2 st (grainOf k e.1)) }) { k with movers := [] }
/-- The tile movers alone stop (a fence with save, R341). -/
def stopMovers (c : Nat) (st : Status) (s : State) : State := setCore s c (haltMovers st (coreOf s c))

/-- Cores that run a context now. -/
def runningCores (s : State) (c : Nat) : List Nat := (List.range 32).filter (fun i => (coreOf s i).ctx == some c)

/-- A bulk transfer completes with BULK_DONE on its session (R321); a push with its descriptor. -/
def bulkEnd (key : Nat) (st : Status) (s : State) : State :=
  match s.bulk.find? (fun e => e.1 == key) with
  | none => s
  | some (_, b) =>
    let s := { s with bulk := s.bulk.filter (fun e => e.1 != key) }
    let s := match b.push with | some (c, m) => moverEnd b.ctx c m st s | none => s
    sendDirect b.sess 0x0040 (some b.ctx) (bytesBE 4 b.id.toNat ++ bytesBE 2 (statusCode st) ++ bytesBE 4 b.late) s
/-- Every bulk transfer that satisfies p completes with a status. -/
def bulkEndAll (p : Bulk → Bool) (st : Status) (s : State) : State :=
  (s.bulk.filter (fun e => p e.2)).foldl (fun s e => bulkEnd e.1 st s) s

/-- No further frame of a fenced context leaves, and the transfers of its cores await nothing (R341, R292). Frames
already sent stay in their windows. -/
def dropFrames (c : Nat) (s : State) : State :=
  let k := ctxOf s c
  let keep (t : TxFrame) : Bool :=
    t.src.isSome || t.eng || fld t.f.hdr 223 216 != c || fld t.f.hdr 227 224 != k.part.toNat
  let mine (key : Nat) : Bool :=
    let e := tget 0 s.paths.table key
    fld e 101 94 == c && fld e 105 102 == k.part.toNat
  { s with
    links := s.links.map (fun e => (e.1, { e.2 with bndQ := e.2.bndQ.filter keep, unbQ := e.2.unbQ.filter keep })),
    paths := { s.paths with recs := s.paths.recs.map (fun e =>
      (e.1, if mine e.1 then { e.2 with flight := e.2.flight.filter (fun x => x.2.mirror.isSome) } else e.2)) } }

/-- The contributions of a context's tile movers go no further: line adds not yet handed over stay behind (R254). -/
def cutAdds (c : Nat) (s : State) : State :=
  let mine (k : Contrib) : Bool := k.ctx == c && k.path.isNone && !k.todo.isEmpty
  { s with hbm := { s.hbm with contribs := (s.hbm.contribs.filter (fun e => !mine e.2 || e.2.added || e.2.queued != 0)).map (fun e =>
      if mine e.2 then (e.1, { e.2 with todo := [], whole := true, failed := e.2.failed <|> some .fenced }) else e) } }

/-- A fence begins (R341): the context becomes FENCING, its grain cores and engines stop, its bulk transfers complete with
FENCED. A fence with save leaves the arrays, the vector engine and the grain cores to be saved; of a state that a SAVE wrote, the
tile movers' descriptors complete too. -/
def fenceStart (c : Nat) (save : Bool) (s : State) : State :=
  let k := ctxOf s c
  if !(k.state == .creating || k.state == .active || k.state == .suspended) then s else
  let keep := save || k.switching
  let s := cutAdds c (setCtx s c { k with saveReq := keep, pushDelay := if k.switching then k.pushDelay else 0, saved := k.saved.map (fun e => (e.1, haltMovers .fenced e.2)) })
  let s := (runningCores s c).foldl (fun s i => if keep then stopMovers i .fenced s else stopEngines i .fenced s) s
  let s := bulkEndAll (fun b => b.ctx == c) .fenced s
  ctxMove c .fencing .ok (dropFrames c s)

/-- A grain-core fault (R219): the grain core stops, writes its capture, and the firmware fences the context. -/
def grainFault (c g kind pc word : Nat) (s : State) : State :=
  let k := coreOf s c
  let s := modGrain c g (fun x => { x with stopped := true, faulted := true, waiting := .none }) s
  match k.ctx with
  | none => s
  | some cx =>
    let s := capture cx 0x13 { core := c, engine := 7,
                               detail := kind * 2 ^ 88 + g * 2 ^ 87 + pc % 2 ^ 32 * 2 ^ 32 + word } s
    fenceStart cx false s

/-! ## Traps (R218) -/

/-- An array (1) or the vector engine (2) raises a trap to a grain core. With no trap vector it is discarded; while the
handler runs it waits in the queue of 8, beyond which it is counted. -/
def trapRaise (c g cause tag : Nat) (s : State) : State :=
  modGrain c g (fun x =>
    if x.trapVec = 0 then x
    else if x.inTrap then
      if x.trapQueue.length < 8 then { x with trapQueue := x.trapQueue ++ [(BitVec.ofNat 8 cause, BitVec.ofNat 8 tag)] }
      else { x with trapsLost := natMin (x.trapsLost + 1) 0xFFFF }
    else { x with arriving := x.arriving ++ [(BitVec.ofNat 8 cause, BitVec.ofNat 8 tag)] }) s

/-! ## Step arrival (R372) -/

/-- The context's grain cores have completed BARRIER 0xFE: WRITE is withdrawn from the working ranges and STEP_ARRIVED posted. -/
def stepArrive (c : Nat) (s : State) : State :=
  let k := ctxOf s c
  let p := k.part.toNat
  let q := partOf s p
  match q.charter with
  | none => s
  | some ch =>
    if !ch.active then s else
    let e := ctxEpoch s c
    let low := (ctxCores k).head?.getD 0
    let g0 := grainOf (coreOf s low) 0
    let verdict := if !audience ch 5 g0.owner then 0xFF else if natLE (mread g0.scratch 0 8) = 0 then 0 else 1
    let q := { q with step := { q.step with wrOk := false, arrived := some (BitVec.ofNat 32 e),
                                            banks := if nbit (be ch.doc 6 2) 0 && q.step.banks == .opened then .arrived else q.step.banks } }
    postJoint 2 p (bytesBE 4 e ++ bytesBE 1 verdict) (setPart s p q)

end Sys2Proof.Machine
end

