-- ==== Sys2Proof/Machine/Flags.lean ====
section
/-! DEFINITION. The exception flags that every arithmetic unit raises (R91): one bit each. How each operation sets them is computed
beside its result, in Num.lean (rounding), Adders.lean (line adds), VecOps.lean (lanes) and ArrayOps.lean (the output stage). -/

namespace Sys2Proof.Machine

/-- Exception flags, bits [12:0] of R91. -/
abbrev Exc := BitVec 13
def fINVALID : Exc := 0x0001
def fNAN_IN : Exc := 0x0002
def fINF : Exc := 0x0004
def fOVERFLOW : Exc := 0x0008
def fUNDERFLOW : Exc := 0x0010
def fFLUSH : Exc := 0x0020
def fSHED : Exc := 0x0040
def fINEXACT : Exc := 0x0080
def fSATURATE : Exc := 0x0100
def fCLIP : Exc := 0x0200
def fINDEX : Exc := 0x0400
def fCHECKSUM : Exc := 0x0800
def fSPLIT : Exc := 0x1000

end Sys2Proof.Machine
end

