-- ==== Sys2Proof/Machine/Num.lean ====
section
/-! DEFINITION. Number formats, decoding and rounding (chapter 4) and the W96 accumulator (R161-R167, R182-R184). A value
is exact, a Val; every result is rounded once. -/

namespace Sys2Proof.Machine

/-! ## Exact values -/

def vzero : Val := .fin false 0 1 0
def vint (n : Int) : Val := .fin (n < 0) n.natAbs 1 0
def vone : Val := .fin false 1 1 0
/-- A sign as a Bool. -/
def vneg : Val → Val
  | .nan c => .nan c
  | .inf s => .inf (!s)
  | .fin s n d e => .fin (!s) n d e
def vabs : Val → Val
  | .nan c => .nan c
  | .inf _ => .inf false
  | .fin _ n d e => .fin false n d e
def isNan : Val → Bool | .nan _ => true | _ => false
def isInf : Val → Bool | .inf _ => true | _ => false
def isFinite : Val → Bool | .fin .. => true | _ => false
def isZero : Val → Bool | .fin _ n _ _ => n == 0 | _ => false

/-- Signed numerators of two finite values over a common denominator and exponent. -/
def commonNum (n1 d1 : Nat) (e1 : Int) (s1 : Bool) (d2 : Nat) (e2 : Int) : Int :=
  let m := if e1 ≤ e2 then e1 else e2
  let v : Int := n1 * d2 * 2 ^ (e1 - m).toNat
  let _ := d1
  if s1 then -v else v
/-- The exact sum of two finite values; an exact zero sum of opposite signs is +0, of two negative zeros −0. -/
def finAdd (s1 : Bool) (n1 d1 : Nat) (e1 : Int) (s2 : Bool) (n2 d2 : Nat) (e2 : Int) : Val :=
  let m := if e1 ≤ e2 then e1 else e2
  let v := commonNum n1 d1 e1 s1 d2 e2 + commonNum n2 d2 e2 s2 d1 e1
  if v = 0 then .fin (s1 && s2 && n1 == 0 && n2 == 0) 0 1 0 else .fin (v < 0) v.natAbs (d1 * d2) m

/-- Comparison of two values that are no NaN. -/
def vlt (a b : Val) : Bool :=
  match a, b with
  | .inf s, .inf t => s && !t
  | .inf s, _ => s
  | _, .inf t => !t
  | .fin s1 n1 d1 e1, .fin s2 n2 d2 e2 => commonNum n1 d1 e1 s1 d2 e2 < commonNum n2 d2 e2 s2 d1 e1
  | _, _ => false
def veq (a b : Val) : Bool := !isNan a && !isNan b && !vlt a b && !vlt b a

/-- floor(log2 (n / d)) for n, d > 0. -/
def ilog2 (n d : Nat) : Int :=
  let t : Int := (n.log2 : Int) - (d.log2 : Int)
  let ge := if t ≥ 0 then d * 2 ^ t.toNat ≤ n else d ≤ n * 2 ^ (-t).toNat
  if ge then t else t - 1

/-- (n / d) × 2^e as an integer part and a remainder over the divisor answered. -/
def scaled (n d : Nat) (e : Int) : Nat × Nat × Nat :=
  let n' := if e ≥ 0 then n * 2 ^ e.toNat else n
  let d' := if e ≥ 0 then d else d * 2 ^ (-e).toNat
  (n' / d', n' % d', d')

/-- Round half away from zero to an integer (R114). -/
def roundAway (v : Val) : Int :=
  match v with
  | .fin s n d e =>
    let (q, r, d') := scaled n d e
    let q := if 2 * r ≥ d' then q + 1 else q
    if s then -(q : Int) else q
  | _ => 0

/-! ## Formats (R76, R99) -/

/-- Element width in bits by format code; 0 for a code that names no element format. -/
def fmtBits (f : Nat) : Nat :=
  match f with
  | 0x01 => 4 | 0x02 => 6 | 0x03 => 6 | 0x04 => 8 | 0x05 => 8 | 0x06 => 16 | 0x07 => 16 | 0x08 => 4 | 0x09 => 8
  | 0x0A => 32 | 0x0B => 128 | 0x0C => 32 | 0x10 => 8 | 0x11 => 1 | _ => 0
/-- Exponent bits, fraction bits and bias of a floating-point format. -/
def fmtExp (f : Nat) : Nat :=
  match f with | 0x01 => 2 | 0x02 => 3 | 0x03 => 2 | 0x04 => 4 | 0x05 => 5 | 0x06 => 5 | 0x07 => 8 | _ => 8
def fmtFrac (f : Nat) : Nat :=
  match f with | 0x01 => 1 | 0x02 => 2 | 0x03 => 3 | 0x04 => 3 | 0x05 => 2 | 0x06 => 10 | 0x07 => 7 | _ => 23
def fmtBias (f : Nat) : Nat :=
  match f with | 0x01 => 1 | 0x02 => 3 | 0x03 => 1 | 0x04 => 7 | 0x05 => 15 | 0x06 => 15 | 0x07 => 127 | _ => 127
def fmtFloat (f : Nat) : Bool := (1 ≤ f && f ≤ 7) || f == 0x0A
def fmtInt (f : Nat) : Bool := f == 0x08 || f == 0x09 || f == 0x0C
/-- Formats with an infinity. -/
def fmtHasInf (f : Nat) : Bool := f == 0x05 || f == 0x06 || f == 0x07 || f == 0x0A
def fmtScale (f : Nat) : Bool := f == 0x06 || f == 0x07 || f == 0x10
/-- Formats of 16 bits or fewer that an array multiplies, and FP32 (R98). -/
def fmtMatrix (f : Nat) : Bool := 1 ≤ f && f ≤ 0x0A
/-- Largest finite code of a floating-point format, without its sign. -/
def maxCode (f : Nat) : Nat :=
  match f with
  | 0x01 => 0x7 | 0x02 => 0x1F | 0x03 => 0x1F | 0x04 => 0x7E | 0x05 => 0x7B | 0x06 => 0x7BFF | 0x07 => 0x7F7F | _ => 0x7F7FFFFF

/-- The finite value of a magnitude code. -/
def codeVal (f : Nat) (s : Bool) (x : Nat) : Val :=
  let m := fmtFrac f
  let ef := x / 2 ^ m
  let fr := x % 2 ^ m
  if ef = 0 then .fin s fr 1 (1 - (fmtBias f : Int) - m) else .fin s (2 ^ m + fr) 1 ((ef : Int) - fmtBias f - m)

/-- Decode a floating-point element (R100, R101): its value and the flags the decode raises. Subnormals are kept. -/
def decodeFloat (f x : Nat) : Val × Exc :=
  let m := fmtFrac f
  let w := fmtBits f
  let s := nbit x (w - 1)
  let mag := x % 2 ^ (w - 1)
  let ef := mag / 2 ^ m
  let fr := mag % 2 ^ m
  let top := 2 ^ fmtExp f - 1
  if f = 0x04 && mag = 0x7F then (.nan 0, fNAN_IN)
  else if fmtHasInf f && ef = top then
    if fr = 0 then (.inf s, fINF)
    else (.nan (BitVec.ofNat 9 (fr % 2 ^ natMin 9 (m - 1))), fNAN_IN)
  else (codeVal f s mag, 0)

/-- Whether an FP32 code is a non-zero subnormal. -/
def fp32Sub (x : Nat) : Bool := x % 2 ^ 31 / 2 ^ 23 == 0 && x % 2 ^ 23 != 0
/-- Decode an FP32 value, flushing subnormals to zero of the same sign (R110). -/
def decode32 (x : Nat) : Val × Exc :=
  if fp32Sub x then (.fin (nbit x 31) 0 1 0, fFLUSH) else decodeFloat 0x0A x

/-- Decode an element of any format but W96, before its scale (R101, R102). -/
def decodeElem (f zp x : Nat) : Val × Exc :=
  if f = 0x08 then (vint (signed 4 x - signed 8 zp), 0)
  else if f = 0x09 then (vint (signed 8 x - signed 8 zp), 0)
  else if f = 0x0C then (vint (signed 32 x), 0)
  else if f = 0x11 then (vint (x % 2), 0)
  else if f = 0x0A then decode32 x
  else decodeFloat f x

/-- A scale of a trailer. -/
def decodeScale (f x : Nat) : Val :=
  if f = 0x10 then (if x = 0xFF then .nan 0 else .fin false 1 1 ((x : Int) - 127)) else (decodeFloat f x).1

/-- Round to n significant bits with an unbounded exponent: to nearest even, or stochastically by the random bits given (R112). -/
def roundSigBy (n : Nat) (rnd : Option Nat) (v : Val) : Val :=
  match v with
  | .fin s a d e =>
    if a = 0 then v else
    let k : Int := ilog2 a d - (n - 1)
    let (q, r, d') := scaled a d (-k)
    let up : Bool := match rnd with
      | some x => r * 2 ^ 16 / d' + x % 2 ^ 16 ≥ 2 ^ 16
      | none => 2 * r > d' || (2 * r == d' && q % 2 == 1)
    .fin s (if up then q + 1 else q) 1 (k + e)
  | _ => v
def roundSig (n : Nat) (v : Val) : Val := roundSigBy n none v

/-- The exact product of two finite values. -/
def finMul (s1 : Bool) (n1 d1 : Nat) (e1 : Int) (s2 : Bool) (n2 d2 : Nat) (e2 : Int) : Val :=
  .fin (s1 != s2) (n1 * n2) (d1 * d2) (e1 + e2)

/-- Apply a scale to a decoded element (R103). -/
def applyScale (sf : Nat) (r sc : Val) : Val × Exc :=
  match r, sc with
  | _, .nan c => (.nan c, fNAN_IN)
  | .nan c, _ => (.nan c, 0)
  | .inf s, .inf t => (.inf (s != t), fINF)
  | .inf s, .fin t n _ _ => if n = 0 then (.nan 4, fINVALID) else (.inf (s != t), fINF)
  | .fin s n _ _, .inf t => if n = 0 then (.nan 4, fINVALID) else (.inf (s != t), fINF)
  | .fin s n d e, .fin t m d2 e2 =>
    let p := finMul s n d e t m d2 e2
    if n = 0 || m = 0 then (.fin (s != t) 0 1 0, 0)
    else if sf = 0x10 then (p, 0)
    else let q := roundSig 11 p; (q, if veq p q then 0 else fINEXACT)

/-! ## Rounding to a format (R112, R114, R115, R421) -/

/-- The canonical NaN of a format (R116). -/
def nanCode (f : Nat) (c : BitVec 9) : Nat :=
  match f with
  | 0x0A => 0x7FC00000 ||| c.toNat
  | 0x06 => 0x7E00 ||| c.toNat
  | 0x07 => 0x7FC0 ||| (c.toNat % 64)
  | 0x05 => 0x7E ||| (c.toNat % 2)
  | 0x10 => 0xFF
  | _ => 0x7F

/-- ROUND_MODE (R111): bit 1 stochastic, bit 0 saturating. `rnd` is the element's 16 random bits. -/
def roundFloat (f mode rnd : Nat) (v : Val) : Nat × Exc :=
  let m := fmtFrac f
  let sgn : Bool → Nat := fun s => if s then 2 ^ (fmtBits f - 1) else 0
  let infCode := (2 ^ fmtExp f - 1) * 2 ^ m
  match v with
  | .nan c => if f = 0x01 || f = 0x02 || f = 0x03 then (0, fINVALID) else (nanCode f c, 0)
  | .inf s => if fmtHasInf f then (sgn s + infCode, fINF) else (sgn s + maxCode f, fINF ||| fOVERFLOW)
  | .fin s n d e =>
    if n = 0 then (sgn s, 0) else
    let emin : Int := 1 - (fmtBias f : Int)
    let top := ilog2 n d + e
    let ex := if top < emin then emin else top
    let (t, r, d') := scaled n d (e - (ex - m))
    let up := if nbit mode 1 then r * 2 ^ 16 / d' + rnd % 2 ^ 16 ≥ 2 ^ 16 else 2 * r > d' || (2 * r == d' && t % 2 == 1)
    let q := if up then t + 1 else t
    let code := if q < 2 ^ m then q else if q ≥ 2 ^ (m + 1) then (ex + 1 + fmtBias f).toNat * 2 ^ m else (ex + fmtBias f).toNat * 2 ^ m + (q - 2 ^ m)
    let maxV := codeVal f false (maxCode f)
    if vlt maxV (.fin false n d e) then
      if nbit mode 0 || !fmtHasInf f then (sgn s + maxCode f, fOVERFLOW)
      else if code > maxCode f then (sgn s + infCode, fOVERFLOW ||| fINF) else (sgn s + maxCode f, fOVERFLOW)
    else if code > maxCode f then (sgn s + maxCode f, fOVERFLOW)
    else if f = 0x0A && code < 2 ^ 23 then (sgn s, fFLUSH ||| fUNDERFLOW)
    else if code < 2 ^ m && r != 0 then (sgn s + code, fUNDERFLOW)
    else (sgn s + code, 0)

/-- Round to an FP32 target under a ROUND_MODE (R110-R112, R115): flushing looks at the magnitude rounded with an unbounded
exponent, and OVERFLOW is raised for every finite value above the largest finite one. -/
def round32Mode (mode rnd : Nat) (v : Val) : Nat × Exc :=
  match v with
  | .fin s n d e =>
    if n = 0 then roundFloat 0x0A 0 0 v else
    let big := vlt (codeVal 0x0A false (maxCode 0x0A)) (.fin false n d e)
    if big && nbit mode 0 then ((if s then 2 ^ 31 else 0) + maxCode 0x0A, fOVERFLOW) else
    let w := roundSigBy 24 (if nbit mode 1 then some rnd else none) (.fin s n d e)
    if vlt (vabs w) (.fin false 1 1 (-126)) then (if s then 2 ^ 31 else 0, fFLUSH ||| fUNDERFLOW) else
    let (c, x) := roundFloat 0x0A 0 0 w
    (c, if big then x ||| fOVERFLOW else x)
  | _ => roundFloat 0x0A 0 0 v
/-- Round to FP32 to nearest even, without saturation (R110). -/
def round32 (v : Val) : Nat × Exc := round32Mode 0 0 v

/-- Range of an integer format. -/
def intRange (f : Nat) : Int × Int :=
  if f = 0x08 then (-8, 7) else if f = 0x09 then (-128, 127) else (-(2 ^ 31), 2 ^ 31 - 1)

/-- Round to an integer code with a zero point (R114, R115). -/
def roundInt (f : Nat) (zp : Int) (v : Val) : Nat × Exc :=
  let (lo, hi) := intRange f
  let w := fmtBits f
  match v with
  | .nan _ => (ofInt w zp, fINVALID)
  | .inf s => (ofInt w (if s then lo else hi), fINF ||| fSATURATE)
  | .fin .. =>
    let q := roundAway v + zp
    if q < lo then (ofInt w lo, fSATURATE) else if q > hi then (ofInt w hi, fSATURATE) else (ofInt w q, 0)

/-- Convert an exact value to an element of any format but W96. -/
def encodeElem (f mode rnd : Nat) (zp : Int) (v : Val) : Nat × Exc :=
  if f = 0x11 then ((if isZero v then 0 else 1), 0)
  else if fmtInt f then roundInt f zp v
  else if f = 0x0A then round32Mode mode rnd v
  else roundFloat f mode rnd v

/-- Largest finite value of a scaled element target: a format's Max, 127 for INT8, 7 for INT4 (R117). -/
def scaleMax (f : Nat) : Val :=
  if f = 0x09 then vint 127 else if f = 0x08 then vint 7 else codeVal f false (maxCode f)

/-- The largest finite magnitude of a group of values; none where the group holds no finite value. -/
def amaxOf (l : List Val) : Option Val :=
  l.foldl (fun b v => if isFinite v then (match b with
    | none => some (vabs v)
    | some x => if vlt x (vabs v) then some (vabs v) else some x) else b) none

/-- The quotient of two finite values, the divisor not zero. -/
def finDiv (a b : Val) : Val :=
  match a, b with
  | .fin s n d e, .fin t m c k => .fin (s != t) (n * c) (d * m) (e - k)
  | _, _ => a

/-- The scale of a group computed on the fly (R117): its code, and its value. -/
def flyScale (sf f : Nat) (amax : Option Val) : Nat × Val :=
  match amax with
  | none => if sf = 0x10 then (127, vone) else if sf = 0x06 then (0x3C00, vone) else (0x3F80, vone)
  | some a =>
    if isZero a then (if sf = 0x10 then (127, vone) else if sf = 0x06 then (0x3C00, vone) else (0x3F80, vone)) else
    match finDiv a (scaleMax f) with
    | .fin _ n d e =>
      if sf = 0x10 then
        let t := ilog2 n d + e
        let k := if veq (.fin false n d e) (.fin false 1 1 t) then t else t + 1
        let k := if k < -127 then -127 else if k > 127 then 127 else k
        ((k + 127).toNat, .fin false 1 1 k)
      else
        let m := fmtFrac sf
        let emin : Int := 1 - (fmtBias sf : Int)
        let top := ilog2 n d + e
        let ex := if top < emin then emin else top
        let (t, r, _) := scaled n d (e - (ex - m))
        let q := if r = 0 then t else t + 1
        let code := if q < 2 ^ m then q else if q ≥ 2 ^ (m + 1) then (ex + 1 + fmtBias sf).toNat * 2 ^ m else (ex + fmtBias sf).toNat * 2 ^ m + (q - 2 ^ m)
        let code := if code > maxCode sf then maxCode sf else code
        (code, codeVal sf false code)
    | v => (127, v)

/-! ## W96 (R161-R167) -/

def gShed (g : Group) : Bool := bit g 111
def gInvalid (g : Group) : Bool := bit g 110
def gNan (g : Group) : Bool := bit g 109
def gNinf (g : Group) : Bool := bit g 108
def gPinf (g : Group) : Bool := bit g 107
def gAnchor (g : Group) : Nat := fld g 106 96
def gWindow (g : Group) : Int := signed 96 (fld g 95 0)
def gSetWin (g : Group) (anchor : Nat) (w : Int) : Group := setFld (setFld g 106 96 anchor) 95 0 (ofInt 96 w)
/-- A fresh NaN where the group holds none: its code in the window, ANCHOR 0. -/
def gMakeNan (g : Group) (code : Nat) : Group := if gNan g then g else gSetWin (setBit g 109 true) 0 code
/-- An invalid event with an engine's code (R163). -/
def gMakeInvalid (g : Group) (code : Nat) : Group := gMakeNan (setBit g 110 true) code
/-- An infinity enters, which a group that holds a NaN ignores (R163); a meeting of both is an invalid event. Answers whether it
was one. -/
def gInf (g : Group) (neg : Bool) (code : Nat) : Group × Bool :=
  if gNan g then (g, false) else
  let g := setBit g (if neg then 108 else 107) true
  if gPinf g && gNinf g then (gMakeInvalid g code, true) else (g, false)

/-- window_add of R164: the sum is s × 2^e, not zero. -/
def windowAdd (g : Group) (sm : Int) (e : Int) (code : Nat) : Group × Bool :=
  if gNan g || sm = 0 then (g, false) else
  let topS : Int := (sm.natAbs.log2 : Int) + e
  let l0 : Int := (gAnchor g : Int) - 1040
  let l := if gWindow g = 0 then (if topS - 94 < -1040 then -1040 else topS - 94) else l0
  let m := if l ≤ e then l else e
  let v : Int := gWindow g * 2 ^ (l - m).toNat + sm * 2 ^ (e - m).toNat
  if v = 0 then (gSetWin g (l + 1040).toNat 0, false) else
  let topV : Int := (v.natAbs.log2 : Int) + m
  let l := if topV > l + 94 then topV - 94 else l
  if l > 1007 then gInf (setBit g 111 true) (v < 0) code else
  let q := v.natAbs / 2 ^ (l - m).toNat
  let lost := v.natAbs % 2 ^ (l - m).toNat != 0
  let kept : Int := if v < 0 then -(q : Int) else q
  (gSetWin (if lost then setBit g 111 true else g) (l + 1040).toNat kept, false)

/-- The value a group holds (R167). -/
def groupVal (g : Group) : Val :=
  if gNan g then .nan (BitVec.ofNat 9 (fld g 8 0))
  else if gPinf g then .inf false
  else if gNinf g then .inf true
  else .fin (gWindow g < 0) (gWindow g).natAbs 1 ((gAnchor g : Int) - 1040)

/-- Add an exact value with denominator 1 into a group, with the adding engine's invalid code. -/
def groupAdd (g : Group) (v : Val) (code : Nat) : Group × Bool :=
  match v with
  | .nan c => (gMakeNan g c.toNat, false)
  | .inf s => gInf g s code
  | .fin s n _ e => windowAdd g (if s then -(n : Int) else n) e code

/-- Conversion to W96 (R184): exact; specials go to the flag bits. -/
def toW96 (v : Val) : Group := (groupAdd 0 v 0).1

/-- The canonical form raw groups are written in (R182). -/
def canonW96 (g : Group) : Group :=
  if gNan g then gSetWin g 0 (fld g 8 0)
  else if gPinf g || gNinf g then gSetWin g 0 0
  else if gWindow g = 0 then gSetWin g 0 0 else g

/-- A malformed element is a fresh NaN with the reader's code and INVALID (R183); `x` has 128 bits. -/
def readW96 (x code : Nat) : Group × Exc :=
  let g : Group := BitVec.ofNat 112 x
  if x / 2 ^ 112 % 2 ^ 16 != 0 || (gNan g && fld g 95 9 != 0) || (gPinf g && gNinf g && !gNan g) then (gMakeInvalid 0 code, fINVALID)
  else (g, 0)

/-- W96 addition, a first (R184). Answers whether an invalid event occurred. -/
def addW96 (a b : Group) (code : Nat) : Group × Bool :=
  let (r, ev) :=
    if gNan a then (a, false)
    else if gNan b then (gMakeNan a (fld b 8 0), false)
    else
      let (r, e1) := if gPinf b then gInf a false code else (a, false)
      let (r, e2) := if gNinf b then gInf r true code else (r, false)
      let (r, e3) := windowAdd r (gWindow b) ((gAnchor b : Int) - 1040) code
      (r, e1 || e2 || e3)
  let r := if gShed b then setBit r 111 true else r
  (if gInvalid b then setBit r 110 true else r, ev)

/-! ## Vector arithmetic (R197) -/

/-- The first NaN of two operands, in element order. -/
def firstNan (a b : Val) : Option (BitVec 9) := match a, b with | .nan c, _ => some c | _, .nan c => some c | _, _ => none
def nanFlag (a b : Val) : Exc := if isNan a || isNan b then fNAN_IN else 0
def infFlag (a b : Val) : Exc := if isInf a || isInf b then fINF else 0
/-- An invalid operation of the vector engine. -/
def vInvalid : Val × Exc := (.nan 2, fINVALID)

def vAdd (a b : Val) : Val × Exc :=
  match firstNan a b with
  | some c => (.nan c, fNAN_IN)
  | none => match a, b with
    | .inf s, .inf t => if s == t then (.inf s, fINF) else (.nan 2, fINVALID ||| fINF)
    | .inf s, _ => (.inf s, fINF)
    | _, .inf t => (.inf t, fINF)
    | .fin s n d e, .fin t m c k => (finAdd s n d e t m c k, 0)
    | _, _ => vInvalid
def vMul (a b : Val) : Val × Exc :=
  match firstNan a b with
  | some c => (.nan c, fNAN_IN)
  | none => match a, b with
    | .inf s, .inf t => (.inf (s != t), fINF)
    | .inf s, .fin t n _ _ => if n = 0 then (.nan 2, fINVALID ||| fINF) else (.inf (s != t), fINF)
    | .fin s n _ _, .inf t => if n = 0 then (.nan 2, fINVALID ||| fINF) else (.inf (s != t), fINF)
    | .fin s n d e, .fin t m c k => (finMul s n d e t m c k, 0)
    | _, _ => vInvalid
/-- Division; a finite non-zero value by zero is an infinity with INF. -/
def vDiv (a b : Val) : Val × Exc :=
  match firstNan a b with
  | some c => (.nan c, fNAN_IN)
  | none => match a, b with
    | .inf _, .inf _ => (.nan 2, fINVALID ||| fINF)
    | .inf s, .fin t _ _ _ => (.inf (s != t), fINF)
    | .fin s _ _ _, .inf t => (.fin (s != t) 0 1 0, fINF)
    | .fin s n d e, .fin t m c k =>
      if m = 0 then (if n = 0 then vInvalid else (.inf (s != t), fINF)) else (finDiv (.fin s n d e) (.fin t m c k), 0)
    | _, _ => vInvalid
/-- The smaller or larger; a NaN operand gives a NaN, −0 lies below +0. -/
def vLess (a b : Val) : Bool :=
  match a, b with
  | .fin s n _ _, .fin t m _ _ => if n = 0 && m = 0 then s && !t else vlt a b
  | _, _ => vlt a b
def vMax (a b : Val) : Val × Exc :=
  match firstNan a b with
  | some c => (.nan c, fNAN_IN)
  | none => (if vLess a b then b else a, infFlag a b)
def vMin (a b : Val) : Val × Exc :=
  match firstNan a b with
  | some c => (.nan c, fNAN_IN)
  | none => (if vLess b a then b else a, infFlag a b)

/-- Integer square root by bisection on the bits from k - 1 downwards. -/
def isqrtBits (n : Nat) : Nat → Nat → Nat
  | 0, r => r
  | k + 1, r => let c := r + 2 ^ k; isqrtBits n k (if c * c ≤ n then c else r)
def isqrt (n : Nat) : Nat := isqrtBits n (n.log2 / 2 + 1) 0

/-- The square root of a positive value to 160 bits, with a last bit that stands for a lost part: it rounds as the exact
root does. -/
def finSqrt (n d : Nat) (e : Int) : Val :=
  let e' := if e % 2 = 0 then e else e - 1
  let n := if e % 2 = 0 then n else 2 * n
  let x := n * 2 ^ 320 / d
  let r := isqrt x
  .fin false (2 * r + (if r * r == x && n * 2 ^ 320 % d == 0 then 0 else 1)) 1 (e' / 2 - 161)
def vSqrt (a : Val) : Val × Exc :=
  match a with
  | .nan c => (.nan c, fNAN_IN)
  | .inf s => if s then (.nan 2, fINVALID ||| fINF) else (.inf false, fINF)
  | .fin s n d e => if n = 0 then (a, 0) else if s then vInvalid else (finSqrt n d e, 0)

/-! ## Correctly rounded functions (R197)

Each is computed in fixed point with 2^-640 as unit, and its last bit stands for the lost part: within the range of FP32
operands every result rounds as the exact value does (PRESUMED, log entry 9). -/

def fxBits : Nat := 640
def fxOne : Int := 2 ^ 640
/-- Truncated fixed-point product and quotient. -/
def fxMul (a b : Int) : Int := a * b / fxOne
/-- Σ t over n terms, where a term is the last times x over k. -/
def fxExpSum (x : Int) : Nat → Nat → Int → Int → Int
  | 0, _, _, acc => acc
  | n + 1, k, t, acc => let t' := fxMul t x / (k + 1); fxExpSum x n (k + 1) t' (acc + t')
/-- e^x for |x| ≤ 1. -/
def fxExp (x : Int) : Int := fxExpSum x 140 0 fxOne fxOne
/-- atanh z for |z| ≤ 1/3. -/
def fxAtanhSum (z2 : Int) : Nat → Nat → Int → Int → Int
  | 0, _, _, acc => acc
  | n + 1, k, t, acc => let t' := fxMul t z2; fxAtanhSum z2 n (k + 1) t' (acc + t' / (2 * k + 3))
def fxAtanh (z : Int) : Int := fxAtanhSum (fxMul z z) 210 0 z z
def fxLn2 : Int := 2 * fxAtanh (fxOne / 3)
/-- arctan z for |z| ≤ 1/5. -/
def fxAtanSum (z2 : Int) : Nat → Nat → Int → Int → Int
  | 0, _, _, acc => acc
  | n + 1, k, t, acc => let t' := -(fxMul t z2); fxAtanSum z2 n (k + 1) t' (acc + t' / (2 * k + 3))
def fxAtan (z : Int) : Int := fxAtanSum (fxMul z z) 150 0 z z
def fxPi : Int := 4 * (4 * fxAtan (fxOne / 5) - fxAtan (fxOne / 239))
/-- sin and cos of x for |x| ≤ 2, by their series. -/
def fxSinSum (x2 : Int) : Nat → Nat → Int → Int → Int
  | 0, _, _, acc => acc
  | n + 1, k, t, acc => let t' := -(fxMul t x2) / ((k + 2) * (k + 1)); fxSinSum x2 n (k + 2) t' (acc + t')
def fxSin (x : Int) : Int := fxSinSum (fxMul x x) 80 1 x x
def fxCos (x : Int) : Int := fxSinSum (fxMul x x) 80 0 fxOne fxOne
/-- Σ of the error function's series, x^(2n+1) / (n! (2n+1)) with alternating signs. -/
def fxErfSum (x2 : Int) : Nat → Nat → Int → Int → Int
  | 0, _, _, acc => acc
  | n + 1, k, t, acc => let t' := -(fxMul t x2) / (k + 1); fxErfSum x2 n (k + 1) t' (acc + t' / (2 * k + 3))
def fxErf (x : Int) : Int :=
  let s := fxErfSum (fxMul x x) 700 0 x x
  let rpi : Int := (isqrt (fxPi.toNat * 2 ^ 640) : Nat)
  2 * s * fxOne / rpi
/-- A finite value in fixed point, truncated. -/
def toFx (v : Val) : Int :=
  match v with
  | .fin s n d e => let (q, _, _) := scaled n d (e + 640); if s then -(q : Int) else q
  | _ => 0
/-- A fixed-point result, inexact, scaled by 2^k. -/
def ofFx (x : Int) (k : Int) : Val := .fin (x < 0) (2 * x.natAbs + 1) 1 (k - 641)
/-- floor and fraction of a finite value. -/
def vfloor (v : Val) : Int :=
  match v with
  | .fin s n d e => let (q, r, _) := scaled n d e; if s then (if r = 0 then -(q : Int) else -(q : Int) - 1) else q
  | _ => 0
def vfrac (v : Val) : Val := match v with
  | .fin s n d e => finAdd s n d e (0 < vfloor v) (vfloor v).natAbs 1 0
  | _ => vzero

/-- 2^x for a finite x: exact at an integer. -/
def exp2Val (v : Val) : Val :=
  let i := vfloor v
  let f := vfrac v
  let i := if i < -2000 then -2000 else if i > 2000 then 2000 else i   -- beyond every format
  if isZero f then .fin false 1 1 i else ofFx (fxExp (fxMul (toFx f) fxLn2)) i
/-- log2 of a positive value: exact at a power of two. -/
def log2Val (n d : Nat) (e : Int) : Val :=
  let t := ilog2 n d
  let m := toFx (.fin false n d (-t))
  if m = fxOne && veq (.fin false n d (-t)) vone then vint (t + e)
  else ofFx ((t + e) * fxOne + 2 * fxAtanh ((m - fxOne) * fxOne / (m + fxOne)) * fxOne / fxLn2) 0
/-- e^x for a finite x with |x| < 2^12. -/
def expVal (v : Val) : Int × Int :=
  let y := toFx v * fxOne / fxLn2
  let i := y / fxOne
  (fxExp (fxMul (y - i * fxOne) fxLn2), i)

def bigVal (v : Val) (k : Int) : Bool := vlt (.fin false 1 1 k) (vabs v)

/-- f(x) of FUNC by SUB, for a finite x that the function is defined at (R195). -/
def funcFinite (sub : Nat) (v : Val) : Val :=
  match v with
  | .fin s n d e =>
    match sub with
    | 0 => exp2Val v
    | 1 => log2Val n d e
    | 2 =>                                  -- TANH
      if n = 0 then v else
      if bigVal v 7 then .fin s (2 ^ 100 - 1) 1 (-100) else
      let x := toFx (.fin false n d (e + 1))
      if bigVal (.fin false n d e) (-100) then
        let (m, i) := expVal (.fin false n d (e + 1))
        let t := if i ≥ 0 then m * 2 ^ i.toNat else m / 2 ^ (-i).toNat
        .fin s (2 * ((t - fxOne) * fxOne / (t + fxOne)).natAbs + 1) 1 (-641)
      else let _ := x; .fin s (n * 2 ^ 200 - 1) d (e - 200)
    | 3 =>                                  -- SIGMOID
      if n = 0 then .fin false 1 1 (-1) else
      if bigVal v 8 then (if s then .fin false 1 1 (-300) else .fin false (2 ^ 100 - 1) 1 (-100)) else
      let (m, i) := expVal (.fin (!s) n d e)
      let t := if i ≥ 0 then m * 2 ^ i.toNat else m / 2 ^ (-i).toNat
      ofFx (fxOne * fxOne / (fxOne + t)) 0
    | 4 =>                                  -- ERF
      if n = 0 then v else
      if bigVal v 3 then .fin s (2 ^ 100 - 1) 1 (-100) else
      let r := fxErf (toFx (.fin false n d e))
      .fin s (2 * r.natAbs + 1) 1 (-641)
    | 5 =>                                  -- SINPI
      let f := vfrac (.fin false n d (e - 1))
      let f2 := match f with | .fin _ a b k => Val.fin false a b (k + 1) | w => w
      if isZero (vfrac (.fin false n d e)) then .fin s 0 1 0
      else if isZero (vfrac (.fin false n d (e + 1))) then .fin (s != !vlt f2 vone) 1 1 0
      else
        let neg := !vlt f2 vone
        let g := vfrac (.fin false n d e)
        let r := fxSin (fxMul (toFx g) fxPi)
        .fin (s != neg) (2 * r.natAbs + 1) 1 (-641)
    | 6 =>                                  -- COSPI
      let f := vfrac (.fin false n d (e - 1))
      let f2 := match f with | .fin _ a b k => Val.fin false a b (k + 1) | w => w
      let neg := !vlt f2 vone
      if isZero (vfrac (.fin false n d e)) then .fin (neg) 1 1 0
      else if isZero (vfrac (.fin false n d (e + 1))) then vzero
      else
        let r := fxCos (fxMul (toFx (vfrac (.fin false n d e))) fxPi)
        .fin ((r < 0) != neg) (2 * r.natAbs + 1) 1 (-641)
    | 7 => finDiv vone v
    | _ => match finSqrt n d e with | .fin _ a _ k => finDiv vone (.fin false a 1 k) | w => w
  | w => w

/-- FUNC: specials, domain errors (an operand outside the function's domain, its poles included), else f(x). -/
def vFunc (sub : Nat) (a : Val) : Val × Exc :=
  match a with
  | .nan c => (.nan c, fNAN_IN)
  | .inf s =>
    match sub with
    | 0 => (if s then vzero else .inf false, fINF)
    | 1 => if s then (.nan 2, fINVALID ||| fINF) else (.inf false, fINF)
    | 2 => (.fin s 1 1 0, fINF)
    | 3 => (if s then vzero else vone, fINF)
    | 4 => (.fin s 1 1 0, fINF)
    | 7 => (.fin s 0 1 0, fINF)
    | 8 => if s then (.nan 2, fINVALID ||| fINF) else (vzero, fINF)
    | k => ((decode32 (Config.unstatedFunc k (if s then 0xFF800000 else 0x7F800000)).toNat).1, fINF)
  | .fin s n _ _ =>
    if (sub = 1 || sub = 8) && (s || n == 0) then vInvalid
    else if sub = 7 && n == 0 then vInvalid
    else (funcFinite sub a, 0)

end Sys2Proof.Machine
end

