-- ==== Sys2Proof/Machine/Tiles.lean ====
section
/-! DEFINITION. Tiles (chapter 3): header fields, payload geometry, the checks of R85, elements and scales, and how a
producer writes a tile. An address here is a key of State.mem: a device-physical address or the operand-cache alias. -/

namespace Sys2Proof.Machine

/-- A tile header (R74). -/
abbrev Hdr := BitVec 512

def hVersion (h : Hdr) : Nat := fld h 7 0
def hFormat (h : Hdr) : Nat := fld h 15 8
def hScaleFmt (h : Hdr) : Nat := fld h 23 16
def hZero (h : Hdr) : Nat := fld h 31 24
def hFlags (h : Hdr) : Nat := fld h 47 32
def hCtx (h : Hdr) : Nat := fld h 55 48
def hGen (h : Hdr) : Nat := fld h 63 56
def hPart (h : Hdr) : Nat := fld h 67 64
def hOwner (h : Hdr) : Byte := BitVec.ofNat 8 (fld h 79 72)
def hExcLocal (h : Hdr) : Exc := BitVec.ofNat 13 (fld h 92 80)
def hExcInh (h : Hdr) : Exc := BitVec.ofNat 13 (fld h 108 96)
def hTensor (h : Hdr) : Nat := fld h 127 112
def hEpoch (h : Hdr) : Nat := fld h 159 128
def hRowOrg (h : Hdr) : Nat := fld h 191 160
def hColOrg (h : Hdr) : Nat := fld h 223 192
def hSlab (h : Hdr) : Nat := fld h 239 224
def hRows (h : Hdr) : Nat := fld h 271 256
def hCols (h : Hdr) : Nat := fld h 287 272
def hVRows (h : Hdr) : Nat := fld h 303 288
def hVCols (h : Hdr) : Nat := fld h 319 304
def hData (h : Hdr) : Nat := fld h 351 320
def hMeta (h : Hdr) : Nat := fld h 383 352
def hScale (h : Hdr) : Nat := fld h 415 384
def hUnit (h : Hdr) : Nat := fld h 431 416
def hPayCrc (h : Hdr) : W32 := BitVec.ofNat 32 (fld h 479 448)
def hHdrCrc (h : Hdr) : W32 := BitVec.ofNat 32 (fld h 511 480)
def hPois (h : Hdr) : Bool := bit h 32
def hSkip (h : Hdr) : Bool := bit h 33
def hZeroTile (h : Hdr) : Bool := bit h 34
def hPartial (h : Hdr) : Bool := bit h 35
def hSparse (h : Hdr) : Bool := bit h 36
def hMode (h : Hdr) : Nat := fld h 38 37
def hNone (h : Hdr) : Bool := hSkip h || hZeroTile h
def hEmpty (h : Hdr) : Bool := hRows h == 0 || hCols h == 0
def hPayload (h : Hdr) : Nat := hData h + hMeta h + hScale h
/-- The exception bits a consumer inherits from an input (R92). -/
def hInherit (h : Hdr) : Exc := hExcLocal h ||| hExcInh h

/-! ## Geometry (R77) -/

def scaleBits (f : Nat) : Nat := if f = 0x10 then 8 else 16
def rowStride (k e : Nat) : Nat := ceilDiv (k * e) 128 * 16
def metaStride (cols : Nat) : Nat := ceilDiv cols 128 * 16
def nScales (mode rows cols : Nat) : Nat :=
  match mode with | 0 => 0 | 1 => rows | 2 => cols | _ => rows * ceilDiv cols 32
/-- DATA_LENGTH, META_LENGTH and SCALE_LENGTH of a shape. -/
def geometry (f : Nat) (sparse : Bool) (mode sf rows cols : Nat) : Nat × Nat × Nat :=
  if rows = 0 ∨ cols = 0 then (0, 0, 0) else
  (rows * rowStride (if sparse then cols / 2 else cols) (fmtBits f), if sparse then rows * metaStride cols else 0,
   ceilDiv (nScales mode rows cols * scaleBits sf) 128 * 16)
def hGeometry (h : Hdr) : Nat × Nat × Nat :=
  if hNone h then (0, 0, 0) else geometry (hFormat h) (hSparse h) (hMode h) (hScaleFmt h) (hRows h) (hCols h)
/-- Footprint of a payload length (R73). -/
def footprint (payload : Nat) : Nat := 64 + ceilDiv payload 64 * 64
def maxPayload : Nat := 8 * 2 ^ 20

/-! ## Validity (R76, R78-R80, R105, R73) -/

/-- The format, scale and zero-point rules of R76, R78, R105 and R119. -/
def formatOk (f mode sf zp : Nat) : Bool :=
  fmtBits f != 0 && f != 0x10 &&
  (if mode = 0 then sf == 0 else fmtScale sf && (mode != 3 || (sf == 0x10 && fmtBits f ≤ 8)) && fmtBits f ≤ 16 && f != 0x11) &&
  (zp == 0 || f == 0x09 || (f == 0x08 && -8 ≤ signed 8 zp && signed 8 zp ≤ 7))
/-- Check 4 of R85. R79's rules with BAD_DESCRIPTOR stand here, by their code. -/
def hdrMalformed (h : Hdr) : Bool :=
  fld h 447 432 != 0 || fld h 255 240 != 0 || fld h 71 68 != 0 || fld h 47 41 != 0 || bit h 39 || fld h 95 93 != 0 || fld h 111 109 != 0 ||
  !formatOk (hFormat h) (hMode h) (hScaleFmt h) (hZero h) ||
  (hSparse h && hCols h % 4 != 0) ||
  (hZeroTile h && hSkip h) || (hNone h && (hPayload h != 0 || hMode h != 0 || hScaleFmt h != 0 || hSparse h)) ||
  (if hEmpty h then hVRows h != 0 || hVCols h != 0 || hPartial h
   else hPartial h != (hVRows h < hRows h || hVCols h < hCols h))
/-- Check 5 of R85. -/
def hdrBadLength (h : Hdr) : Bool :=
  hRows h > 4096 || hCols h > 4096 ||
  (!hEmpty h && (hVRows h == 0 || hVRows h > hRows h || hVCols h == 0 || hVCols h > hCols h)) ||
  hGeometry h != (hData h, hMeta h, hScale h) || hPayload h > maxPayload

/-- Who consumes a tile: partition, context, generation; none for a transfer with a check of its own (R85). -/
abbrev Consumer := Option (Nat × Nat × Nat)
def hdrCrcOf (b : Bytes) : W32 := crc32c (b.take 60)
def hBytes (h : Hdr) : Bytes := bytesLE 64 h.toNat

/-- Checks 1-5 of R85: the order and the code of the first that fails. -/
def hdrCheck (w : Consumer) (h : Hdr) : Option (Nat × Status) :=
  if hVersion h ≠ 1 || hdrCrcOf (hBytes h) != hHdrCrc h then some (1, .checksumFail)
  else if (match w with | some (p, _, _) => hPart h != p | none => false) then some (2, .denied)
  else if (match w with | some (_, c, g) => hCtx h != c || hGen h != g | none => false) then some (3, .staleGeneration)
  else if hdrMalformed h then some (4, .badDescriptor)
  else if hdrBadLength h then some (5, .badLength)
  else none

/-- Checks 1-5 by a unit that takes some formats only (R76, under check 4). -/
def hdrCheckUse (w : Consumer) (takes : Nat → Bool) (h : Hdr) : Option (Nat × Status) :=
  match hdrCheck w h with
  | some (o, st) => if o = 5 && !takes (hFormat h) then some (4, .badDescriptor) else some (o, st)
  | none => if takes (hFormat h) then none else some (4, .badDescriptor)
/-- What the arrays take as operands, and what the output stage takes or makes: the codes whose Use column names no unit but others
are shut out. -/
def operandFormat (f : Nat) : Bool := f != 0x0B && f != 0x0C && f != 0x11
def outStageFormat (f : Nat) : Bool := f != 0x0C && f != 0x11
/-- What tile movers, memory-side adders and links carry: MASK1 is the vector engine's alone. -/
def carriedFormat (f : Nat) : Bool := f != 0x11
/-- What the host port carries: W96 is not for it either. -/
def hostFormat (f : Nat) : Bool := f != 0x0B && f != 0x11
/-- The capture of a header that checks 1-5 refuse: IN_PROGRESS for HDR_VERSION 0x00 (R83), else HEADER_REFUSED with the check's
order (R86, R170). -/
def headerRefused (ctx : Nat) (h : Hdr) (order : Nat) (st : Status) (w : Where) (s : State) : State :=
  capture ctx (if hVersion h = 0 then 0x02 else 0x03)
    { w with status := st, tensor := hTensor h, detail := if hVersion h = 0 then 0 else order * 2 ^ 88 } s

/-! ## Tiles in memory -/

def tileHdr (m : Mem) (a : Nat) : Hdr := BitVec.ofNat 512 (mnum m a 64)
def payloadCrc (m : Mem) (a : Nat) (h : Hdr) : W32 := crc32c (mread m (a + 64) (hPayload h))
/-- Check 7 of R85. -/
def payloadOk (m : Mem) (a : Nat) (h : Hdr) : Bool := payloadCrc m a h == hPayCrc h

/-- The e bits at a bit offset from an address. -/
def memBits (m : Mem) (a off e : Nat) : Nat := mnum m (a + off / 8) ((off % 8 + e + 7) / 8) / 2 ^ (off % 8) % 2 ^ e
def memSetBits (m : Mem) (a off e v : Nat) : Mem :=
  let k := (off % 8 + e + 7) / 8
  let old := mnum m (a + off / 8) k
  mwrite m (a + off / 8) (bytesLE k (old - old / 2 ^ (off % 8) % 2 ^ e * 2 ^ (off % 8) + v % 2 ^ e * 2 ^ (off % 8)))

/-- Bit offset of stored column k of row r in the payload. -/
def elemOff (f stored r k : Nat) : Nat := r * rowStride stored (fmtBits f) * 8 + k * fmtBits f
/-- The scale that goes with logical column c of row r: its index in the trailer (R81). -/
def scaleIndex (mode cols r c : Nat) : Nat := match mode with | 1 => r | 2 => c | _ => r * ceilDiv cols 32 + c / 32
def scaleCode (m : Mem) (a : Nat) (h : Hdr) (r c : Nat) : Nat :=
  memBits m (a + 64 + hData h + hMeta h) (scaleIndex (hMode h) (hCols h) r c * scaleBits (hScaleFmt h)) (scaleBits (hScaleFmt h))
/-- Index of kept value v of row r (R141). -/
def keptIndex (m : Mem) (a : Nat) (h : Hdr) (r v : Nat) : Nat :=
  memBits m (a + 64 + hData h) (r * metaStride (hCols h) * 8 + 2 * v) 2

/-- Whether a logical position is padding (R79). -/
def isPadding (h : Hdr) (r c : Nat) : Bool := r ≥ hVRows h || c ≥ hVCols h

/-- The stored code of an element and its logical column; none where it reads as +0: padding, a zero or skip tile, a
poisoned tile, a position a sparse row does not keep. Both kept values of one position are answered by the arrays, not here. -/
def elemCode (m : Mem) (a : Nat) (h : Hdr) (r c : Nat) : Option Nat :=
  if hNone h || hPois h || isPadding h r c then none else
  if hSparse h then
    match [2 * (c / 4), 2 * (c / 4) + 1].find? (fun v => keptIndex m a h r v == c % 4) with
    | some v => some (memBits m (a + 64) (elemOff (hFormat h) (hCols h / 2) r v) (fmtBits (hFormat h)))
    | none => none
  else some (memBits m (a + 64) (elemOff (hFormat h) (hCols h) r c) (fmtBits (hFormat h)))

/-- Decode a code of a tile's format under its scale and zero point (R101-R103). -/
def decodeAt (m : Mem) (a : Nat) (h : Hdr) (r c code : Nat) : Val × Exc :=
  let (v, x) := decodeElem (hFormat h) (hZero h) code
  if hMode h = 0 then (v, x) else
  let (u, y) := applyScale (hScaleFmt h) v (decodeScale (hScaleFmt h) (scaleCode m a h r c))
  (u, x ||| y)

/-! ## Producing tiles (R83) -/

/-- The fields a producer gives a tile. -/
structure TileOut where
  fmt    : Nat := 0
  sf     : Nat := 0
  mode   : Nat := 0
  zp     : Nat := 0
  sparse : Bool := false
  transp : Bool := false
  zero   : Bool := false
  skip   : Bool := false
  pois   : Bool := false
  ctx    : Nat := 0
  gen    : Nat := 0
  part   : Nat := 0
  owner  : Byte := 0
  exc    : Exc := 0
  inh    : Exc := 0
  tensor : Nat := 0
  epoch  : Nat := 0
  rowOrg : Nat := 0
  colOrg : Nat := 0
  slab   : Nat := 0
  rows   : Nat := 0
  cols   : Nat := 0
  vrows  : Nat := 0
  vcols  : Nat := 0
  unit   : Nat := 0

/-- Lengths of the payload the producer writes. -/
def TileOut.lens (t : TileOut) : Nat × Nat × Nat :=
  if t.zero || t.skip then (0, 0, 0) else geometry t.fmt t.sparse t.mode t.sf t.rows t.cols
def TileOut.payload (t : TileOut) : Nat := t.lens.1 + t.lens.2.1 + t.lens.2.2
/-- The header with a version and a payload CRC, before its own CRC. -/
def TileOut.raw (t : TileOut) (version : Nat) (crc : W32) : Hdr :=
  let mode := if t.zero || t.skip then 0 else t.mode
  let sf := if t.zero || t.skip then 0 else t.sf
  let sparse := t.sparse && !(t.zero || t.skip)
  let part := t.rows != 0 && t.cols != 0 && (t.vrows < t.rows || t.vcols < t.cols)
  let flags := t.pois.toNat + 2 * t.skip.toNat + 4 * t.zero.toNat + 8 * part.toNat + 16 * sparse.toNat + 32 * mode + 256 * t.transp.toNat
  BitVec.ofNat 512 (version + t.fmt * 2 ^ 8 + sf * 2 ^ 16 + t.zp * 2 ^ 24 + flags * 2 ^ 32 + t.ctx * 2 ^ 48 + t.gen * 2 ^ 56 +
    t.part * 2 ^ 64 + t.owner.toNat * 2 ^ 72 + t.exc.toNat * 2 ^ 80 + t.inh.toNat * 2 ^ 96 + t.tensor * 2 ^ 112 + t.epoch * 2 ^ 128 +
    t.rowOrg % 2 ^ 32 * 2 ^ 160 + t.colOrg % 2 ^ 32 * 2 ^ 192 + t.slab % 2 ^ 16 * 2 ^ 224 + t.rows * 2 ^ 256 + t.cols * 2 ^ 272 +
    t.vrows * 2 ^ 288 + t.vcols * 2 ^ 304 + t.lens.1 * 2 ^ 320 + t.lens.2.1 * 2 ^ 352 + t.lens.2.2 * 2 ^ 384 + t.unit * 2 ^ 416 +
    crc.toNat * 2 ^ 448)
/-- A header with its HEADER_CRC set. -/
def sealHdr (h : Hdr) : Hdr := setFld h 511 480 (hdrCrcOf (hBytes h)).toNat
/-- The final header over a payload with a CRC. -/
def TileOut.final (t : TileOut) (crc : W32) : Hdr := sealHdr (t.raw 1 crc)

def writeHdr (m : Mem) (a : Nat) (h : Hdr) : Mem := mwrite m a (hBytes h)
/-- The first step of R83. -/
def tileBegin (m : Mem) (a : Nat) (t : TileOut) : Mem := writeHdr m a (t.raw 0 0)
/-- The last step of R83: PAYLOAD_CRC by read-back. -/
def tileEnd (m : Mem) (a : Nat) (t : TileOut) : Mem := writeHdr m a (t.final (crc32c (mread m (a + 64) t.payload)))
/-- Write one element's code. -/
def putElem (m : Mem) (a : Nat) (t : TileOut) (r c code : Nat) : Mem :=
  memSetBits m (a + 64) (elemOff t.fmt (if t.sparse then t.cols / 2 else t.cols) r c) (fmtBits t.fmt) code
def putScale (m : Mem) (a : Nat) (t : TileOut) (r c code : Nat) : Mem :=
  memSetBits m (a + 64 + t.lens.1 + t.lens.2.1) (scaleIndex t.mode t.cols r c * scaleBits t.sf) (scaleBits t.sf) code
/-- The code of +0, and of scale 1.0. -/
def zeroCode (f zp : Nat) : Nat := if f = 0x08 then zp % 16 else if f = 0x09 then zp else 0
def oneScale (sf : Nat) : Nat := if sf = 0x10 then 0x7F else if sf = 0x06 then 0x3C00 else 0x3F80

/-- The scales of a trailer that no valid element uses. -/
def paddingScales (t : TileOut) : List (Nat × Nat) :=
  match t.mode with
  | 0 => []
  | 1 => (List.range (t.rows - t.vrows)).map (fun i => (t.vrows + i, 0))
  | 2 => (List.range (t.cols - t.vcols)).map (fun i => (0, t.vcols + i))
  | _ => (List.range t.rows).flatMap (fun r =>
      (List.range (ceilDiv t.cols 32)).filterMap (fun b => if r ≥ t.vrows ∨ 32 * b ≥ t.vcols then some (r, 32 * b) else none))
/-- Write the padding of a dense tile (R79). -/
def putPadding (m : Mem) (a : Nat) (t : TileOut) : Mem :=
  let m := (List.range t.rows).foldl (fun m r =>
    (List.range t.cols).foldl (fun m c => if r ≥ t.vrows ∨ c ≥ t.vcols then putElem m a t r c (zeroCode t.fmt t.zp) else m) m) m
  (paddingScales t).foldl (fun m e => putScale m a t e.1 e.2 (oneScale t.sf)) m

/-- Bits [12:0] of an exception word that a conversion raises, counted in the context (R120): one for each set bit. -/
def countFlags (ctx : Nat) (x : Exc) (s : State) : State :=
  (List.range 13).foldl (fun s b => if bit x b then excCount ctx b 1 s else s) s

/-- What one operation on several values counts: each flag it raised once, but FLUSH for each value flushed and INEXACT_DECODE for each
element decoded with rounding (R110, R120, R206). -/
def addFlags (l : List Exc) : List Exc :=
  let more := fun (f : Exc) => List.replicate ((l.filter (fun x => x &&& f != 0)).length - 1) f
  l.foldl (· ||| ·) 0 :: (more fFLUSH ++ more fINEXACT)

/-- A POISON event of the context (R94). -/
def countPoison (ctx n : Nat) (s : State) : State := setCtx s ctx { ctxOf s ctx with poisons := (ctxOf s ctx).poisons + n }

/-- The identity a core's tiles carry and are checked against (R85, R88): its context. -/
def coreConsumer (s : State) (c : Nat) : Consumer :=
  match (coreOf s c).ctx with
  | some cx => some ((ctxOf s cx).part.toNat, cx, (ctxOf s cx).gen.toNat)
  | none => none
/-- The device-physical alias of a core-local offset in 64-byte units (R124). -/
def unitAddr (core u : Nat) : Nat := aliasAddr core (64 * u)
/-- 64-byte units of the context's operand-cache allocation. -/
def allocUnits (s : State) (c : Nat) : Nat :=
  match (coreOf s c).ctx with | some cx => (ctxOf s cx).ocMib * 2 ^ 14 | none => 0

/-- A core's engines work: the device is READY, the core holds a context, and it is ACTIVE (R122, R336). -/
def coreLive (s : State) (c : Nat) : Bool :=
  isReady s && (match (coreOf s c).ctx with | some cx => (ctxOf s cx).state == .active | none => false)
def coreCtx (s : State) (c : Nat) : Nat := ((coreOf s c).ctx).getD 0

/-- The operand-cache units [first, end) a unit's running descriptors retain (R136, R191). -/
def overlaps (a la b lb : Nat) : Bool := a < b + lb && b < a + la

end Sys2Proof.Machine
end

