-- ==== Sys2Proof/Machine/MatDesc.lean ====
section
/-! DEFINITION. The matrix descriptor (R132), its tile grids, and the operand-cache slots a core retains while a matrix or
a vector descriptor runs (R136, R191). -/

namespace Sys2Proof.Machine

/-! ## Descriptor fields (R132) -/

def mOutTensor (d : BitVec 512) : Nat := fld d 511 496
def mOutSlab (d : BitVec 512) : Nat := fld d 495 480
def mOutCol (d : BitVec 512) : Nat := fld d 479 448
def mOutRow (d : BitVec 512) : Nat := fld d 447 416
def mOutSplit (d : BitVec 512) : Nat := fld d 415 397
def mOutRows (d : BitVec 512) : Nat := fld d 396 384
def mOutStride (d : BitVec 512) : Nat := fld d 383 365
def mOutBase (d : BitVec 512) : Nat := fld d 364 346
def mK (d : BitVec 512) : Nat := fld d 127 107
def mN (d : BitVec 512) : Nat := fld d 106 98
def mCfg (d : BitVec 512) : Nat := fld d 31 26
def mReuse (d : BitVec 512) : Bool := bit d 25
def mTrap (d : BitVec 512) : Bool := bit d 24
def mSkip (d : BitVec 512) : Bool := bit d 23
def mAcc (d : BitVec 512) : Nat := fld d 22 21
def mSplit (d : BitVec 512) : Nat := fld d 20 19
/-- M of split s. -/
def mM (d : BitVec 512) (s : Nat) : Nat := fld d (140 + 13 * s) (128 + 13 * s)

/-- A streamed or stationary grid. -/
structure Grid where
  base   : Nat
  stride : Nat
  trows  : Nat
  tcols  : Nat
  split  : Nat

def mStream (d : BitVec 512) : Grid := ⟨fld d 198 180, fld d 217 199, fld d 230 218, fld d 243 231, fld d 262 244⟩
def mStat (d : BitVec 512) : Grid := ⟨fld d 281 263, fld d 300 282, fld d 313 301, fld d 326 314, fld d 345 327⟩

/-- Splits of a mode, the columns one array gives each (R139), and the largest N (R132). -/
def nSplits (d : BitVec 512) : Nat := match mSplit d with | 0 => 1 | 1 => 2 | _ => 4
def splitCols (d : BitVec 512) : Nat := 64 / nSplits d
def maxN (d : BitVec 512) : Nat := 256 / nSplits d
/-- Splits that run: M not zero. -/
def activeSplits (d : BitVec 512) : List Nat := (List.range (nSplits d)).filter (fun s => mM d s != 0)

/-- Unit of tile (r, c) of a grid of split s. -/
def Grid.unit (g : Grid) (d : BitVec 512) (s r c : Nat) : Nat := g.base + s * g.split + (r * ceilDiv (mK d) g.tcols + c) * g.stride
/-- Rows of tiles that cover n rows. -/
def Grid.rowTiles (g : Grid) (n : Nat) : Nat := ceilDiv n g.trows
/-- The tiles (r, c) of a grid over n rows. -/
def Grid.tiles (g : Grid) (d : BitVec 512) (n : Nat) : List (Nat × Nat) :=
  (List.range (g.rowTiles n)).flatMap (fun r => (List.range (ceilDiv (mK d) g.tcols)).map (fun c => (r, c)))
/-- The slots of the streamed grids, the stationary grids and the output grids: first unit and length in units. -/
def streamSlots (d : BitVec 512) : List (Nat × Nat) :=
  (activeSplits d).flatMap (fun s => ((mStream d).tiles d (mM d s)).map (fun t => ((mStream d).unit d s t.1 t.2, (mStream d).stride)))
def statSlots (d : BitVec 512) : List (Nat × Nat) :=
  (activeSplits d).flatMap (fun s => ((mStat d).tiles d (mN d)).map (fun t => ((mStat d).unit d s t.1 t.2, (mStat d).stride)))
def outUnit (d : BitVec 512) (s r : Nat) : Nat := mOutBase d + s * mOutSplit d + r * mOutStride d
def outSlots (d : BitVec 512) : List (Nat × Nat) :=
  (activeSplits d).flatMap (fun s => (List.range (ceilDiv (mM d s) (mOutRows d))).map (fun r => (outUnit d s r, mOutStride d)))

/-- Units of a tile that starts at a unit of a core: its header, and its payload where checks 1-5 accept the header. -/
def tileUnits (s : State) (c u : Nat) : Nat :=
  let h := tileHdr s.mem (unitAddr c u)
  match hdrCheck (coreConsumer s c) h with | none => footprint (hPayload h) / 64 | some _ => 1
/-- The streamed and stationary slots of a descriptor: the stride, and the tile where that is longer (R124, R134). -/
def sourceSlots (s : State) (c : Nat) (d : BitVec 512) : List (Nat × Nat) :=
  (streamSlots d ++ statSlots d).map (fun q => (q.1, natMax q.2 (tileUnits s c q.1)))
/-- A matrix descriptor of a core retains units of [a, a + n). -/
def matRetains (s : State) (c a n : Nat) : Bool :=
  match (coreOf s c).arr.run with
  | some r => (sourceSlots s c r.desc).any (fun q => overlaps a n q.1 q.2)
  | none => false

/-! ## Views (R188) -/

abbrev View := BitVec 512
def vwStride (v : View) (a : Nat) : Int := signed 40 (fld v (351 + 40 * a) (312 + 40 * a))
def vwOrigin (v : View) : Nat := fld v 311 272
def vwCols (v : View) : Nat := fld v 271 248
def vwRows (v : View) : Nat := fld v 247 224
def vwSlabs (v : View) : Nat := fld v 223 208
def vwBase (v : View) : Nat := fld v 207 189
def vwSlot (v : View) : Nat := fld v 188 170
def vwTRows (v : View) : Nat := fld v 169 157
def vwTCols (v : View) : Nat := fld v 156 144
def vwTensor (v : View) : Nat := fld v 143 128
def vwFmt (v : View) : Nat := fld v 127 120
def vwSf (v : View) : Nat := fld v 119 112
def vwZp (v : View) : Nat := fld v 111 104
def vwMode (v : View) : Nat := fld v 103 102
/-- Tiles of the grid: per slab, rows and columns of tiles. -/
def vwGr (v : View) : Nat := ceilDiv (vwRows v) (vwTRows v)
def vwGc (v : View) : Nat := ceilDiv (vwCols v) (vwTCols v)
def vwTiles (v : View) : Nat := vwSlabs v * vwGr v * vwGc v

/-- A vector descriptor's named views: the view's number, whether it is a destination, its role's extents, and whether the
whole tensor is read (GATHER). -/
structure VUse where
  view : Nat
  dst  : Bool
  exts : List Nat
  all  : Bool := false

/-! ## Chain fields (R192, R193) -/

def xOp (w : W64) : Nat := fld w 63 56
def xD (w : W64) : Nat := fld w 55 51
def xA (w : W64) : Nat := fld w 50 46
def xB (w : W64) : Nat := fld w 45 41
def xC (w : W64) : Nat := fld w 40 36
def xView (w : W64) : Nat := fld w 35 30
def xType (w : W64) : Nat := fld w 29 28
def xPass (w : W64) : Nat := fld w 27 27
def xIdx (w : W64) : Nat := fld w 26 25
def xSub (w : W64) : Nat := fld w 24 16
def xImm (w : W64) : Nat := fld w 7 0

def isUpdate (d : VDesc) : Bool := dOp d.hdr == 0x41
/-- Extents of the iteration space, axis 0 first. -/
def vExts (d : VDesc) : List Nat :=
  if isUpdate d then [fld d.hdr 167 144, fld d.hdr 191 168, 1, 1, 1]
  else (List.range 5).map (fun a => fld d.hdr (415 + 24 * a) (392 + 24 * a))
def vCount (d : VDesc) : Nat := fld d.hdr 104 100
def vMask (d : VDesc) : Nat := fld d.hdr 95 88
def vRound (d : VDesc) : Nat := fld d.hdr 87 86
def vPack (d : VDesc) : Bool := !isUpdate d && bit d.hdr 85
def vTrap (d : VDesc) : Bool := if isUpdate d then bit d.hdr 81 else bit d.hdr 84
/-- The instructions of a chain. -/
def vCode (d : VDesc) : List W64 := if isUpdate d then [] else d.code.take (vCount d)
def vInstr (d : VDesc) (n : Nat) : W64 := (d.code[n]?).getD 0
/-- Registers that hold a reduction (R201). -/
def redRegs (d : VDesc) : List Nat := (vCode d).filterMap (fun w => if xOp w = 0x40 then some (xD w) else none)

/-- Axis 0 taken as 1 (R201). -/
def oneRow (e : List Nat) : List Nat := 1 :: e.drop 1
/-- The views a chain names. -/
def chainUses (d : VDesc) : List VUse :=
  (vCode d).filterMap (fun w =>
    match xOp w with
    | 0x01 => some ⟨xView w, false, vExts d, false⟩
    | 0x02 => some ⟨xView w, true, if (redRegs d).contains (xA w) then oneRow (vExts d) else vExts d, false⟩
    | 0x31 => some ⟨xView w, false, vExts d, true⟩
    | 0x50 => some ⟨xView w, true, vExts d, false⟩
    | 0x51 => some ⟨xView w, false, vExts d, false⟩
    | _ => none)
/-- The views of a parameter update (R209): G, W, M, V and the outputs. -/
def updateUses (d : VDesc) : List VUse :=
  let e := vExts d
  [⟨fld d.hdr 143 138, false, e, false⟩, ⟨fld d.hdr 137 132, false, e, false⟩, ⟨fld d.hdr 131 126, false, e, false⟩,
   ⟨fld d.hdr 125 120, false, e, false⟩, ⟨fld d.hdr 119 114, true, e, false⟩, ⟨fld d.hdr 113 108, true, e, false⟩,
   ⟨fld d.hdr 107 102, true, e, false⟩] ++ (if bit d.hdr 85 then [⟨fld d.hdr 101 96, true, e, false⟩] else [])
def vUses (d : VDesc) : List VUse := if isUpdate d then updateUses d else chainUses d
def viewOf (d : VDesc) (n : Nat) : View := tget 0 d.views n

/-- A running vector descriptor retains units of [a, a + n): the source grids of its views. -/
def vecRetains (k : Core) (a n : Nat) : Bool :=
  k.vec.runs.any (fun e => (vUses e.2.d).any (fun u =>
    !u.dst && overlaps a n (vwBase (viewOf e.2.d u.view)) (vwTiles (viewOf e.2.d u.view) * vwSlot (viewOf e.2.d u.view))))

/-- Tile movers of any core retain units of a core's operand cache: the source slots of their descriptors (R252). -/
def movRetains (s : State) (core a n : Nat) : Bool :=
  s.cores.any (fun k => k.2.movers.any (fun m => match m.2.run with
    | some r => r.status.isNone && r.srcs.any (fun x => isAlias x.1 && aliasCore x.1 == core && overlaps a n (aliasOff x.1 / 64) (ceilDiv x.2 64))
    | none => false))

/-- A write of a tile mover into the operand cache stalls (R136, R191, R252). -/
def ocRetained (s : State) (va n : Nat) : Bool :=
  isAlias va && (let k := coreOf s (aliasCore va)
    let u := aliasOff va / 64
    let l := (aliasOff va + n - 1) / 64 - u + 1
    matRetains s (aliasCore va) u l || vecRetains k u l || movRetains s (aliasCore va) u l)

end Sys2Proof.Machine
end

