-- ==== Sys2Proof/Machine/ArrayOps.lean ====
section
/-! DEFINITION. The matrix arrays' operations (chapters 5 and 6): fold maps, validation, the fold plan, wavefronts, banks,
cells, the output stage and checksums. The rows of the table stand in Arrays.lean. -/

namespace Sys2Proof.Machine

/-! ## Fold maps (R155, R156) -/

def arrIn (s : State) (c a : Nat) : Bool := !(foldOf s c a).retired
def arraysIn (s : State) (c : Nat) : List Nat := (List.range 4).filter (arrIn s c)
/-- Rows of an array in service, ascending. -/
def rowsIn (s : State) (c a : Nat) : List Nat := (List.range 64).filter (fun i => !bit (foldOf s c a).rows i)
/-- The row-block height. -/
def rowHeight (s : State) (c : Nat) : Nat := 64 - ((arraysIn s c).map (fun a => popcount 64 (foldOf s c a).rows.toNat)).foldl natMax 0
/-- The columns in service that serve a split, in order of its logical columns: array and cell column. -/
def splitSlots (s : State) (c : Nat) (d : BitVec 512) (sp : Nat) : List (Nat × Nat) :=
  (arraysIn s c).flatMap (fun a => ((List.range (splitCols d)).map (fun j => (a, sp * splitCols d + j))).filter (fun e => !bit (foldOf s c a).cols e.2))
/-- Column passes of the pass. -/
def colPasses (s : State) (c : Nat) (d : BitVec 512) : Nat :=
  ((activeSplits d).map (fun sp => ceilDiv (mN d) (splitSlots s c d sp).length)).foldl natMax 1
/-- The members of a split in one array under a column pass: cell column and logical column. -/
def members (s : State) (c : Nat) (d : BitVec 512) (sp cp a : Nat) : List (Nat × Nat) :=
  let sl := splitSlots s c d sp
  ((List.range sl.length).filterMap (fun i =>
    match sl[i]? with
    | some (a', j) => if a' = a && cp * sl.length + i < mN d then some (j, cp * sl.length + i) else none
    | none => none))
/-- The split a cell column serves, and the checksum column of a split (R139, R146). -/
def colSplit (d : BitVec 512) (j : Nat) : Nat := j / splitCols d
def checkCol (d : BitVec 512) (sp : Nat) : Nat := 64 + match mSplit d with | 0 => 3 | 1 => 2 * sp + 1 | _ => sp
def checkSplit (d : BitVec 512) (j : Nat) : Option Nat := (List.range (nSplits d)).find? (fun sp => checkCol d sp == j)

/-! ## Formats of the operands -/

/-- The first tile of a split's grid: its header. -/
def gridHdr (s : State) (c : Nat) (g : Grid) (d : BitVec 512) (sp : Nat) : Hdr := tileHdr s.mem (unitAddr c (g.unit d sp 0 0))
/-- The splits that run and have not failed. -/
def liveSplits (r : MatRun) : List Nat :=
  (activeSplits r.desc).filter (fun sp => !r.dead.contains sp)
def refSplit (r : MatRun) : Nat := ((liveSplits r).head?).getD 0
def streamFmt (s : State) (c : Nat) (r : MatRun) : Nat := hFormat (gridHdr s c (mStream r.desc) r.desc (refSplit r))
def statHdr (s : State) (c : Nat) (r : MatRun) : Hdr := gridHdr s c (mStat r.desc) r.desc (refSplit r)
/-- Whether the stationary operand is sparse or FP32; k-chunk, k-values per bank k-block (R137, R150). -/
def statSparse (s : State) (c : Nat) (r : MatRun) : Bool := hSparse (statHdr s c r)
def statF32 (s : State) (c : Nat) (r : MatRun) : Bool := hFormat (statHdr s c r) == 0x0A
def chunkK (s : State) (c : Nat) (r : MatRun) : Nat :=
  if statSparse s c r then 1024 else if statF32 s c r then 128 else 512
/-- k-values per wavefront (R142). -/
def kWidth (s : State) (c : Nat) (r : MatRun) : Nat := if statSparse s c r && mSplit r.desc != 2 then 8 else 4
def nChunks (s : State) (c : Nat) (r : MatRun) : Nat := ceilDiv (mK r.desc) (chunkK s c r)
/-- The passes of R107 and R109: streamed and stationary piece. -/
def matPasses (s : State) (c : Nat) (r : MatRun) : List (Nat × Nat) :=
  match streamFmt s c r == 0x0A, statF32 s c r with
  | true, true => [(0, 0), (0, 1), (1, 0), (0, 2), (1, 1), (2, 0)]
  | true, false => [(0, 0), (1, 0), (2, 0)]
  | false, true => [(0, 0), (0, 1), (0, 2)]
  | false, false => [(0, 0)]

/-- A piece of a decoded operand: of an FP32 value hi, mid or lo (R106); a special value is present in the first pass alone,
and reads as +0 in every other (R108, R109). -/
def piece (f32 : Bool) (p : Nat) (first : Bool) (v : Val) : Val :=
  match v with
  | .fin s n d e =>
    if !f32 then v
    else match p with
      | 0 => .fin s (n / 2 ^ 13) d (e + 13)
      | 1 => .fin s (n / 4 % 2 ^ 11) d (e + 2)
      | _ => .fin s (n % 4) d e
  | _ => if first then v else vzero

/-! ## Validation (R134, R135, R178) -/

/-- MUL_CONST and a clip limit of a slot: FP32 values taken exactly, a subnormal among them (R179). -/
def slotVal (x : Nat) : Val := (decodeFloat 0x0A x).1
def cfgBad (q : BitVec 512) : Bool :=
  let f := fld q 255 248
  let sf := fld q 247 240
  let zp := fld q 239 232
  let mode := fld q 231 230
  let raw := bit q 227
  let nan := fun x => isNan (slotVal x)
  !((1 ≤ f && f ≤ 0x0A) || f == 0x0B) || (f == 0x0B) != raw ||
  (raw && (mode != 0 || fld q 229 228 != 0 || fld q 226 223 != 0 || fld q 447 416 != 0x3F800000)) ||
  (mode == 1 && !(fmtBits f ≤ 16 && fmtScale sf)) || (mode == 3 && !(fmtBits f ≤ 8 && sf == 0x10)) || (mode == 0 && sf != 0) || mode == 2 ||
  (zp != 0 && (!(f == 0x08 || f == 0x09) || mode != 0 || (f == 0x08 && !(-8 ≤ signed 8 zp && signed 8 zp ≤ 7)))) ||
  (bit q 226 && (nan (fld q 479 448) || nan (fld q 511 480) || vlt (slotVal (fld q 511 480)) (slotVal (fld q 479 448)))) ||
  nan (fld q 447 416) || fld q 301 256 != 0 || fld q 222 0 != 0
/-- The slot as reset (R177), and as a grain core wrote it. -/
def slotReset : BitVec 512 := BitVec.ofNat 512 (0x7F800000 * 2 ^ 480 + 0xFF800000 * 2 ^ 448 + 0x3F800000 * 2 ^ 416 + 0x0A * 2 ^ 248)
def cfgSlot (s : State) (c n : Nat) : BitVec 512 := tget slotReset (coreOf s c).outCfg n

def heldShape (d : BitVec 512) : BitVec 64 :=
  BitVec.ofNat 64 (mSplit d + mN d * 4 + (mM d 0 + mM d 1 * 2 ^ 13 + mM d 2 * 2 ^ 26 + mM d 3 * 2 ^ 39) * 2 ^ 11)
def isDrainOp (d : BitVec 512) : Bool := dOp d == 0x21
/-- The descriptor converts at its end: a drain mode, or MATDRAIN. -/
def drains (d : BitVec 512) : Bool := isDrainOp d || mAcc d < 2
def accums (d : BitVec 512) : Bool := mAcc d % 2 == 1
def holdsMode (d : BitVec 512) : Bool := !isDrainOp d && mAcc d ≥ 2
/-- Matching held groups (R133). -/
def heldMatch (s : State) (c g : Nat) (d : BitVec 512) : Bool :=
  match (coreOf s c).arr.held with | some x => x.shape == heldShape d && x.grain == g | none => false
/-- The banks hold the previous descriptor's stationary operand, of every split this one runs, and it is this one's. -/
def statHeld (s : State) (c g : Nat) (d : BitVec 512) : Bool :=
  match (coreOf s c).arr.lastStat with
  | some (g', d', sps) => g' == g && fld d 345 263 == fld d' 345 263 && fld d 127 98 == fld d' 127 98 && mSplit d == mSplit d' &&
      (activeSplits d).all (fun sp => sps.contains sp)
  | none => false

/-- K or N is zero, or every M_s (R134). -/
def zeroExtent (d : BitVec 512) : Bool := mK d == 0 || mN d == 0 || (List.range 4).all (fun s => mM d s == 0)
def badShape (n : Nat) : Bool := n == 0 || n > 4096
def outFmtLens (d q : BitVec 512) : Nat :=
  let g := geometry (fld q 255 248) false (fld q 231 230) (fld q 247 240) (mOutRows d) (mN d)
  g.1 + g.2.1 + g.2.2
/-- Units of an output slot: its stride, and what its tile takes where that is more. -/
def outUnits (d q : BitVec 512) : Nat := natMax (mOutStride d) (footprint (outFmtLens d q) / 64)
/-- The enabled vector tiles of a split (R177): base unit and columns needed. -/
def vectorUnits (d q : BitVec 512) (sp : Nat) : List (Nat × Nat) :=
  (if bit q 225 then [(fld q 415 397 + sp * fld q 396 378, mN d)] else []) ++
  (if bit q 224 then [(fld q 377 359 + sp * fld q 358 340, mM d sp)] else []) ++
  (if bit q 223 then [(fld q 339 321 + sp * fld q 320 302, mN d)] else [])
/-- Checks of R134 that a zero extent leaves: reserved fields and codes, and counts that no no-op may name (R12, R13). -/
def matFieldChecks (s : State) (c g : Nat) (d : BitVec 512) : List Check :=
  let dr := isDrainOp d
  let held := (coreOf s c).arr.held != none
  [ ⟨5, !(dOp d == 0x20 || dr) || mSplit d == 3 || fld d 97 32 != 0 || fld d 18 16 != 0, .badDescriptor⟩,
    ⟨5, dr && (fld d 345 180 != 0 || mK d != 0 || fld d 25 21 != 0), .badDescriptor⟩,
    ⟨5, (dr || accums d) && !heldMatch s c g d, .badDescriptor⟩,
    ⟨5, !dr && !accums d && held, .badDescriptor⟩,
    ⟨5, mOutRows d % 64 != 0, .badDescriptor⟩,
    ⟨5, (List.range 4).any (fun sp => sp ≥ nSplits d && mM d sp != 0), .badDescriptor⟩,
    ⟨6, (List.range 4).any (fun sp => mM d sp > 4096) || mK d > 2 ^ 20 || mN d > maxN d, .badLength⟩ ]
/-- A MATMUL with a zero extent does nothing (R12, R134). -/
def matNoop (d : BitVec 512) : Bool := dOp d == 0x20 && zeroExtent d
def matChecks (s : State) (c g : Nat) (d : BitVec 512) : List Check :=
  let dr := isDrainOp d
  let q := cfgSlot s c (mCfg d)
  let outs := outSlots d
  let outLen := outUnits d q
  let alloc := allocUnits s c
  matFieldChecks s c g d ++ if matNoop d then [] else
  [ ⟨5, !dr && (badShape (mStream d).trows || badShape (mStream d).tcols || badShape (mStat d).trows || badShape (mStat d).tcols), .badDescriptor⟩,
    ⟨5, drains d && badShape (mOutRows d), .badDescriptor⟩,
    ⟨5, holdsMode d && (List.range 4).any (fun sp => mM d sp > 4 * rowHeight s c), .badDescriptor⟩,
    ⟨5, (arraysIn s c).isEmpty, .badDescriptor⟩,
    ⟨5, !dr && mReuse d && !statHeld s c g d, .badDescriptor⟩,
    ⟨5, cfgBad q, .badDescriptor⟩,
    ⟨6, drains d && outFmtLens d q > maxPayload, .badLength⟩,
    ⟨7, !dr && (sourceSlots s c d).any (fun e => e.1 + e.2 > alloc), .outOfRegion⟩,
    ⟨7, drains d && outs.any (fun e => e.1 + outLen > alloc), .outOfRegion⟩,
    ⟨7, drains d && (activeSplits d).any (fun sp => (vectorUnits d q sp).any (fun e => e.1 ≥ alloc || e.1 + tileUnits s c e.1 > alloc)), .outOfRegion⟩,
    ⟨7, !dr && drains d && outs.any (fun o => (sourceSlots s c d).any (fun e => overlaps o.1 outLen e.1 e.2)), .outOfRegion⟩ ]

/-- Conformance of one operand tile against its grid and the grid's first tile (R135): order and code. -/
def conformFail (ref h : Hdr) (stat : Bool) (trows tcols vrows vcols : Nat) : Option (Nat × Status) :=
  if !fmtMatrix (hFormat h) || hFormat h != hFormat ref || hScaleFmt h != hScaleFmt ref || hMode h != hMode ref || hSparse h != hSparse ref ||
     (!stat && hSparse h) || (stat && hSparse h && (tcols % 4 != 0 || fmtBits (hFormat h) > 16)) then some (4, .badDescriptor)
  else if hRows h != trows || hCols h != tcols || hVRows h != vrows || hVCols h != vcols then some (5, .badLength)
  else none

/-- The operand tiles of a split: address, whether stationary, expected valid extents. -/
def operandTiles (c : Nat) (d : BitVec 512) (sp : Nat) : List (Nat × Bool × Nat × Nat) :=
  let one := fun (g : Grid) (n : Nat) (stat : Bool) => (g.tiles d n).map (fun t =>
    (unitAddr c (g.unit d sp t.1 t.2), stat, natMin g.trows (n - t.1 * g.trows), natMin g.tcols (mK d - t.2 * g.tcols)))
  one (mStream d) (mM d sp) false ++ one (mStat d) (mN d) true
/-- The enabled vector tiles of a split (R177): address and columns needed. -/
def vectorTiles (c : Nat) (d q : BitVec 512) (sp : Nat) : List (Nat × Nat) :=
  (vectorUnits d q sp).map (fun e => (unitAddr c e.1, e.2))
/-- The first check a split's input tiles fail: address, order, code. -/
def splitFail (s : State) (c : Nat) (d q : BitVec 512) (ref sp : Nat) : Option (Nat × Nat × Status) :=
  let who := coreConsumer s c
  let ops := if isDrainOp d then none else (operandTiles c d sp).findSome? (fun t =>
    let h := tileHdr s.mem t.1
    let g := if t.2.1 then mStat d else mStream d
    match hdrCheckUse who operandFormat h with
    | some (o, st) => some (t.1, o, st)
    | none => (conformFail (gridHdr s c g d ref) h t.2.1 g.trows g.tcols t.2.2.1 t.2.2.2).map (fun f => (t.1, f.1, f.2)))
  match ops with
  | some f => some f
  | none => if !drains d then none else (vectorTiles c d q sp).findSome? (fun t =>
    let h := tileHdr s.mem t.1
    match hdrCheckUse who outStageFormat h with
    | some (o, st) => some (t.1, o, st)
    | none =>
      if !(hFormat h == 0x0A || hFormat h == 0x06 || hFormat h == 0x07) || hMode h != 0 then some (t.1, 4, .badDescriptor)
      else if hRows h != 1 || hCols h < t.2 then some (t.1, 5, .badLength) else none)

/-! ## The run -/

def arrOf (s : State) (c : Nat) : Arrays := (coreOf s c).arr
def modArr (c : Nat) (f : Arrays → Arrays) (s : State) : State := setCore s c { coreOf s c with arr := f (coreOf s c).arr }
def matOf (s : State) (c : Nat) : MatRun := ((arrOf s c).run).getD {}
def modMat (c : Nat) (f : MatRun → MatRun) (s : State) : State := modArr c (fun a => { a with run := some (f (a.run.getD {})) }) s
def tileKey (sp t : Nat) : Nat := sp * 4096 + t
def modTile (c sp t : Nat) (f : TileAcc → TileAcc) (s : State) : State := modMat c (fun r => { r with tiles := tmod {} r.tiles (tileKey sp t) f }) s

/-- A cell, and one of its groups under a column pass. -/
def cellKey (a row col : Nat) : Nat := (a * 128 + row) * 128 + col
def groupKey (cp cell g : Nat) : Nat := (cp * 2 ^ 17 + cell) * 4 + g
def groupOf (r : MatDrain) : Nat := r.blk.num % 4

/-- The row blocks of the fold loop: block b covers rows b·h to b·h + h - 1 of each split that has them. -/
def rowBlocks (r : MatRun) (h : Nat) : List RowBlk :=
  let n := ((liveSplits r).map (fun sp => ceilDiv (mM r.desc sp) h)).foldl natMax 0
  (List.range n).map (fun b => { num := b, parts := (liveSplits r).filterMap (fun sp =>
    if b * h < mM r.desc sp then some (sp, b * h, natMin h (mM r.desc sp - b * h)) else none) })
/-- Sets of four blocks. -/
def setsOf : Nat → List RowBlk → List (List RowBlk)
  | 0, _ => []
  | n + 1, l => if l.isEmpty then [] else l.take 4 :: setsOf n (l.drop 4)
/-- Scales are formed in a first run where the fold needs more than one column pass (R181). -/
def needsDry (s : State) (c : Nat) (r : MatRun) : Bool :=
  drains r.desc && (fld r.cfg 231 230 == 1 || fld r.cfg 231 230 == 3) && colPasses s c r.desc > 1
/-- The plan over given blocks: each set under each column pass. -/
def planOf (s : State) (c : Nat) (r : MatRun) (redo : Bool) (blks : List RowBlk) : List MatItem :=
  let sets := setsOf blks.length blks
  let one := fun dry => (List.range (colPasses s c r.desc)).flatMap (fun cp => sets.map (fun b => { cpass := cp, dry := dry, redo := redo, blks := b : MatItem }))
  (if needsDry s c r then one true else []) ++ one false

/-- Chunks an item runs: none for MATDRAIN. -/
def itemChunks (s : State) (c : Nat) (r : MatRun) : Nat := if isDrainOp r.desc then 0 else nChunks s c r
/-- The bank loads the plan needs, in order: column pass and chunk, a load the bank already holds left out. -/
def loadSeq (s : State) (c : Nat) (r : MatRun) : List (Nat × Nat) :=
  (r.plan.flatMap (fun it => (List.range (itemChunks s c r)).map (fun ch => (it.cpass, ch)))).foldl
    (fun l e => if l.getLast? == some e then l else l ++ [e]) []
/-- The load that serves a place of the plan: its number. -/
def loadAt (s : State) (c : Nat) (r : MatRun) (item chunk : Nat) : Nat :=
  let l := ((r.plan.take (item + 1)).zip (List.range (item + 1))).flatMap (fun it =>
    ((List.range (itemChunks s c r)).filter (fun ch => it.2 < item || ch ≤ chunk)).map (fun ch => (it.1.cpass, ch)))
  (l.foldl (fun (m : List (Nat × Nat)) e => if m.getLast? == some e then m else m ++ [e]) []).length - 1

/-- Arrays that hold columns in a column pass. -/
def busyArrays (s : State) (c : Nat) (d : BitVec 512) (cp : Nat) : List Nat :=
  (arraysIn s c).filter (fun a => (activeSplits d).any (fun sp => !(members s c d sp cp a).isEmpty))

/-! ## Operands -/

/-- The stored values of one row of a grid for k in [k0, k0 + w): (k, decoded value, flags); absent where the tile is a zero or
skip tile, and beyond K. A poisoned tile's payload is not used. -/
def rowVals (s : State) (c : Nat) (g : Grid) (d : BitVec 512) (sp row k0 w : Nat) : List (Nat × Val × Exc) :=
  (List.range w).flatMap (fun i =>
    let k := k0 + i
    if k ≥ mK d then [] else
    let a := unitAddr c (g.unit d sp (row / g.trows) (k / g.tcols))
    let h := tileHdr s.mem a
    let r := row % g.trows
    let cc := k % g.tcols
    if hNone h || hPois h then [] else
    if hSparse h then
      ([2 * (cc / 4), 2 * (cc / 4) + 1].filter (fun v => keptIndex s.mem a h r v == cc % 4)).map (fun v =>
        let (x, fl) := decodeAt s.mem a h r cc (memBits s.mem (a + 64) (elemOff (hFormat h) (hCols h / 2) r v) (fmtBits (hFormat h)))
        (k, x, fl))
    else
      match elemCode s.mem a h r cc with
      | some code => let (x, fl) := decodeAt s.mem a h r cc code; [(k, x, fl)]
      | none => [])

/-- Count the flags of decoded elements (R120). -/
def countDecodes (ctx : Nat) (l : List (Nat × Val × Exc)) (s : State) : State := l.foldl (fun s e => if e.2.2 = 0 then s else countFlags ctx e.2.2 s) s

/-- Add two values exactly, for an edge sum. -/
def edgeAdd (t : List (Nat × Val)) (e : Nat × Val) : List (Nat × Val) :=
  if t.any (fun q => q.1 == e.1) then t.map (fun q => if q.1 == e.1 then (q.1, (vAdd q.2 e.2).1) else q) else t ++ [e]

/-- Fill a bank with a chunk (R137, R150, R154): values, checksum slots, SPECIAL bits. -/
def fillBank (s : State) (c a : Nat) (r : MatRun) (cp chunk : Nat) : Bank :=
  let w := kWidth s c r
  let k0 := chunk * chunkK s c r
  let n := ceilDiv (natMin (chunkK s c r) (mK r.desc - k0)) w
  let f32 := statF32 s c r
  let planes := if f32 then [0, 1, 2] else [0]
  let cols := (liveSplits r).flatMap (fun sp => (members s c r.desc sp cp a).map (fun m => (sp, m.1, m.2)))
  let ents := (List.range n).flatMap (fun kb => cols.flatMap (fun e =>
    let vs := rowVals s c (mStat r.desc) r.desc e.1 e.2.2 (k0 + kb * w) w
    planes.map (fun p => (e.1, e.2.1, kb, p, vs.map (fun v => (v.1, piece f32 p (p == 0) v.2.1))))))
  { state := .ready, held := true, chunk := chunk, cpass := cp,
    vals := ents.foldl (fun t e => tset t ((e.2.1 * 2 ^ 16 + e.2.2.1) * 4 + e.2.2.2.1) e.2.2.2.2) [],
    sums := ents.foldl (fun t e => tmod [] t ((e.1 * 2 ^ 16 + e.2.2.1) * 4 + e.2.2.2.1) (fun o => e.2.2.2.2.foldl edgeAdd o)) [],
    special := (List.range n).filter (fun kb => ents.any (fun e => e.2.2.1 == kb && e.2.2.2.2.any (fun v => !isFinite v.2))) }
/-- The elements a fill decodes. -/
def fillDecodes (s : State) (c a : Nat) (r : MatRun) (cp chunk : Nat) : List (Nat × Val × Exc) :=
  let k0 := chunk * chunkK s c r
  (liveSplits r).flatMap (fun sp => (members s c r.desc sp cp a).flatMap (fun m =>
    rowVals s c (mStat r.desc) r.desc sp m.2 k0 (natMin (chunkK s c r) (mK r.desc - k0))))

/-- Every streamed tile under a wavefront is a zero or skip tile (R144). -/
def allNoneTiles (s : State) (c : Nat) (r : MatRun) (b : RowBlk) (k0 w : Nat) : Bool :=
  b.parts.all (fun p => (List.range p.2.2).all (fun i => (List.range w).all (fun j =>
    k0 + j ≥ mK r.desc ||
    hNone (tileHdr s.mem (unitAddr c ((mStream r.desc).unit r.desc p.1 ((p.2.1 + i) / (mStream r.desc).trows) ((k0 + j) / (mStream r.desc).tcols)))))))
/-- Every valid streamed value under a wavefront is a zero (R143). -/
def allZeroVals (s : State) (c : Nat) (r : MatRun) (b : RowBlk) (k0 w : Nat) : Bool :=
  b.parts.all (fun p => (List.range p.2.2).all (fun i =>
    (rowVals s c (mStream r.desc) r.desc p.1 (p.2.1 + i) k0 w).all (fun v => isZero v.2.1)))

/-- The header tiles that feed a split in a wavefront: for the group record (R168). -/
def feedHdrs (s : State) (c : Nat) (r : MatRun) (p : RowPart) (k0 w : Nat) : List Hdr :=
  let d := r.desc
  let ks := ((List.range w).map (fun j => k0 + j)).filter (fun k => k < mK d)
  (List.range p.2.2).flatMap (fun i => ks.map (fun k => tileHdr s.mem (unitAddr c ((mStream d).unit d p.1 ((p.2.1 + i) / (mStream d).trows) (k / (mStream d).tcols))))) ++
  (List.range (mN d)).flatMap (fun n => ks.map (fun k => tileHdr s.mem (unitAddr c ((mStat d).unit d p.1 (n / (mStat d).trows) (k / (mStat d).tcols)))))
/-- The owner sets and inherited bits of the tiles under a wavefront join the group record, whether it enters or is omitted: a
zero tile carries both (R80, R89, R92). -/
def recFeed (s : State) (c : Nat) (r : MatRun) (p : RowPart) (k0 w : Nat) (old : W64) : W64 :=
  let hs := feedHdrs s c r p k0 w
  let inh := hs.foldl (fun a h => a ||| hInherit h) (BitVec.ofNat 13 (fld old 31 19))
  let own := hs.foldl (fun a h => a ||| hOwner h) (BitVec.ofNat 8 (fld old 39 32))
  setFld (setFld old 39 32 own.toNat) 31 19 inh.toNat
/-- The group record after a wavefront. -/
def recAdd (s : State) (c : Nat) (r : MatRun) (p : RowPart) (k0 w : Nat) (old0 : W64) : W64 :=
  let old := recFeed s c r p k0 w old0
  let fl := ((List.range p.2.2).flatMap (fun i => rowVals s c (mStream r.desc) r.desc p.1 (p.2.1 + i) k0 w) ++
             (List.range (mN r.desc)).flatMap (fun n => rowVals s c (mStat r.desc) r.desc p.1 n k0 w)).foldl (fun a v => a ||| v.2.2) 0
  BitVec.ofNat 64 (natMin (fld old 63 40 + 1) 0xFFFFFF * 2 ^ 40 + fld old 39 19 * 2 ^ 19 +
    (bit old 18 || fl &&& fINEXACT != 0).toNat * 2 ^ 18 + (bit old 17 || fl &&& fFLUSH != 0).toNat * 2 ^ 17)

/-! ## Cells (R163, R164) -/

/-- Whether an invalid event is 0 × ∞ or the meeting of infinities, and the k of its product. -/
abbrev CellEvent := Nat × Nat

/-- Apply one special product to a group; finite products are left to the sum. -/
def specialProduct (g : Group) (k : Nat) (a b : Val) : Group × List CellEvent :=
  match a, b with
  | .nan c, _ => (gMakeNan g c.toNat, [])
  | _, .nan c => (gMakeNan g c.toNat, [])
  | .inf s, .inf t => let (g, ev) := gInf g (s != t) 1; (g, if ev then [(1, k)] else [])
  | .inf s, .fin t n _ _ => if n = 0 then (gMakeInvalid g 1, [(0, k)]) else let (g, ev) := gInf g (s != t) 1; (g, if ev then [(1, k)] else [])
  | .fin s n _ _, .inf t => if n = 0 then (gMakeInvalid g 1, [(0, k)]) else let (g, ev) := gInf g (s != t) 1; (g, if ev then [(1, k)] else [])
  | .fin .., .fin .. => (g, [])
/-- The finite products of a wavefront. -/
def finiteProduct (a b : Val) : Option Val :=
  match a, b with
  | .fin s n d e, .fin t m c k => some (finMul s n d e t m c k)
  | _, _ => none
/-- A wavefront meets a group: special products in k order, then the exact finite sum by window_add. -/
def cellAdd (g : Group) (as bs : List (Nat × Val)) : Group × List CellEvent :=
  let prods := as.flatMap (fun a => (bs.filter (fun b => b.1 == a.1)).map (fun b => (a.1, a.2, b.2)))
  let (g, ev) := prods.foldl (fun (q : Group × List CellEvent) p =>
    let (g, e) := specialProduct q.1 p.1 p.2.1 p.2.2
    (g, q.2 ++ e)) (g, [])
  let sum := (prods.filterMap (fun p => finiteProduct p.2.1 p.2.2)).foldl (fun t v => (vAdd t v).1) vzero
  match sum with
  | .fin s n _ e =>
    let (g, past) := windowAdd g (if s then -(n : Int) else n) e 1
    (g, if past then ev ++ [(1, (prods.head?.map (·.1)).getD 0)] else ev)
  | _ => (g, ev)

/-- The logical row of a cell row in an array: none for a retired row. Row 64 is the checksum row. -/
def logicalRow (s : State) (c a row : Nat) : Option Nat :=
  if row = 64 then some 64 else ((rowsIn s c a).zip (List.range 64)).findSome? (fun e => if e.1 == row then some e.2 else none)
/-- The split whose operands a cell column takes under a column pass, where it takes part. -/
def cellSplit (s : State) (c a col cp : Nat) (r : MatRun) : Option Nat :=
  if col < 64 then (liveSplits r).find? (fun sp => (members s c r.desc sp cp a).any (fun m => m.1 == col))
  else match checkSplit r.desc col with
    | some sp => if (liveSplits r).contains sp && !(members s c r.desc sp cp a).isEmpty then some sp else none
    | none => none
/-- The wavefront a cell meets next, with its number; whether its marker was captured. -/
def nextWave (s : State) (c cell : Nat) : Option (Nat × Bool × Wave) :=
  let p := tget 0 (arrOf s c).pos cell
  ((arrOf s c).flight[p / 2]?).map (fun w => (p / 2, p % 2 == 1, w))
def tOperands (t : W64) : Bool := bit t 0
def tDrain (t : W64) : Bool := bit t 59
def tGroup (t : W64) : Nat := fld t 51 50
def tDrainGroup (t : W64) : Nat := fld t 57 56
def tValid (t : W64) (sp : Nat) : Bool := bit t (60 + sp)

/-- The smallest event of each cause, with its place in the order of R171. -/
def captAdd (t : Tbl (Nat × BitVec 384)) (cause key : Nat) (rec : BitVec 384) : Tbl (Nat × BitVec 384) :=
  if ((t.find? (fun e => e.1 == cause)).map (fun e => decide (key < e.2.1))).getD true then tset t cause (key, rec) else t
/-- Record an event of the descriptor; its first invalid event raises one trap (R171). -/
def matEvent (c cause key : Nat) (rec : BitVec 384) (s : State) : State :=
  let s : State := modMat c (fun r => { r with capt := captAdd r.capt cause key rec }) s
  let r := matOf s c
  if cause = 0x01 && !r.invalid then
    let s := modMat c (fun r => { r with invalid := true }) s
    if mTrap r.desc then trapRaise c r.grain 1 (dTag r.desc) s else s
  else s

/-- One cell's window add of its next wavefront. An event is placed by the wavefront's number among all that the descriptor has
issued, k, array, row and column; the tile its record names is the output tile of the block's first row (DESIGN CHOICE, log entry 125). -/
def cellStep (c a row col : Nat) (s : State) : State :=
  let r := matOf s c
  let cell := cellKey a row col
  match nextWave s c cell with
  | none => s
  | some (n, captured, w) =>
    if tDrain w.tag && !captured then s else
    let adv := fun s => modArr c (fun x => { x with pos := tset x.pos cell (2 * (n + 1)) }) s
    match cellSplit s c a col w.cpass r, logicalRow s c a row with
    | some sp, some i =>
      let rows := ((w.blk.parts.find? (fun p => p.1 == sp)).map (fun p => p.2.2)).getD 0
      if !tOperands w.tag || !tValid w.tag sp || !(i == 64 || i < rows) || (row == 64 && col ≥ 64) then adv s else
      let key := groupKey w.cpass cell (tGroup w.tag)
      let (g, ev) := cellAdd (tget 0 (arrOf s c).groups key) (tget [] w.a (sp * 128 + i)) (tget [] w.b (a * 128 + col))
      let s := adv (modArr c (fun x => { x with groups := tset x.groups key g }) s)
      if row = 64 || col ≥ 64 then s else
      ev.foldl (fun s e =>
        let rec' := capRecord s (coreCtx s c) 0x01 {
          tag := dTag r.desc, core := c, engine := 1, array := a, split := sp, group := tGroup w.tag,
          pass := fld w.tag 54 52, row := row, col := col, block := w.blk.num, kco := e.2, detail := e.1 * 2 ^ 94,
          addr := unitAddr c (outUnit r.desc sp (((w.blk.parts.find? (fun p => p.1 == sp)).map (fun p => p.2.1)).getD 0 / natMax 1 (mOutRows r.desc))),
          tensor := mOutTensor r.desc }
        matEvent c 0x01 ((((r.waves0 + n) * 2 ^ 21 + e.2) * 4 + a) * 2 ^ 14 + row * 128 + col) rec' (excCount (coreCtx s c) 0 1 s)) s
    | _, _ => adv s
/-- The drain marker of a cell's next wavefront reaches window add (R151). -/
def cellCapture (c a row col : Nat) (s : State) : State :=
  let cell := cellKey a row col
  match nextWave s c cell with
  | none => s
  | some (n, captured, w) =>
    if !tDrain w.tag || captured then s else
    let cp := ((matOf s c).drain.map (·.cpass)).getD w.cpass
    let key := groupKey cp cell (tDrainGroup w.tag)
    modArr c (fun x => { x with readout := tset x.readout cell (tget 0 x.groups key), groups := tset x.groups key 0,
                                pos := tset x.pos cell (if tOperands w.tag then 2 * n + 1 else 2 * (n + 1)) }) s

/-- The cells of one row of the arrays that a split uses, its checksum column last. -/
def rowCells (s : State) (c : Nat) (d : BitVec 512) (sp cp i : Nat) : List (Nat × Nat × Nat) :=
  (arraysIn s c).flatMap (fun a =>
    let ms := members s c d sp cp a
    match (if i = 64 then some 64 else (rowsIn s c a)[i]?) with
    | some row => if ms.isEmpty then [] else (ms.map (fun m => (a, row, m.1))) ++ (if i = 64 then [] else [(a, row, checkCol d sp)])
    | none => [])
/-- Every cell that takes part in the running descriptor. -/
def allCells (s : State) (c : Nat) (r : MatRun) : List (Nat × Nat × Nat) :=
  (List.range (colPasses s c r.desc)).flatMap (fun cp => (liveSplits r).flatMap (fun sp =>
    (List.range 65).flatMap (fun i => rowCells s c r.desc sp cp i)))
/-- Every cell meets every wavefront in flight: what the pipelines do once the stream has stopped. -/
def settleCells (c : Nat) (s : State) : State :=
  let r := matOf s c
  (allCells s c r).foldl (fun s e =>
    (List.range (2 * (arrOf s c).flight.length)).foldl (fun s _ => cellStep c e.1 e.2.1 e.2.2 (cellCapture c e.1 e.2.1 e.2.2 s)) s) s

/-! ## The output stage (R177-R181) -/

/-- No streamed tile but SKIP_TILEs fed the groups of an output tile: the output stage writes a SKIP_TILE (R80, DEDUCED, log entry 126). -/
def skipOut (r : MatRun) (sp t : Nat) : Bool :=
  !r.fed.any (fun p => p.1 == sp && overlaps (t * mOutRows r.desc) (mOutRows r.desc) p.2.1 p.2.2)
/-- The element flags of an output tile: what goes into EXC_LOCAL, and what counts (R180). -/
def tileFlags (r : MatRun) (sp t : Nat) : List (Exc × Exc) :=
  (r.elemFl.filter (fun e => sp * 8192 + t * mOutRows r.desc ≤ e.1 / 256 && e.1 / 256 < sp * 8192 + (t + 1) * mOutRows r.desc)).map (·.2)
/-- The tile an output row belongs to. -/
def outTile (r : MatRun) (sp t : Nat) (s : State) (c : Nat) : TileOut :=
  let d := r.desc
  let cx := coreCtx s c
  let q := r.cfg
  let acc := tget {} r.tiles (tileKey sp t)
  let inst := (((arraysIn s c).filter (fun a => (List.range 64).any (fun cp => !(members s c d sp cp a).isEmpty))).head?).getD 0
  { fmt := fld q 255 248, sf := fld q 247 240, mode := fld q 231 230, zp := if fld q 231 230 = 0 then fld q 239 232 else 0,
    pois := acc.pois, skip := skipOut r sp t, ctx := cx, gen := (ctxOf s cx).gen.toNat, part := (ctxOf s cx).part.toNat,
    owner := acc.owner ||| (grainOf (coreOf s c) r.grain).owner, exc := (tileFlags r sp t).foldl (fun x e => x ||| e.1) acc.exc, inh := acc.inh, tensor := mOutTensor d, epoch := r.epoch.toNat,
    rowOrg := mOutRow d + t * mOutRows d, colOrg := mOutCol d, slab := mOutSlab d + sp, rows := mOutRows d, cols := mN d,
    vrows := natMin (mOutRows d) (mM d sp - t * mOutRows d), vcols := mN d, unit := c * 2 ^ 11 + 2 * 2 ^ 8 + inst }
def outAddr (c : Nat) (r : MatRun) (sp t : Nat) : Nat := unitAddr c (outUnit r.desc sp t)

/-- Exact multiplication and addition of the output stage: an invalid result carries code 0x001. -/
def outFix (p : Val × Exc) : Val × Exc := if p.2 &&& fINVALID != 0 then (.nan 1, p.2) else p
def outMul (a b : Val) : Val × Exc := outFix (vMul a b)
def outAdd (a b : Val) : Val × Exc := outFix (vAdd a b)

/-- An element of an enabled vector tile. -/
def vecElem (s : State) (a : Nat) (i : Nat) : Val × Exc :=
  let h := tileHdr s.mem a
  match elemCode s.mem a h 0 i with | some code => decodeAt s.mem a h 0 i code | none => (vzero, 0)
def biasAddr (c : Nat) (q : BitVec 512) (sp : Nat) : Nat := unitAddr c (fld q 415 397 + sp * fld q 396 378)
def rowScaleAddr (c : Nat) (q : BitVec 512) (sp : Nat) : Nat := unitAddr c (fld q 377 359 + sp * fld q 358 340)
def colScaleAddr (c : Nat) (q : BitVec 512) (sp : Nat) : Nat := unitAddr c (fld q 339 321 + sp * fld q 320 302)

/-- The exact value R179 yields before division, with the flags raised on the way: element flags and whether an invalid event
of the output stage occurred. MUL_CONST and the CLIP limits enter exactly as the slot holds them (R178, R179), subnormals too. -/
def outValue (s : State) (c : Nat) (r : MatRun) (sp m col : Nat) (g : Group) : Val × Exc × Bool :=
  let q := r.cfg
  let x0 := groupVal g
  let gf : Exc := (if gInvalid g then fINVALID else 0) ||| (if gNan g && fld g 8 0 != 1 then fNAN_IN else 0) |||
    (if gPinf g || gNinf g then fINF else 0) ||| (if gShed g then fSHED else 0)
  let step := fun (p : Val × Exc × Bool) (op : Val → Val → Val × Exc) (e : Val × Exc) =>
    let (y, fl) := op p.1 e.1
    let invalid := fl &&& fINVALID != 0
    (y, p.2.1 ||| (if isNan e.1 then fNAN_IN else 0) ||| (fl &&& (fINVALID ||| fINF)) ||| (if isInf e.1 then fINF else 0) ||| (e.2 &&& fFLUSH), p.2.2 || invalid)
  let p := step (x0, gf, false) outMul (slotVal (fld q 447 416), 0)
  let p := if bit q 224 then step p outMul (vecElem s (rowScaleAddr c q sp) m) else p
  let p := if bit q 223 then step p outMul (vecElem s (colScaleAddr c q sp) col) else p
  let p := if bit q 225 then step p outAdd (vecElem s (biasAddr c q sp) col) else p
  let lo := slotVal (fld q 479 448)
  let hi := slotVal (fld q 511 480)
  let y := if bit q 226 && !isNan p.1 then (if vlt p.1 lo then lo else if vlt hi p.1 then hi else p.1) else p.1
  let clip := bit q 226 && !isNan p.1 && !veq y p.1
  let y := if isZero y then vzero else y
  (y, p.2.1 ||| (if clip then fCLIP else 0), p.2.2)

/-- The members of a split in logical order with their cells, for a logical row i of a block. -/
def outCells (s : State) (c : Nat) (d : BitVec 512) (sp cp i : Nat) : List (Nat × Nat × Nat × Nat) :=
  (arraysIn s c).flatMap (fun a =>
    match (rowsIn s c a)[i]? with
    | some row => (members s c d sp cp a).map (fun m => (a, row, m.1, m.2))
    | none => [])
/-- The scale group of an output element. -/
def amaxIx (r : MatRun) (sp m col : Nat) : Nat := (sp * 8192 + m) * 128 + if fld r.cfg 231 230 = 1 then 0 else col / 32

/-- The store of R181 keeps each amax rounded towards +∞ to FP32. -/
def amaxUp (v : Val) : Val :=
  match v with
  | .fin s n d e =>
    if n = 0 then v else
    let k : Int := ilog2 n d - 23
    let (q, r, _) := scaled n d (-k)
    .fin s (if r = 0 then q else q + 1) 1 (k + e)
  | _ => v

/-- Flags of an output element that advance a counter when its tile is final (R180): an invalid event has been counted already, and
a flush counts where the conversion made it. -/
def outCounted (fl conv : Exc) : Exc :=
  ((fl ||| conv) &&& (fNAN_IN ||| fSHED ||| fCLIP ||| fINF ||| fOVERFLOW ||| fUNDERFLOW ||| fSATURATE)) ||| (conv &&& fFLUSH)
/-- Read out logical row i of a split of the draining block: convert and write its elements (R179). An event of the output stage is
placed by output row and column; the tile its record names is the output tile. -/
def readRow (c : Nat) (dr : MatDrain) (sp i m : Nat) (s : State) : State :=
  let r := matOf s c
  let d := r.desc
  let q := r.cfg
  let cx := coreCtx s c
  let cells := outCells s c d sp dr.cpass i
  let vals := cells.map (fun e => (e, outValue s c r sp m e.2.2.2 (tget 0 (arrOf s c).readout (cellKey e.1 e.2.1 e.2.2.1))))
  -- decodes of the vector tiles (R178)
  let s := if bit q 224 then countFlags cx ((vecElem s (rowScaleAddr c q sp) m).2 &&& fFLUSH) s else s
  let s := if i = 0 then cells.foldl (fun s e =>
      let s := if bit q 223 then countFlags cx ((vecElem s (colScaleAddr c q sp) e.2.2.2).2 &&& fFLUSH) s else s
      if bit q 225 then countFlags cx ((vecElem s (biasAddr c q sp) e.2.2.2).2 &&& fFLUSH) s else s) s
    else s
  let mode := fld q 231 230
  let single := !needsDry s c r
  let s := if mode = 0 || !(dr.dry || single) || skipOut r sp (m / mOutRows d) then s
    else vals.foldl (fun s v => modMat c (fun r =>
      let k := amaxIx r sp m v.1.2.2.2
      let x := if single then v.2.1 else amaxUp v.2.1
      { r with amax := if isFinite x then (match (r.amax.find? (fun e => e.1 == k)).map (·.2) with
        | some u => if vlt u (vabs x) then tset r.amax k (vabs x) else r.amax
        | none => tset r.amax k (vabs x)) else r.amax }) s) s
  if dr.dry then s else
  let t := m / mOutRows d
  let a := outAddr c r sp t
  let vals := if skipOut r sp t then [] else vals
  let o := outTile (matOf s c) sp t s c
  let s := if (tget {} (matOf s c).tiles (tileKey sp t)).begun then s
    else modTile c sp t (fun x => { x with begun := true }) { s with mem := tileBegin s.mem a { o with exc := 0 } }
  let rec' := tget 0 (arrOf s c).rrecs sp
  let recFl : Exc := (if bit rec' 18 then fINEXACT else 0) ||| (if bit rec' 17 then fFLUSH else 0)
  let s := modTile c sp t (fun x => { x with owner := x.owner ||| BitVec.ofNat 8 (fld rec' 39 32), inh := x.inh ||| BitVec.ofNat 13 (fld rec' 31 19), exc := x.exc ||| recFl }) s
  vals.foldl (fun s v =>
    let (arr, row, j, col) := v.1
    let (x, fl, ev) := v.2
    let rm := m % mOutRows d
    let g := tget 0 (arrOf s c).readout (cellKey arr row j)
    let (rnd, s) : Nat × State := if bit q 229 then rndOut c arr s else (0, s)
    let (m1, conv) : Mem × Exc :=
      if bit q 227 then (putElem s.mem a o rm col (canonW96 g).toNat, 0)
      else if mode = 0 then
        let (code, cf) := encodeElem o.fmt (fld q 229 228) rnd (signed 8 o.zp) x
        (putElem s.mem a o rm col code, cf)
      else
        let (sc, sv) := flyScale o.sf o.fmt ((((matOf s c).amax.find? (fun e => e.1 == amaxIx r sp m col)).map (·.2)))
        let (code, cf) := encodeElem o.fmt (fld q 229 228) rnd 0 (if isFinite x then finDiv x sv else x)
        (putElem (putScale s.mem a o rm col sc) a o rm col code, cf)
    let s := { s with mem := m1 }
    let fl := if bit q 227 then fl &&& ~~~ fCLIP else fl
    let s := if fl ||| conv = 0 then s
      else modMat c (fun r => { r with elemFl := tset r.elemFl ((sp * 8192 + m) * 256 + col) (fl ||| conv, outCounted fl conv) }) s
    if ev then
      let rec'' := capRecord s (coreCtx s c) 0x01 {
        tag := dTag d, core := c, engine := 2, array := arr, split := sp, group := groupOf dr,
        row := i, col := j, block := dr.blk.num, detail := 2 * 2 ^ 94, addr := a, tensor := mOutTensor d }
      matEvent c 0x01 (2 ^ 120 + m * 2 ^ 16 + col) rec'' (excCount cx 0 1 s)
    else s) s

/-! ## Checksums (R172-R174) -/

/-- The value a group holds in units of 2^-1040. -/
def groupInt (g : Group) : Int := gWindow g * 2 ^ gAnchor g
def groupSpecial (g : Group) : Bool := gNan g || gPinf g || gNinf g
/-- compare of R173: none where it is left unchecked, else whether it matches. -/
def chkCompare (mem : List Group) (chk : Group) (w : Nat) : Option Bool :=
  if groupSpecial chk || mem.any groupSpecial || w = 0xFFFFFF then none else
  let sigma := (mem.map groupInt).sum
  let diff := (sigma - groupInt chk).natAbs
  if !gShed chk && !mem.any gShed then some (diff == 0)
  else some (diff < (mem.length + 1) * w * 2 ^ ((chk :: mem).map gAnchor).foldl natMax 0)
/-- The compares of one array for a split's rows: rows, then columns, by index. -/
def arrayCompare (s : State) (c : Nat) (r : MatRun) (dr : MatDrain) (p : RowPart) (a : Nat) : List (Nat × Option Bool) × List (Nat × Option Bool) :=
  let ro := fun row col => tget 0 (arrOf s c).readout (cellKey a row col)
  let ms := members s c r.desc p.1 dr.cpass a
  let w := fld (tget 0 (arrOf s c).rrecs p.1) 63 40
  let rows := (rowsIn s c a).take p.2.2
  if ms.isEmpty then ([], []) else
  (rows.map (fun row => (row, chkCompare (ms.map (fun m => ro row m.1)) (ro row (checkCol r.desc p.1)) w)),
   ms.map (fun m => (m.1, chkCompare (rows.map (fun row => ro row m.1)) (ro 64 m.1) w)))

/-- The rows of a part, as MatRun.done names them. -/
def rowKeys (sp row0 n : Nat) : List Nat := (List.range n).map (fun i => sp * 8192 + row0 + i)
/-- A column pass is a split's last under the fold map in force. -/
def lastPass (s : State) (c : Nat) (r : MatRun) (sp cp : Nat) : Bool := cp + 1 ≥ ceilDiv (mN r.desc) (splitSlots s c r.desc sp).length

/-- A write of the output stage to its output tile stalls: another unit's running descriptor retains the slot (R191, R252). -/
def outStalls (s : State) (c : Nat) (r : MatRun) (sp t : Nat) : Bool := ocRetained s (outAddr c r sp t) (64 * outUnits r.desc r.cfg)

/-- The final header of an output tile (R83, R86, R94, R146, R147). Its elements' flags count now: once for each output element,
as it was written last (R180). -/
def finishOut (c sp t : Nat) (s : State) : State :=
  let r := matOf s c
  let cx := coreCtx s c
  let a := outAddr c r sp t
  let acc := tget {} r.tiles (tileKey sp t)
  let keptHere := r.kept.any (fun k => k.split == sp && overlaps (t * mOutRows r.desc) (mOutRows r.desc) k.row0 k.rows)
  let splitBad := mSplit r.desc != 0 && tget Status.ok r.split sp != .ok || mSplit r.desc != 0 && r.tiles.any (fun e => e.1 / 4096 == sp && e.2.pois)
  let exc := acc.exc ||| (if keptHere then fCHECKSUM else 0) ||| (if splitBad then fSPLIT else 0)
  let s := modTile c sp t (fun x => { x with exc := exc, final := true, begun := true }) s
  let s := (tileFlags r sp t).foldl (fun s e => countFlags cx e.2 s) s
  let s := if splitBad then excCount cx 12 1 s else s
  let o := outTile (matOf s c) sp t s c
  if acc.pois then { s with mem := tileEnd (mzero s.mem (a + 64) o.payload) a o }
  else { s with mem := tileEnd (if o.skip then s.mem else putPadding s.mem a o) a o }
/-- Finish every tile of a split whose rows have all been read out and compared under their last column pass, unless a row block of
it has mismatched and awaits a decision or its re-execution (R175). A tile whose slot is retained stalls: it is finished when the
descriptor completes. -/
def finishReady (c sp : Nat) (s : State) : State :=
  let r := matOf s c
  (List.range (ceilDiv (mM r.desc sp) (mOutRows r.desc))).foldl (fun s t =>
    let r := matOf s c
    let n := natMin (mOutRows r.desc) (mM r.desc sp - t * mOutRows r.desc)
    let held := r.mism.any (fun k => k.split == sp && overlaps (t * mOutRows r.desc) n k.row0 k.rows)
    let all := (rowKeys sp (t * mOutRows r.desc) n).all (fun k => r.done.contains k)
    if all && !held && !(tget {} r.tiles (tileKey sp t)).final && !outStalls s c r sp t then finishOut c sp t s else s) s

/-! ## Decisions (R175, R176) -/

/-- The key of a row block of a split. -/
def blkKey (m : Mismatch) : Nat := m.split * 256 + m.blk
/-- A firmware fault-log entry about a mismatch (R427). -/
def mismLog (c kind st : Nat) (m : Mismatch) (s : State) : State :=
  faultLog kind (c * 2 ^ 11 + m.array * 2 ^ 9 + m.split * 2 ^ 7) st (ctxOf s (coreCtx s c)).part.toNat s

/-- What the firmware answers to a mismatch. -/
inductive Decision where
  | reexecute
  | retire (array : Nat) (isRow : Bool) (idx : Nat)
  | retireArray (array : Nat)
  | keep
deriving DecidableEq, Repr

/-- Two mismatches of one row block are placed at the same cell or checksum cell. -/
def samePlace (a b : Mismatch) : Bool := a.kind != 0 && a.kind == b.kind && a.array == b.array && a.row == b.row && a.col == b.col
/-- The shipped firmware's table (R176): by the re-executions made so far and where the mismatches lie. A cell's column is retired,
or its row once the array has its 4 retired columns (R155). -/
def shippedDecision (s : State) (c : Nat) (m : Mismatch) : Decision :=
  let r := matOf s c
  match tget 0 r.reexec (blkKey m) with
  | 0 => .reexecute
  | 1 =>
    if !samePlace (tget {} r.placed (blkKey m)) m then .reexecute
    else if m.kind != 1 then .retireArray m.array
    else if popcount 64 (foldOf s c m.array).cols.toNat ≥ 4 then .retire m.array true m.row
    else .retire m.array false m.col
  | _ => .keep

/-- KEEP (R175): the chosen row blocks stand with CHECKSUM; the split's status is ARRAY_MISMATCH. A tile is final once all its rows
have been written, so a block kept while the stream runs waits for its later column passes. -/
def keepAll (c kind : Nat) (sel : Mismatch → Bool) (s : State) : State :=
  ((matOf s c).mism.filter sel).foldl (fun s m =>
    let s := excCount (coreCtx s c) 11 1 (mismLog c kind (statusCode .arrayMismatch) m s)
    finishReady c m.split (modMat c (fun r => { r with
      mism := r.mism.filter (· != m), kept := r.kept ++ [m],
      split := if tget Status.ok r.split m.split == .ok then tset r.split m.split .arrayMismatch else r.split }) s)) s

/-- The plan has been streamed and drained. -/
def planDone (r : MatRun) : Bool := r.cur.item ≥ r.plan.length && r.pendDrain == none && r.drain == none

/-- One compare of a re-execution has been made. Where it was the last and none of them found a mismatch, the re-execution matches: one
transient entry (R176, R427). -/
def redoCompared (c sp blk : Nat) (s : State) : State :=
  let r := matOf s c
  let key := sp * 256 + blk
  let (left, array) := tget (0, 0) r.redo key
  let s := modMat c (fun r => { r with redo := if left ≤ 1 then tdrop (· == key) r.redo else tset r.redo key (left - 1, array) }) s
  if left = 1 && !(r.mism ++ r.kept).any (fun m => blkKey m == key)
  then mismLog c 0x0020 0 { split := sp, blk := blk, array := array } s else s

/-- Start the re-execution of the row blocks it was decided for, at the stream's end. It is a descriptor boundary (R175): the
retirements decided come into force, and the rows run under the fold map that results, as row blocks of its height. Groups that the
descriptor found held are laid out under the old map, so that under them the change waits for the descriptor's end (R157). With no
array left in service the rows are kept. -/
def redoStart (c : Nat) (s0 : State) : State :=
  let s := foldBoundary c s0
  let due := (matOf s c).mism.filter (·.again)
  if (arraysIn s c).isEmpty then keepAll c 0x0023 (·.again) s else
  let h := rowHeight s c
  let r := matOf s c
  let again := due.flatMap (fun m => rowKeys m.split m.row0 m.rows)
  let items := due.flatMap (fun m => (List.range (ceilDiv m.rows h)).flatMap (fun i =>
    planOf s c r true [{ num := m.blk, parts := [(m.split, m.row0 + i * h, natMin h (m.rows - i * h))] }]))
  let ours := fun (g : Nat) => due.any (fun m => m.blk % 4 == g % 4)
  let recOurs := fun (g : Nat) => due.any (fun m => m.split == g / 4 % 4 && m.blk % 4 == g % 4)
  let n := (arrOf s c).flight.length
  modArr c (fun x => { x with
      groups := (r.base.filter (fun e => ours e.1)).foldl (fun t e => tset t e.1 e.2) x.groups,
      recs := (r.baseRecs.filter (fun e => recOurs e.1)).foldl (fun t e => tset t e.1 e.2) x.recs,
      flight := [], pos := [], banks := [] })
    (modMat c (fun r => { r with
      mism := r.mism.filter (fun m => !m.again), plan := items, cur := {}, loads := [], waves0 := r.waves0 + n,
      redo := due.foldl (fun t m => tset t (blkKey m) ((items.filter (fun it => it.blks.any (fun b => b.num == m.blk && b.parts.any (fun p => p.1 == m.split)))).length, m.array)) r.redo,
      reexec := due.foldl (fun t m => tset t (blkKey m) (tget 0 t (blkKey m) + 1)) r.reexec,
      done := r.done.filter (fun k => !again.contains k),
      elemFl := tdrop (fun k => again.contains (k / 256)) r.elemFl,
      amax := tdrop (fun k => again.contains (k / 128)) r.amax }) s)
/-- A mismatch awaits its decision. -/
def undecided (r : MatRun) : Bool := r.mism.any (fun m => !m.again)
/-- Decide on a re-execution of the chosen row blocks; it starts at once where the stream has ended. -/
def decideAgain (c kind : Nat) (sel : Mismatch → Bool) (s : State) : State :=
  let s := ((matOf s c).mism.filter sel).foldl (fun s m => mismLog c kind 0 m s) s
  let s := modMat c (fun r => { r with mism := r.mism.map (fun m => if sel m then { m with again := true } else m) }) s
  if coreLive s c && planDone (matOf s c) && (matOf s c).mism.any (·.again) then redoStart c s else s

end Sys2Proof.Machine
end

