-- ==== Sys2Proof/Machine/Arrays.lean ====
section
/-! DEFINITION. The rows of the matrix arrays (chapters 5 and 6): a descriptor's start, the stream, the cells, the drains, the
output stage, the checksum compares and the firmware's decisions. -/

namespace Sys2Proof.Machine

/-! ## Start (R125, R132-R135) -/

/-- The captures of the refused headers of a descriptor's splits (R170), one of each cause (R171): HEADER_REFUSED, and IN_PROGRESS
for a header that is being written. -/
def refusedEvents (s : State) (c : Nat) (d : BitVec 512) (fails : List (Nat × Nat × Nat × Status)) : Tbl (Nat × BitVec 384) :=
  fails.foldl (fun t e =>
    let (sp, a, order, st) := e
    let h := tileHdr s.mem a
    let w : Where := { status := st, tensor := hTensor h, addr := a, tag := dTag d, core := c, engine := 1, split := sp }
    let t := if hVersion h = 0 then captAdd t 0x02 sp (capRecord s (coreCtx s c) 0x02 w) else t
    captAdd t 0x03 sp (capRecord s (coreCtx s c) 0x03 { w with detail := order * 2 ^ 88 })) []
/-- The streamed tiles that feed groups: split, first row, rows (R80). -/
def streamFed (s : State) (c : Nat) (d : BitVec 512) : List RowPart :=
  (activeSplits d).flatMap (fun sp => ((mStream d).tiles d (mM d sp)).filterMap (fun t =>
    if hSkip (tileHdr s.mem (unitAddr c ((mStream d).unit d sp t.1 t.2))) then none else some (sp, t.1 * (mStream d).trows, (mStream d).trows)))

/-- What the inputs of a split make of its output tiles: poison, owner sets and inherited bits of the vector tiles, payload
failures (R86, R94, R147). -/
def matInputs (c sp : Nat) (s : State) : State :=
  let r := matOf s c
  let d := r.desc
  let nOut := ceilDiv (mM d sp) (natMax 1 (mOutRows d))
  let ops := if isDrainOp d then [] else
    (((mStream d).tiles d (mM d sp)).map (fun t => (unitAddr c ((mStream d).unit d sp t.1 t.2), t.1 * (mStream d).trows, (mStream d).trows))) ++
    (((mStat d).tiles d (mN d)).map (fun t => (unitAddr c ((mStat d).unit d sp t.1 t.2), 0, mM d sp)))
  let vecs := if drains d then (vectorTiles c d r.cfg sp).map (fun t => (t.1, 0, mM d sp)) else []
  let s := ((ops ++ vecs).zip (List.range (ops ++ vecs).length)).foldl (fun s q =>
    let e := q.1
    let h := tileHdr s.mem e.1
    let bad := !hPois h && !payloadOk s.mem e.1 h
    let s := if hPois h then countPoison (coreCtx s c) 1 s else s
    let s := if bad then
        matEvent c 0x04 (sp * 2 ^ 40 + q.2) (capRecord s (coreCtx s c) 0x04 {
          status := .checksumFail, tensor := hTensor h, addr := e.1, tag := dTag d, core := c, engine := 1, split := sp,
          detail := (payloadCrc s.mem e.1 h).toNat * 2 ^ 64 })
          (modMat c (fun r => { r with split := tset r.split sp .checksumFail }) s)
      else s
    if hPois h || bad then
      (List.range nOut).foldl (fun s t => if overlaps (t * natMax 1 (mOutRows d)) (natMax 1 (mOutRows d)) e.2.1 e.2.2 then modTile c sp t (fun x => { x with pois := true }) s else s) s
    else s) s
  let s := vecs.foldl (fun s e =>
    let h := tileHdr s.mem e.1
    (List.range nOut).foldl (fun s t => modTile c sp t (fun x => { x with owner := x.owner ||| hOwner h, inh := x.inh ||| hInherit h }) s) s) s
  -- groups held from poisoned data poison every tile drained from them
  match (arrOf s c).held with
  | some x => if x.pois.contains sp then (List.range nOut).foldl (fun s t => modTile c sp t (fun x => { x with pois := true }) s) s else s
  | none => s

/-- Lay out the banks a STAT_REUSE descriptor keeps: chunk i in bank i. -/
def reuseBanks (s : State) (c : Nat) (n : Nat) : Tbl Bank :=
  (List.range 4).foldl (fun t a => (List.range (natMin n 2)).foldl (fun t i =>
    let b0 := tget {} (arrOf s c).banks (2 * a)
    let b1 := tget {} (arrOf s c).banks (2 * a + 1)
    let b := if b0.held && b0.chunk == i then b0 else b1
    tset t (2 * a + i) { b with state := .ready }) t) []

/-- Start the validated descriptor; its first load goes to bank 0 (DESIGN CHOICE, log entry 148). -/
def matBegin (c g : Nat) (d : BitVec 512) (ref : Nat) (s : State) : State :=
  let k := coreOf s c
  let fails := (activeSplits d).filterMap (fun sp => (splitFail s c d (cfgSlot s c (mCfg d)) ref sp).map (fun f => (sp, f)))
  let clear := !isDrainOp d && !accums d
  let run : MatRun := { desc := d, grain := g, cfg := cfgSlot s c (mCfg d), epoch := k.epoch, split := fails.map (fun e => (e.1, e.2.2.2)), dead := fails.map (·.1),
                        capt := refusedEvents s c d fails,
                        fed := (if clear then [] else ((k.arr.held).map (·.fed)).getD []) ++ if isDrainOp d then [] else streamFed s c d,
                        base := if clear then [] else k.arr.groups, baseRecs := if clear then [] else k.arr.recs }
  let s := modArr c (fun x => { x with
    run := some run, groups := if clear then [] else x.groups, recs := if clear then [] else x.recs, flight := [], pos := [] }) s
  let s := modMat c (fun r => { r with plan := planOf s c r false (rowBlocks r (rowHeight s c)) }) s
  let s := if isDrainOp d then s
    else if mReuse d then modArr c (fun x => { x with banks := reuseBanks s c (nChunks s c (matOf s c)) })
      (modMat c (fun r => { r with loads := (List.range 4).map (fun a => (a, nChunks s c r)) }) s)
    else modArr c (fun x => { x with banks := [] }) s
  (liveSplits (matOf s c)).foldl (fun s sp => matInputs c sp s) s

/-- The head of the queue the core takes at this boundary: grain core and descriptor; and whether both queues hold one. -/
def matHead (s : State) (c : Nat) : Option (Nat × BitVec 512 × Bool) :=
  let a := arrOf s c
  match (tget [] a.queue 0).head?, (tget [] a.queue 1).head? with
  | some d, some e => if a.turn = 0 then some (0, d, true) else some (1, e, true)
  | some d, none => some (0, d, false)
  | none, some e => some (1, e, false)
  | none, none => none

/-- Take and validate the next descriptor where it is a MATDRAIN (or is not). -/
def matStart (drain : Bool) (core : BitVec 5) (s : State) : Out :=
  let c := core.toNat
  match matHead s c with
  | none => .next s
  | some (g, d, both) =>
    if !coreLive s c || (arrOf s c).run != none || isDrainOp d != drain then .next s else
    let s := foldBoundary c s
    let s := modArr c (fun a => { a with
      queue := tset a.queue g ((tget [] a.queue g).drop 1), turn := if both then 1 - BitVec.ofNat 1 g else a.turn }) s
    match firstFailure (matChecks s c g d) with
    | some st => .next (matEnd c g d st s)
    | none =>
      if matNoop d then .next (matEnd c g d .ok s) else
      let q := cfgSlot s c (mCfg d)
      let ref := ((activeSplits d).find? (fun sp => splitFail s c d q sp sp == none)).getD (((activeSplits d).head?).getD 0)
      let fails := (activeSplits d).filterMap (fun sp => (splitFail s c d q ref sp).map (fun f => (sp, f)))
      if !(activeSplits d).isEmpty && fails.length == (activeSplits d).length then
        let sts := (List.range (nSplits d)).map (fun sp => ((fails.find? (fun e => e.1 == sp)).map (fun e => e.2.2.2)).getD .ok)
        let s := (refusedEvents s c d fails).foldl (fun s e => captureRec (coreCtx s c) e.1 e.2.2 s) s
        .next (matReport c g d (((fails.head?).map (fun e => e.2.2.2)).getD .ok) sts s)
      else .next (matBegin c g d ref s)

/-- MATMUL (R132): also a descriptor of unknown OPCODE, which is refused. -/
def execMatmul (core : BitVec 5) (s : State) : Out := matStart false core s
/-- MATDRAIN (R133). -/
def execMatdrain (core : BitVec 5) (s : State) : Out := matStart true core s

/-! ## The stream (R138, R140-R145, R151) -/

/-- The marker-only wavefront, or the part of a tag that a marker sets. -/
def markTag (p : Option MatDrain) : Nat := match p with | some m => 2 ^ 59 + groupOf m * 2 ^ 56 | none => 0
/-- The group record of a split and group under a column pass (R168). -/
def recKey (cp sp g : Nat) : Nat := (cp * 4 + sp) * 4 + g
/-- The pending drain marker enters with the wavefront of number n: the group records of its block are captured and cleared. -/
def markEnter (c n : Nat) (s : State) : State :=
  let r := matOf s c
  match r.pendDrain with
  | none => s
  | some m =>
    let s := modMat c (fun r => { r with pendDrain := none, drain := some { m with wave := n } }) s
    modArr c (fun a => m.blk.parts.foldl (fun a p =>
      let k := recKey m.cpass p.1 (groupOf m)
      { a with rrecs := tset a.rrecs p.1 (tget 0 a.recs k), recs := tset a.recs k 0 }) a) s
/-- The bank that the column injectors read: the one that is ACTIVE in an array in service (R148). -/
def bankNow (s : State) (c : Nat) : Nat :=
  if (arraysIn s c).any (fun a => (tget ({} : Bank) (arrOf s c).banks (2 * a + 1)).state == .active) then 1 else 0
/-- A marker-only wavefront: the pending drain marker, and where BANK names the other bank the tail marker of the old one (R148,
R160). -/
def markOnly (c bank : Nat) (s : State) : State :=
  let r := matOf s c
  let w : Wave := { tag := BitVec.ofNat 64 (markTag r.pendDrain + bank * 2 ^ 55 + dTag r.desc * 2 ^ 34), cpass := ((r.pendDrain).map (·.cpass)).getD 0 }
  let n := (arrOf s c).flight.length
  markEnter c n (modArr c (fun a => { a with flight := a.flight ++ [w] }) s)

/-- The place after the cursor, and the block whose drain falls due. -/
def cursorNext (s : State) (c : Nat) (r : MatRun) (it : MatItem) : Cursor × Option MatDrain :=
  let u := r.cur
  let w := kWidth s c r
  let nk := ceilDiv (natMin (chunkK s c r) (mK r.desc - u.chunk * chunkK s c r)) w
  let due := if u.chunk + 1 = nChunks s c r && drains r.desc then
      (it.blks[u.block]?).map (fun b => { cpass := it.cpass, dry := it.dry, redo := it.redo, blk := b : MatDrain }) else none
  if u.pass + 1 < (matPasses s c r).length then ({ u with pass := u.pass + 1 }, none)
  else if u.kblk + 1 < nk then ({ u with pass := 0, kblk := u.kblk + 1 }, none)
  else if u.block + 1 < it.blks.length then ({ u with pass := 0, kblk := 0, block := u.block + 1 }, due)
  else if u.chunk + 1 < nChunks s c r then ({ u with pass := 0, kblk := 0, block := 0, chunk := u.chunk + 1 }, due)
  else ({ item := u.item + 1 }, due)
def cursorMove (c : Nat) (it : MatItem) (s : State) : State :=
  let r := matOf s c
  let (u, due) := cursorNext s c r it
  modMat c (fun r => { r with cur := u, pendDrain := match due with | some d => some d | none => r.pendDrain }) s

/-- The next wavefront of the loop enters with its operands. -/
def waveOperands (c : Nat) (it : MatItem) (b : RowBlk) (bank : Nat) (s : State) : State :=
  let r := matOf s c
  let u := r.cur
  let w := kWidth s c r
  let k0 := u.chunk * chunkK s c r + u.kblk * w
  let p := ((matPasses s c r)[u.pass]?).getD (0, 0)
  let sf32 := streamFmt s c r == 0x0A
  let n := (arrOf s c).flight.length
  let g := b.num % 4
  let raw := b.parts.map (fun q => (q, (List.range q.2.2).map (fun i => rowVals s c (mStream r.desc) r.desc q.1 (q.2.1 + i) k0 w)))
  let a : Tbl (List (Nat × Val)) := raw.foldl (fun t e =>
    let vs := e.2.map (fun l => l.map (fun v => (v.1, piece sf32 p.1 (u.pass == 0) v.2.1)))
    let t := (vs.zip (List.range vs.length)).foldl (fun t q => tset t (e.1.1 * 128 + q.2) q.1) t
    tset t (e.1.1 * 128 + 64) (vs.foldl (fun o l => l.foldl edgeAdd o) [])) []
  let first := u.pass == 0
  let bv := fun (arr : Nat) => tget ({} : Bank) (arrOf s c).banks (2 * arr + bank)
  let hide := fun (l : List (Nat × Val)) => l.map (fun v => if first || isFinite v.2 then v else (v.1, vzero))
  let bs : Tbl (List (Nat × Val)) := (busyArrays s c r.desc it.cpass).foldl (fun t arr =>
    (liveSplits r).foldl (fun t sp =>
      let t := (members s c r.desc sp it.cpass arr).foldl (fun t m => tset t (arr * 128 + m.1) (hide (tget [] (bv arr).vals ((m.1 * 2 ^ 16 + u.kblk) * 4 + p.2)))) t
      tset t (arr * 128 + checkCol r.desc sp) (hide (tget [] (bv arr).sums ((sp * 2 ^ 16 + u.kblk) * 4 + p.2)))) t) []
  let valid := b.parts.foldl (fun v q => v + 2 ^ (60 + q.1)) 0
  let tag := valid + markTag r.pendDrain + bank * 2 ^ 55 + u.pass * 2 ^ 52 + g * 2 ^ 50 + b.num * 2 ^ 42 + dTag r.desc * 2 ^ 34 + k0 * 2 ^ 14 + 1
  -- an element counts at each entry; a special value enters in the first pass only (R108, R120)
  let s := raw.foldl (fun s e => e.2.foldl (fun s l => countDecodes (coreCtx s c) (l.filter (fun v => first || isFinite v.2.1)) s) s) s
  let s := markEnter c n (modArr c (fun x => { x with flight := x.flight ++ [{ tag := BitVec.ofNat 64 tag, cpass := it.cpass, blk := b, a := a, b := bs }] }) s)
  let s := modArr c (fun x => { x with recs := b.parts.foldl (fun t q => tmod 0 t (recKey it.cpass q.1 g) (recAdd s c r q k0 w)) x.recs }) s
  cursorMove c it s

/-- A wavefront names a bank, that of a load: every array in service reads it, and the other bank's tail has entered (R148). An array
that holds no columns in the column pass has nothing to load. -/
def bankSwitch (c : Nat) (busy : List Nat) (load : Nat) (s : State) : State :=
  let bank := load % 2
  let s := modMat c (fun r => { r with loads := ((arraysIn s c).filter (fun a => !busy.contains a)).foldl (fun t a => tset t a (natMax (tget 0 t a) (load + 1))) r.loads }) s
  modArr c (fun x => { x with banks := (arraysIn s c).foldl (fun t a =>
    let n := tget ({} : Bank) t (2 * a + bank)
    let o := tget ({} : Bank) t (2 * a + (1 - bank))
    let t := if n.state == .active then t else tset t (2 * a + bank) { n with state := .active }
    if o.state == .active then tset t (2 * a + (1 - bank)) { o with state := .releasing } else t) x.banks }) s

/-- WAVEFRONT_ENTER: the next wavefront of the fold loop, or a marker alone. A wavefront that R143 or R144 omits
does not enter, and switches no bank: where every wavefront of a bank is omitted, a marker-only wavefront carries the tail marker of
the bank before it (R160). A drain marker waits until the block before it has been read out and compared. At the stream's end the
re-executions decided begin (R175). -/
def execWavefrontEnter (core : BitVec 5) (s : State) : Out :=
  let c := core.toNat
  match (arrOf s c).run with
  | none => .next s
  | some r =>
    if !coreLive s c || r.saving then .next s else
    let mark := r.pendDrain != none
    if mark && r.drain != none then .next s else
    let here := bankNow s c
    match r.plan[r.cur.item]? with
    | none => if mark then .next (markOnly c here s) else if planDone r && r.mism.any (·.again) then .next (redoStart c s) else .next s
    | some it =>
      let prevDry := match r.plan[r.cur.item - 1]? with | some q => r.cur.item > 0 && q.dry | none => false
      let turnover := prevDry && !it.dry && r.cur.chunk == 0 && r.cur.block == 0 && r.cur.kblk == 0 && r.cur.pass == 0
      if turnover && mark then .next (markOnly c here s)
      else if turnover && r.drain != none then .next s
      else
        let s := if turnover then modArr c (fun x => { x with groups := r.base, recs := r.baseRecs }) s else s
        let arrs := busyArrays s c r.desc it.cpass
        match it.blks[r.cur.block]? with
        | none => .next (modMat c (fun r => { r with cur := { item := r.cur.item + 1 } }) s)
        | some b =>
          if isDrainOp r.desc then
            if r.drain != none then .next s else
            let u := if r.cur.block + 1 < it.blks.length then { r.cur with block := r.cur.block + 1 } else { item := r.cur.item + 1 : Cursor }
            .next (markOnly c here (modMat c (fun r => { r with cur := u, pendDrain := some { cpass := it.cpass, dry := it.dry, redo := it.redo, blk := b } }) s))
          else
            let load := loadAt s c r r.cur.item r.cur.chunk
            let bank := load % 2
            if !(arrs.all (fun a => tget 0 r.loads a > load)) then
              -- the bank this load goes to still serves: no wavefront of the load between has entered
              if load > 0 && arrs.any (fun a => (tget ({} : Bank) (arrOf s c).banks (2 * a + bank)).state == .active)
              then .next (markOnly c (1 - bank) (bankSwitch c arrs (load - 1) s))
              else if mark then .next (markOnly c here s) else .next s
            else
            let w := kWidth s c r
            let k0 := r.cur.chunk * chunkK s c r + r.cur.kblk * w
            let special := arrs.any (fun a => (tget ({} : Bank) (arrOf s c).banks (2 * a + bank)).special.contains r.cur.kblk)
            if allNoneTiles s c r b k0 w || (mSkip r.desc && !special && allZeroVals s c r b k0 w) then
              if mark then .next (markOnly c here s)
              else
                let cx := coreCtx s c
                let s := modArr c (fun x => { x with recs := b.parts.foldl (fun t q => tmod 0 t (recKey it.cpass q.1 (b.num % 4)) (recFeed s c r q k0 w)) x.recs }) s
                .next (cursorMove c it (setCtx s cx { ctxOf s cx with skipped := (ctxOf s cx).skipped + 1 }))
            else .next (waveOperands c it b bank (bankSwitch c arrs load s))

/-- BANK_FILL_DONE (R150): the bank that the array's next load goes to. -/
def execBankFillDone (core : BitVec 5) (array : BitVec 2) (bank : BitVec 1) (s : State) : Out :=
  let c := core.toNat
  let a := array.toNat
  match (arrOf s c).run with
  | none => .next s
  | some r =>
    let n := tget 0 r.loads a
    match (loadSeq s c r)[n]? with
    | none => .next s
    | some (cp, ch) =>
      let old := tget ({} : Bank) (arrOf s c).banks (2 * a + bank.toNat)
      if !coreLive s c || r.saving || !arrIn s c a || n % 2 != bank.toNat || old.state != .filling then .next s else
      let s := countDecodes (coreCtx s c) (fillDecodes s c a r cp ch) s
      .next (modArr c (fun x => { x with banks := tset x.banks (2 * a + bank.toNat) (fillBank s c a r cp ch) })
        (modMat c (fun r => { r with loads := tset r.loads a (n + 1) }) s))

/-- BANK_RELEASE (R149). -/
def execBankRelease (core : BitVec 5) (array : BitVec 2) (bank : BitVec 1) (s : State) : Out :=
  let c := core.toNat
  let i := 2 * array.toNat + bank.toNat
  let b := tget ({} : Bank) (arrOf s c).banks i
  if !coreLive s c || b.state != .releasing then .next s
  else .next (modArr c (fun x => { x with banks := tset x.banks i { b with state := .filling } }) s)

/-! ## Cells and drains -/

/-- What is inside the arrays goes on while a context that is fenced with save waits for its SAVE (R153, R186). -/
def arrLive (s : State) (c : Nat) : Bool :=
  coreLive s c || (isReady s && (match (coreOf s c).ctx with | some cx => (ctxOf s cx).state == .fencing && (ctxOf s cx).saveReq | none => false))

def execCellWindowAdd (core : BitVec 5) (array : BitVec 2) (row : BitVec 7) (col : BitVec 7) (s : State) : Out :=
  if arrLive s core.toNat && (arrOf s core.toNat).run != none && row.toNat ≤ 64 && col.toNat < 68
  then .next (cellStep core.toNat array.toNat row.toNat col.toNat s) else .next s

def execDrainMarkerCapture (core : BitVec 5) (array : BitVec 2) (row : BitVec 7) (col : BitVec 7) (s : State) : Out :=
  if arrLive s core.toNat && (arrOf s core.toNat).run != none && row.toNat ≤ 64 && col.toNat < 68
  then .next (cellCapture core.toNat array.toNat row.toNat col.toNat s) else .next s

/-- ROW_READOUT (R151): logical row `row` of the draining block, 64 for the checksum row. -/
def execRowReadout (core : BitVec 5) (split : BitVec 2) (row : BitVec 7) (s : State) : Out :=
  let c := core.toNat
  let sp := split.toNat
  let i := row.toNat
  match (arrOf s c).run, (matOf s c).drain with
  | some r, some dr =>
    match dr.blk.parts.find? (fun p => p.1 == sp) with
    | none => .next s
    | some p =>
      let captured := (rowCells s c r.desc sp dr.cpass i).all (fun e => tget 0 (arrOf s c).pos (cellKey e.1 e.2.1 e.2.2) ≥ 2 * dr.wave + 1)
      let stall := outStalls s c r sp ((p.2.1 + i) / natMax 1 (mOutRows r.desc))
      if !arrLive s c || !captured || dr.rows.contains (sp * 128 + i) || !(i == 64 || i < p.2.2) || stall then .next s else
      let s := if i = 64 then s else readRow c dr sp i (p.2.1 + i) s
      .next (modMat c (fun r => { r with drain := r.drain.map (fun q => { q with rows := q.rows ++ [sp * 128 + i] }) }) s)
  | _, _ => .next s

/-- CHECKSUM_COMPARE (R173, R174). An unlocated mismatch has ARRAY, ROW and COLUMN 0 in its record, and the tile a mismatch names is the
output tile of the block's first row (DESIGN CHOICE, log entry 125). One mismatch of a row block awaits one decision, whatever its
column passes find (DEDUCED, log entry 127); the fourth mismatch of a block is kept at once (R175). -/
def execChecksumCompare (core : BitVec 5) (split : BitVec 2) (s : State) : Out :=
  let c := core.toNat
  let sp := split.toNat
  match (arrOf s c).run, (matOf s c).drain with
  | some r, some dr =>
    match dr.blk.parts.find? (fun p => p.1 == sp) with
    | none => .next s
    | some p =>
      if !arrLive s c || dr.cmp.contains sp || !((List.range p.2.2 ++ [64]).all (fun i => dr.rows.contains (sp * 128 + i))) then .next s else
      let res := (arraysIn s c).map (fun a => (a, arrayCompare s c r dr p a))
      let unch := (res.map (fun e => ((e.2.1 ++ e.2.2).filter (fun q => q.2 == none)).length)).sum
      let bad := fun (l : List (Nat × Option Bool)) => (l.filter (fun q => q.2 == some false)).map (·.1)
      let mis := (res.map (fun e => (e.1, bad e.2.1, bad e.2.2))).filter (fun e => !e.2.1.isEmpty || !e.2.2.isEmpty)
      let cx := coreCtx s c
      let s := setCtx s cx { ctxOf s cx with uncheck := (ctxOf s cx).uncheck + unch }
      let s := modMat c (fun r => { r with drain := r.drain.map (fun q => { q with cmp := q.cmp ++ [sp] }) }) s
      let s :=
        match mis with
        | [] =>
          s
        | (a, rows, cols) :: rest =>
          let nr := rows.length + (rest.map (fun e => e.2.1.length)).sum
          let nc := cols.length + (rest.map (fun e => e.2.2.length)).sum
          let kind := if !rest.isEmpty then 0 else if nr = 1 && nc = 1 then 1 else if nr = 1 && nc = 0 then 2 else if nr = 0 && nc = 1 then 3 else 0
          let row := if kind = 1 || kind = 2 then (rows.head?).getD 0 else if kind = 3 then 64 else 0
          let col := if kind = 1 || kind = 3 then (cols.head?).getD 0 else if kind = 2 then checkCol r.desc sp else 0
          let arr := if kind = 0 then 0 else a
          let n := tget 0 r.reexec (sp * 256 + dr.blk.num)
          let rec' := capRecord s (coreCtx s c) 0x05 {
            tag := dTag r.desc, core := c, engine := 1, array := arr, split := sp, group := groupOf dr, row := row, col := col,
            block := dr.blk.num, addr := outAddr c r sp (p.2.1 / natMax 1 (mOutRows r.desc)), tensor := mOutTensor r.desc,
            detail := natMin nr 255 * 2 ^ 88 + natMin nc 255 * 2 ^ 80 + n * 2 ^ 72 + kind * 2 ^ 64 }
          let s := matEvent c 0x05 (dr.blk.num * 4 + sp) rec' s
          let m : Mismatch := { split := sp, blk := dr.blk.num, row0 := p.2.1, rows := p.2.2, array := arr, kind := kind, row := row, col := col }
          if (r.mism ++ r.kept).any (fun q => blkKey q == blkKey m && q.row0 == m.row0) then s else
          let s := modMat c (fun r => { r with mism := r.mism ++ [m], placed := if n = 0 then tset r.placed (blkKey m) m else r.placed }) s
          if n ≥ 3 then keepAll c 0x0023 (· == m) s else s
      let s := if dr.redo then redoCompared c sp dr.blk.num s else s
      let s := if dr.dry || !lastPass s c r sp dr.cpass then s
        else finishReady c sp (modMat c (fun r => { r with done := r.done ++ rowKeys sp p.2.1 p.2.2 }) s)
      .next (modMat c (fun r => { r with drain := match r.drain with
        | some q => if q.blk.parts.all (fun p => q.cmp.contains p.1) then none else some q
        | none => none }) s)
  | _, _ => .next s

/-! ## Decisions (R175, R176) -/

/-- A decision of the firmware reaches the core while mismatches are undecided, also in a SAVE that waits for it (R186). -/
def decide' (core : BitVec 5) (f : State → State) (s : State) : Out :=
  match (arrOf s core.toNat).run with
  | some r => if arrLive s core.toNat && undecided r then .next (f s) else .next s
  | none => .next s
/-- The undecided mismatches to which the shipped firmware's table gives a decision. -/
def decidedAs (s : State) (c : Nat) (p : Decision → Bool) (m : Mismatch) : Bool := !m.again && p (shippedDecision s c m)

/-- REEXECUTE: the row blocks to which the table gives it run again once the stream has ended. -/
def execReexecute (core : BitVec 5) (s : State) : Out :=
  decide' core (fun s => decideAgain core.toNat 0x0021 (decidedAs s core.toNat (· == .reexecute)) s) s

/-- RETIRE_AND_REEXECUTE: the line is that of the cell where both mismatches lie; a mismatch placed in a checksum cell retires the
array (R155, R176). A line that no mismatch gives is not retired. -/
def execRetireAndReexecute (core : BitVec 5) (array : BitVec 2) (isRow : Bool) (idx : BitVec 6) (s : State) : Out :=
  decide' core (fun s =>
    let c := core.toNat
    let a := array.toNat
    let line := decidedAs s c (fun q => q == .retire a isRow idx.toNat)
    let whole := decidedAs s c (fun q => q == .retireArray a)
    let l := (matOf s c).mism
    let k := coreOf s c
    let s1 := setCore s c { k with pendFold := k.pendFold ++ (if l.any line then [(a, isRow, idx.toNat, false)] else []) ++ (if l.any whole then [(a, false, 0, true)] else []) }
    decideAgain c 0x0022 (fun m => line m || whole m) s1) s

/-- KEEP: the row blocks to which the table gives it. -/
def execKeep (core : BitVec 5) (s : State) : Out := decide' core (fun s => keepAll core.toNat 0x0023 (decidedAs s core.toNat (· == .keep)) s) s
/-- No decision within 50 µs: the core keeps every undecided row block. -/
def execMismatchDecisionTimeout (core : BitVec 5) (s : State) : Out := decide' core (fun s => keepAll core.toNat 0x0023 (fun m => !m.again) s) s

/-! ## Completion and SAVE -/

/-- The descriptor's status: the first split status in split order that is not OK (R136). -/
def matStatus (r : MatRun) : Status := (((activeSplits r.desc).map (fun sp => tget Status.ok r.split sp)).find? (· != .ok)).getD .ok

/-- Complete the running descriptor. The boundary that follows brings retirements into force; after FAIL_STEP the context is fenced
(R341). -/
def matComplete (c : Nat) (s : State) : State :=
  let s := if holdsMode (matOf s c).desc then settleCells c s else s
  let r := matOf s c
  let s := matCaptures c r (fun sp => tget Status.ok r.split sp) s
  let pois := (liveSplits r).filter (fun sp => tget Status.ok r.split sp == .checksumFail || r.tiles.any (fun e => e.1 / 4096 == sp && e.2.pois))
  let keep := colPasses s c r.desc == 1 && !isDrainOp r.desc && nChunks s c r ≤ 2 && r.reexec.isEmpty
  let s := modArr c (fun a => { a with
    run := none, flight := [], pos := [],
    held := if holdsMode r.desc then some { shape := heldShape r.desc, grain := r.grain, pois := pois, fed := r.fed } else none,
    lastStat := if isDrainOp r.desc then a.lastStat else if keep then some (r.grain, r.desc, liveSplits r) else none }) s
  let s := matReport c r.grain r.desc (matStatus r) ((List.range (nSplits r.desc)).map (fun sp => tget Status.ok r.split sp)) (foldBoundary c s)
  if r.failStep then fenceStart (coreCtx s c) false s else s

/-- Everything has been streamed, drained, compared and decided, and every tile's header written (R136). -/
def matReady (s : State) (c : Nat) (r : MatRun) : Bool :=
  coreLive s c && planDone r && r.mism.isEmpty &&
    (!drains r.desc || (liveSplits r).all (fun sp =>
      (List.range (ceilDiv (mM r.desc sp) (natMax 1 (mOutRows r.desc)))).all (fun t => (tget {} r.tiles (tileKey sp t)).final)))
/-- MATRIX_COMPLETION (R136). -/
def execMatrixCompletion (core : BitVec 5) (s : State) : Out :=
  match (arrOf s core.toNat).run with
  | none => .next s
  | some r =>
    let c := core.toNat
    let s := if coreLive s c && drains r.desc then (liveSplits r).foldl (fun s sp => finishReady c sp s) s else s
    if matReady s c (matOf s c) then .next (matComplete c s) else .next s

/-- FAIL_STEP: as KEEP, for every undecided row block, and the firmware fences the context (R341) when the descriptor has completed
with its own status (DEDUCED, log entry 127). -/
def execFailStep (core : BitVec 5) (s : State) : Out :=
  let c := core.toNat
  decide' core (fun s =>
    let s := modMat c (fun r => { r with failStep := true }) (keepAll c 0x0024 (fun m => !m.again) s)
    if matReady s c (matOf s c) then matComplete c s else s) s

/-- ARRAY_SAVE (R153): for a time-slice switch or a fence with save. A SAVE marker enters, what entered before it is settled, and every
group is frozen; a pending decision and a block being read out are waited for (R186). -/
def execArraySave (core : BitVec 5) (s : State) : Out :=
  let c := core.toNat
  match (coreOf s c).ctx with
  | none => .next s
  | some cx =>
    let k := ctxOf s cx
    let asked := k.switching || (k.state == .fencing && k.saveReq)
    let idle := match (arrOf s c).run with | some r => !undecided r && r.drain == none && !r.saving | none => true
    if !isReady s || !asked || !idle then .next s else
    let s := modArr c (fun a => { a with flight := a.flight ++ [{ tag := BitVec.ofNat 64 (2 ^ 58) }] }) s
    let s := if (arrOf s c).run == none then s else modMat c (fun r => { r with saving := true }) (settleCells c s)
    .next (modArr c (fun a => { a with save := a.groups }) s)

/-- What the arrays restore with a saved core (R153): the groups, and the bank that the first wavefront names refills. The numbering of
the descriptor's wavefronts goes on. -/
def arraysResume (s : State) (c : Nat) : State :=
  let a := arrOf s c
  let n := a.flight.length
  let a := { a with groups := a.save, banks := [], lastStat := none, turn := 0, flight := [], pos := [] }
  match a.run with
  | none => modArr c (fun _ => a) s
  | some r =>
    let load := loadAt s c r r.cur.item r.cur.chunk
    modArr c (fun _ => { a with run := some { r with saving := false, waves0 := r.waves0 + n, loads := (List.range 4).map (fun i => (i, load)) } }) s

end Sys2Proof.Machine
end

