-- ==== Sys2Proof/Machine/LinkOps.lean ====
section
/-! DEFINITION. Operations on the Furlong links (chapter 9): frame fields, the hop trailer, queues and credits, a link's
state changes and fence, path records, transfers in flight, and admission against a reservation (R285). -/

namespace Sys2Proof.Machine

/-! ## Frame fields (R270) -/

def fType (h : BitVec 256) : Nat := fld h 255 248
def fClass (h : BitVec 256) : Nat := fld h 247 246
def fFirst (h : BitVec 256) : Bool := bit h 245
def fLast (h : BitVec 256) : Bool := bit h 244
def fLate (h : BitVec 256) : Bool := bit h 243
def fHops (h : BitVec 256) : Nat := fld h 241 240
def fPath (h : BitVec 256) : Nat := fld h 239 228
def fPart (h : BitVec 256) : Nat := fld h 227 224
def fCtx (h : BitVec 256) : Nat := fld h 223 216
def fGen (h : BitVec 256) : Nat := fld h 215 208
def fEpoch (h : BitVec 256) : Nat := fld h 207 176
def fSeq (h : BitVec 256) : Nat := fld h 175 144
def fPathSeq (h : BitVec 256) : Nat := fld h 143 96
def fTransfer (h : BitVec 256) : Nat := fld h 95 80
def fOffset (h : BitVec 256) : Nat := fld h 79 48
def fLength (h : BitVec 256) : Nat := fld h 47 34
def fBound (h : BitVec 256) : Int := signed 32 (fld h 31 0)

/-- The codes of R271. -/
def knownType (t : Nat) : Bool :=
  [0x01, 0x02, 0x03, 0x10, 0x11, 0x12, 0x13, 0x20, 0x21, 0x22, 0x23, 0x24, 0x25, 0x30, 0x31, 0x3F].contains t

/-- Header of a control frame of a path (0 for link control). -/
def ctrlHdr (ty path transfer len : Nat) : BitVec 256 :=
  BitVec.ofNat 256 (ty * 2 ^ 248 + 2 * 2 ^ 246 + path % 4096 * 2 ^ 228 + transfer % 65536 * 2 ^ 80 + len * 2 ^ 34 + 0x7FFFFFFF)
/-- A control frame with a payload. -/
def ctrlFrame (ty path transfer : Nat) (payload : Bytes) : Frame :=
  { hdr := ctrlHdr ty path transfer payload.length, payload := payload }

/-- A control frame of a path, with the transit hops it may still take (R278). -/
def pathFrame (ty path transfer hops : Nat) (payload : Bytes) : Frame :=
  { ctrlFrame ty path transfer payload with hdr := setFld (ctrlHdr ty path transfer payload.length) 241 240 hops }
/-- One towards the origin: it may take as many as a path can have (DEDUCED, log entry 134). -/
def backFrame (ty path transfer : Nat) (payload : Bytes) : Frame := pathFrame ty path transfer 3 payload

/-! ## The hop trailer (R272) -/

def gmac (key iv aad : Bytes) : BitVec 128 := (Config.gcmSeal key iv aad []).2
def txKey (s : State) (l : Nat) : Bytes := keyOf s (0x120 + 2 * l)
def rxKey (s : State) (l : Nat) : Bytes := keyOf s (0x121 + 2 * l)
/-- GMAC over header, payload and path tag; the IV is the salt followed by TXC. A key slot holds 32 key bytes and 4 of
salt. -/
def hopTag (key : Bytes) (f : Frame) : BitVec 128 :=
  gmac (key.take 32) (slice key 32 4 ++ bytesBE 8 f.txc.toNat)
    (bytesBE 32 f.hdr.toNat ++ f.payload ++ (if f.payload.isEmpty then [] else bytesBE 16 f.ptag.toNat))

/-- The hop check of R271 and R272: code, reserved fields, length, tag, and a TXC above the last one accepted. -/
def hopOk (s : State) (l : Nat) (f : Frame) : Bool :=
  knownType (fType f.hdr) && fClass f.hdr != 3 && !bit f.hdr 242 && fld f.hdr 33 32 == 0 && fLength f.hdr ≤ 8192 &&
  f.payload.length == fLength f.hdr && f.txc.toNat > (linkOf s l).rxTxc.toNat && f.htag == hopTag (rxKey s l) f

/-- A frame leaves on a link: TXC advances, and the trailer is sealed. The frames that bring a link up carry none (R271). -/
def sendFrame (l : Nat) (f : Frame) (s : State) : State :=
  let k := linkOf s l
  if k.state == .up || k.state == .fenced then
    let f := { f with txc := k.txc + 1 }
    emit (setLink s l { k with txc := k.txc + 1 }) (.frame l { f with htag := hopTag (txKey s l) f })
  else emit s (.frame l f)

/-- Queue a control frame. -/
def sendCtrl (l : Nat) (f : Frame) (s : State) : State :=
  let k := linkOf s l
  setLink s l { k with ctrlQ := k.ctrlQ ++ [{ f := f, cls := 2 }] }
/-- Queue a frame of a class. -/
def queueFrame (l : Nat) (t : TxFrame) (s : State) : State :=
  let k := linkOf s l
  if t.cls = 0 then setLink s l { k with bndQ := k.bndQ ++ [t] } else setLink s l { k with unbQ := k.unbQ ++ [t] }

/-! ## Credits (R275) -/

def creditsOf (len : Nat) : Nat := ceilDiv (48 + len) 256
/-- Bounded credits of a reservation: ceil(r × 2 µs ÷ 256 bytes) + 33, at 781.25 MB/s a unit. -/
def boundedCredits (rate : Nat) : Nat := ceilDiv (rate * 15625) 2560 + 33
def ubKey (pool : Nat) : Nat := 8192 + pool
/-- Credits at the start: 4 for each share unit; the transit pool takes the remainder of 1,024. -/
def startCredits (s : State) (l : Nat) : Tbl Nat :=
  let ps := (List.range 16).map (fun p => (ubKey p, 4 * shareOf s l p))
  ps ++ [(ubKey 16, 1024 - (ps.map (·.2)).sum)]
/-- A stored frame leaves the receive buffer of the link it arrived on; the next ACK returns its credits. -/
def returnCredits (src : Option (Nat × Nat × Nat)) (s : State) : State :=
  match src with
  | some (l, q, n) => setLink s l { linkOf s l with retCred := (linkOf s l).retCred ++ [(q, n)] }
  | none => s

/-- Queued frames are dropped, and the credits of those that were to be forwarded go back (R275). -/
def dropQueued (l : Nat) (p : TxFrame → Bool) (s : State) : State :=
  let k := linkOf s l
  ((k.bndQ ++ k.unbQ).filter p).foldl (fun s t => returnCredits t.src s)
    (setLink s l { k with bndQ := k.bndQ.filter (fun t => !p t), unbQ := k.unbQ.filter (fun t => !p t) })
/-- Frames of a path that wait in a receive buffer are dropped, and their credits go back (R275). -/
def dropHeld (key : Nat) (s : State) : State :=
  (s.paths.held.filter (fun x => x.2.1 == key)).foldl (fun s x => returnCredits (some (x.1, fSeq x.2.2.hdr, creditsOf (fLength x.2.2.hdr))) s)
    { s with paths := { s.paths with held := s.paths.held.filter (fun x => x.2.1 != key) } }
/-- The receive buffer of a link is cleared (R265): the frames it held for other links go with it, and those that waited in it. -/
def clearBuffer (l : Nat) (s : State) : State :=
  let other (t : TxFrame) : Bool := !(t.src.any (fun x => x.1 == l))
  { s with links := s.links.map (fun e => (e.1, { e.2 with bndQ := e.2.bndQ.filter other, unbQ := e.2.unbQ.filter other })),
           paths := { s.paths with held := s.paths.held.filter (fun x => x.1 != l) } }

/-! ## States (R263) -/

def linkCode : LinkState → Nat
  | .down => 0 | .training => 1 | .hello => 2 | .attest => 3 | .keyed => 4 | .up => 5 | .fenced => 6 | .retired => 7
/-- A retired link stays retired across resets (R264). -/
def linkSt (s : State) (l : Nat) : LinkState := if bit s.nvm.retiredLks l then .retired else (linkOf s l).state
def linkUp (s : State) (l : Nat) : Bool := linkSt s l == .up
def linkRef (s : State) (l : Nat) : Bool := bit s.pkg.refclk (if l < 16 then 1 else 0)

/-- A change of state, with its LINK_STATE event (R263, R323). -/
def linkMove (l : Nat) (new_ : LinkState) (cause : Nat) (s : State) : State :=
  let k := linkOf s l
  let body := [BitVec.ofNat 8 l, BitVec.ofNat 8 (linkCode k.state), BitVec.ofNat 8 (linkCode new_), BitVec.ofNat 8 cause] ++
    bytesBE 2 k.d ++ bytesBE 8 k.peer.toNat
  postDev 0x0010 body (emit (setLink s l { k with state := new_, cause := BitVec.ofNat 8 cause }) (.linkState l (linkCode new_)))

/-- The link enters DOWN: its keys, buffer, queues and credits are gone (R265, R268); a failed link waits before it is
retried (R264). -/
def linkDown (l cause : Nat) (s : State) : State :=
  let s := linkMove l .down cause s
  let k := linkOf s l
  let s := clearBuffer l (zeroKeys (fun n => n == 0x120 + 2 * l || n == 0x121 + 2 * l) s)
  setLink s l { linkReset with cause := k.cause, wait := natMin 60 (2 * k.wait), retryOk := false, polWait := cause == 0x09,
                               fences := k.fences, misroute := k.misroute, degWin := k.degWin }

/-! ## Path records and forwarding entries (R278) -/

def pathKey (die path : Nat) : Nat := die * 4096 + path
def entryOf (s : State) (key : Nat) : BitVec 128 := tget 0 s.paths.table key
def eValid (e : BitVec 128) : Bool := bit e 127
def eRole (e : BitVec 128) : Nat := fld e 126 125
def eOutLink (e : BitVec 128) : Nat := fld e 124 120
def eOutPath (e : BitVec 128) : Nat := fld e 119 108
def eHops (e : BitVec 128) : Nat := fld e 107 106
def ePart (e : BitVec 128) : Nat := fld e 105 102
def eSendCtx (e : BitVec 128) : Nat := fld e 101 94
def eSendGen (e : BitVec 128) : Nat := fld e 93 86
def eSlot (e : BitVec 128) : Nat := fld e 85 76
def eWindow (e : BitVec 128) : Nat := fld e 75 70
def eResv (e : BitVec 128) : Nat := fld e 69 62
def eD (e : BitVec 128) : Nat := fld e 61 50
def mkEntry (role out outPath hops part ctx gen slot win resv d : Nat) : BitVec 128 :=
  BitVec.ofNat 128 (2 ^ 127 + role * 2 ^ 125 + out % 32 * 2 ^ 120 + outPath % 4096 * 2 ^ 108 + hops % 4 * 2 ^ 106 + part % 16 * 2 ^ 102 +
    ctx % 256 * 2 ^ 94 + gen % 256 * 2 ^ 86 + slot % 1024 * 2 ^ 76 + win % 64 * 2 ^ 70 + resv % 256 * 2 ^ 62 + natMin d 4095 * 2 ^ 50)
def setEntry (key : Nat) (e : BitVec 128) (s : State) : State :=
  { s with paths := { s.paths with table := tset s.paths.table key e } }

/-- The entry of a frame that goes towards the origin: it arrives on the entry's outgoing link under its OUT_PATH. -/
def backEntry (s : State) (l path : Nat) : Option Nat :=
  (s.paths.table.find? (fun e => eValid e.2 && eRole e.2 ≤ 1 && eOutLink e.2 == l && eOutPath e.2 == path)).map (·.1)

/-- The credit pool of frames that a path's entry sends. -/
def poolOf (e : BitVec 128) : Nat := if eRole e = 1 then 16 else ePart e
def bdKey (e : BitVec 128) : Nat := poolOf e * 256 + eResv e

/-- The mirror of partition p ends, with the epoch and a status (R374). -/
def mirrorEnd (p : Nat) (st : Status) (s : State) : State :=
  let q := partOf s p
  match q.step.mirEpoch with
  | none => s
  | some e => postJoint 4 p (bytesBE 4 e.toNat ++ bytesBE 2 (statusCode st))
      (setPart s p { q with step := { q.step with mirEpoch := none, mirDone := st == .ok } })
/-- A mirror or a restore stream on a path ends with it (R374). -/
def streamCut (key : Nat) (s : State) : State :=
  let p := ePart (entryOf s key)
  let v := (partOf s p).step
  let s := match v.path with
    | some (die, path) => if pathKey die path = key then mirrorEnd p .linkLost s else s
    | none => s
  match (partOf s p).step.sendBack with
  | some (_, k, _, _) => if k = key then setPart s p { partOf s p with step := { (partOf s p).step with sendBack := none } } else s
  | none => s

/-- A frame that no path takes is dropped and counted (R278). -/
def misrouted (l : Nat) (s : State) : State := setLink s l { linkOf s l with misroute := (linkOf s l).misroute + 1 }
/-- A transit passes a control frame of a path on: one hop less, its PATH rewritten (R278). -/
def passOn (l path : Nat) (f : Frame) (s : State) : State := sendCtrl l { f with hdr := setFld (setFld f.hdr 241 240 (fHops f.hdr - 1)) 239 228 path } s

/-- A path closes or is lost at this device: its entry is cleared, its keys zeroised, its charges and credits released
(R422), and its reservation loses CONFIRMED. -/
def pathFree (key : Nat) (s : State) : State :=
  let e := entryOf s key
  let s := dropHeld key (if eValid e && eRole e = 0 then streamCut key s else s)
  let r := pathOf s key
  let s := if r.slot != 0 then zeroKeys (fun n => n == r.slot || n == r.slot + 1) s else s
  let s := if !eValid e || eRole e = 2 then s else dropQueued (eOutLink e) (fun t => fPath t.f.hdr == eOutPath e && t.cls != 2) s
  let s := if eRole e = 2 then s else
    let k := linkOf s (eOutLink e)
    setLink s (eOutLink e) { k with charge := tmod 0 k.charge (poolOf e) (fun u => u - r.units), creds := tdrop (· == bdKey e) k.creds }
  let s := match r.links.head? with
    | some l => if eRole e = 0 then s else setLink s l { linkOf s l with alloted := (linkOf s l).alloted - r.creds }
    | none => s
  let s := if eRole e = 0 && r.units != 0 then
      setPart s (ePart e) { partOf s (ePart e) with buckets := tmod {} (partOf s (ePart e)).buckets r.resv (fun b => { b with conf := false }) }
    else if eRole e = 1 then { s with paths := { s.paths with transit := tmod {} s.paths.transit (eResv e) (fun b => { b with conf := false }) } }
    else s
  { s with paths := { s.paths with table := tdrop (· == key) s.paths.table, recs := tdrop (· == key) s.paths.recs } }

/-- A transfer ends at its origin (R282): its mover notes the status; a late one counts for its partition (R286). The
mirror of a partition ends with a status other than OK, or counts its tile (R374). -/
def transferDone (key transfer : Nat) (st : Status) (s : State) : State :=
  let r := pathOf s key
  match r.flight.find? (fun x => x.1 == transfer) with
  | none => s
  | some (_, t) =>
    let p := ePart (entryOf s key)
    let s := setPath s key { r with flight := r.flight.filter (fun x => x.1 != transfer) }
    let s := if st == .late then setPart s p { partOf s p with lateCnt := (partOf s p).lateCnt + 1 } else s
    match t.mirror with
    | some q =>
      if q ≥ 16 then s else
      let v := (partOf s q).step
      if st == .ok || st == .late then setPart s q { partOf s q with step := { v with mirDel := v.mirDel + 1 } }
      else match v.mirEpoch with
        | none => s
        | some e => postJoint 4 q (bytesBE 4 e.toNat ++ bytesBE 2 (statusCode st))
            (setPart s q { partOf s q with step := { v with mirEpoch := none, mirDone := false } })
    | none => modMover (eSendCtx (entryOf s key)) t.core t.mover (fun u => { u with stats := tset u.stats transfer st }) s

/-- Every transfer of a path ends. -/
def transfersDone (key : Nat) (st : Status) (s : State) : State :=
  (pathOf s key).flight.foldl (fun s x => transferDone key x.1 st s) s

/-- PATH_STATE to a partition: 0 LOST, 1 DEGRADED, 2 CLOSED (R323). A loss reaches the fabric manager too (R290, DEDUCED, log entry 135). -/
def pathState (key code : Nat) (s : State) : State :=
  let body : Bytes := [BitVec.ofNat 8 (key / 4096)] ++ bytesBE 2 (key % 4096) ++ [BitVec.ofNat 8 code]
  let s := postTo (ePart (entryOf s key)) 0x0012 0 0 body s
  if code = 0 then postDev 0x0012 body s else s

/-- A PATH_OPEN request that waited for its path is answered. -/
def pathAnswer (key : Nat) (st : Status) (s : State) : State :=
  match (pathOf s key).req with
  | some q => respondLate q 0x0221 st (if st == .ok then bytesBE 2 (key % 4096) else []) (setPath s key { pathOf s key with req := none })
  | none => s

/-! ## Admission (R284, R285) -/

def rValid (e : BitVec 64) : Bool := bit e 63
def rKind (e : BitVec 64) : Nat := fld e 62 60
def rDie (e : BitVec 64) : Nat := fld e 58 58
def rPath (e : BitVec 64) : Nat := fld e 57 46
def rStack (e : BitVec 64) : Nat := fld e 45 42
def rRate (e : BitVec 64) : Nat := fld e 41 34
def rDepth (e : BitVec 64) : Nat := fld e 33 18

/-- A share unit of a resource in 10^-7 bytes per ns. -/
def unitRate (s : State) (kind : Nat) : Nat :=
  if kind = 0 then 7812500 else if kind = 1 then 125000000
  else if s.host.rate = 1600 then 7812500 else if s.host.rate = 800 then 3906250 else 1953125
/-- Fill rate r of a reservation in 10^-7 bytes per ns. -/
def fillRate (s : State) (e : BitVec 64) : Nat := rRate e * unitRate s (rKind e)
def depthOf (e : BitVec 64) : Nat := rDepth e * 1024 * 10000000
/-- Tokens of a bucket at a time; a bucket that never ran is full. -/
def tokens (s : State) (e : BitVec 64) (b : Bucket) (t : Nat) : Nat :=
  if b.live then natMin (depthOf e) (b.tok + (t - b.last) * fillRate s e) else depthOf e

/-- What admission answers. -/
inductive Admit where
  | accepted
  | notAdmitted
  | deferred (earliest : Nat)
deriving DecidableEq, Repr

/-- A link path carries the bounded class now: its reservation is confirmed, and every link of it is up, not degraded and
within 200 ns (R285). -/
def pathBounded (s : State) (p j : Nat) (e : BitVec 64) : Bool :=
  let key := pathKey (rDie e) (rPath e)
  let r := pathOf s key
  let t := entryOf s key
  (tget {} (partOf s p).buckets j).conf && eValid t && eRole t == 0 && r.phase == 3 && r.degr.isEmpty && r.allUp &&
  linkUp s (eOutLink t) && !(linkOf s (eOutLink t)).degraded && (linkOf s (eOutLink t)).d ≤ 200

/-- The admission of R285 for reservation j of partition p, at time t. -/
def admitAt (t p j c : Nat) (s : State) : Admit × State :=
  let e := resvOf s p j
  let b := tget {} (partOf s p).buckets j
  if (rKind e = 0 && !pathBounded s p j e) || c * 10000000 > depthOf e then (.notAdmitted, s) else
  let tok := tokens s e b t
  let need := c * 10000000
  let put (k : Nat) : State := setPart s p { partOf s p with buckets := tset (partOf s p).buckets j { b with tok := k, last := t, live := true } }
  if tok < need then (.deferred (t + ceilDiv (need - tok) (natMax 1 (fillRate s e))), put tok)
  else (.accepted, put (tok - need))
def admitNow (p j c : Nat) (s : State) : Admit × State := admitAt (now s) p j c s

end Sys2Proof.Machine
end

