-- ==== Sys2Proof/Machine/PartOps.lean ====
section
/-! DEFINITION. Operations on partitions and contexts (chapter 11): slices, firmware-private areas, zero-on-first-touch
work, teardown, partition reset, notification of the host. -/

namespace Sys2Proof.Machine

/-! ## Slices (R226, R326) -/

def hbmEnd : Nat := 0xC000000000
def sliceOf (pa : Nat) : Nat := pa / 2 ^ 32
def stackOf (pa : Nat) : Nat := pa / 2 ^ 36
/-- Channel of a line within its stack. -/
def channelOf (pa : Nat) : Nat := nbits pa 12 8 ^^^ nbits pa 17 13
def sealedEnable (m : Mem) (p n : Nat) : Bool := nbit (pSealed m p) n
/-- The partition of the active set that holds a slice. -/
def partOfSlice (s : State) (n : Nat) : Option Nat :=
  (List.range 16).find? (fun p => pEnabledIn (active s) p && nbit (pSlices (active s) p) n)
def slicesOf (s : State) (p : Nat) : List Nat := (List.range 192).filter (fun n => nbit (pSlices (active s) p) n)
/-- The slices that a physical range touches. -/
def slicesIn (pa len : Nat) : List Nat :=
  if len = 0 then [] else (List.range ((pa + len - 1) / 2 ^ 32 - pa / 2 ^ 32 + 1)).map (fun i => pa / 2 ^ 32 + i)
/-- Bytes of data area in front of a slice's metadata area (R227). -/
def dataArea : Nat := 0xE0000000

/-! ## Firmware-private areas (R426) -/

/-- Insertion by base address. -/
def insertBy (x : Nat × Nat) : List (Nat × Nat) → List (Nat × Nat)
  | [] => [x]
  | y :: t => if x.1 ≤ y.1 then x :: y :: t else y :: insertBy x t
def sortBy (l : List (Nat × Nat)) : List (Nat × Nat) := l.foldr insertBy []

/-- Physical ranges that the partition's regions and firmware-private areas cover. -/
def coveredIn (s : State) (p : Nat) : List (Nat × Nat) :=
  s.ctxs.flatMap (fun e => if e.2.state != .free && e.2.part.toNat == p then
      (e.2.regions.filterMap (fun r => if regValid r.2 then some (regPBase r.2, regSize r.2) else none)) ++ e.2.areas else [])
    ++ (partOf s p).snap.areas
/-- The gaps of [lo, hi) that sorted ranges leave. -/
def gaps (lo hi : Nat) : List (Nat × Nat) → List (Nat × Nat)
  | [] => if lo < hi then [(lo, hi - lo)] else []
  | (b, n) :: t =>
    if b + n ≤ lo then gaps lo hi t
    else if hi ≤ b then (if lo < hi then [(lo, hi - lo)] else [])
    else (if lo < b then [(lo, b - lo)] else []) ++ gaps (natMax lo (b + n)) hi t
/-- Take n bytes from the front of free ranges. -/
def takeFree : Nat → List (Nat × Nat) → Option (List (Nat × Nat))
  | 0, _ => some []
  | _, [] => none
  | n, (b, k) :: t => if n ≤ k then some [(b, n)] else (takeFree (n - k) t).map (fun r => (b, k) :: r)
/-- Place n bytes in the free sealed data area of the partition's slices, lowest address first. -/
def placeArea (s : State) (p n : Nat) : Option (List (Nat × Nat)) :=
  let occ := sortBy (coveredIn s p)
  takeFree n ((slicesOf s p).flatMap (fun k =>
    if sealedEnable (active s) p k then gaps (k * 2 ^ 32) (k * 2 ^ 32 + dataArea) occ else []))

/-! ## Zero-on-first-touch (R249) -/

/-- The answer to a bus master. -/
def answer (m : Master) (st : Status) (data : Bytes) (s : State) : State := emit s (.mem m st data)
/-- A line written counts in HBM_KIB_WRITTEN of its stack (R416). -/
def countLine (pa : Nat) (s : State) : State :=
  let k := stackOf pa
  let n := tget 0 s.hbm.linesW k + 1
  let s := { s with hbm := { s.hbm with linesW := tset s.hbm.linesW k (n % 16) } }
  if n = 16 then ledgerAdd (15 + k) 1 s else s
/-- The physical range of memory is returned to the untouched state: its bytes read as zero, and its counters and
poison are gone. Writes that waited on a group of it have completed under the old key (R249). -/
def forget (pa len : Nat) (s : State) : State :=
  let inR (g : Nat) : Bool := pa / 4096 ≤ g && g < (pa + len) / 4096
  let s := ((s.hbm.groups.filter (fun e => inR e.1)).flatMap (fun e => (e.2.trig.toList ++ e.2.waiting).filter (·.reply))).foldl (fun s w => answer w.master .ok [] s) s
  { s with mem := mzero s.mem pa len,
           hbm := { s.hbm with groups := tdrop inR s.hbm.groups,
                               poison := s.hbm.poison.filter (fun l => !(pa / 64 ≤ l && l < (pa + len) / 64)) } }
/-- A region's zero-on-first-touch work is queued. -/
def zotQueue (c i : Nat) (e : BitVec 128) (s : State) : State :=
  let s := forget (regPBase e) (regSize e) s
  { s with hbm := { s.hbm with zotQ := s.hbm.zotQ ++ [{ ctx := c, entry := i, base := regPBase e, len := regSize e, isSealed := regSealed e, since := now s }] } }
/-- ZOT set in an entry, and its work queued. -/
def zotStart (c i : Nat) (e : BitVec 128) (s : State) : State :=
  let k := ctxOf s c
  zotQueue c i e (setCtx s c { k with regions := tset k.regions i (setBit e 42 true) })

/-- Bytes of zero-on-first-touch work of a range on a stack: the range itself, or for a sealed region its leaves and the
nodes above them. -/
def zotWork (stack : Nat) (w : ZotWork) : Nat :=
  let lo := natMax w.base (stack * 2 ^ 36)
  let hi := natMin (w.base + w.len) ((stack + 1) * 2 ^ 36)
  if hi ≤ lo then 0
  else if w.isSealed then
    64 * ((hi - lo) / 4096 + ([15, 18, 21, 24, 27, 30].map (fun b => (hi - 1) / 2 ^ b - lo / 2 ^ b + 1)).sum)
  else hi - lo
/-- Bounded reservations on a stack, in units. -/
def stackBounded (s : State) (stack : Nat) : Nat :=
  ((List.range 16).map (fun p => ((List.range 256).map (fun j =>
    let e := resvOf s p j
    if rValid e && rKind e == 1 && rStack e == stack then rRate e else 0)).sum)).sum
/-- The rate W in bytes per µs. -/
def zotRate (s : State) (stack : Nat) : Nat := natMin 1600000 ((256 - stackBounded s stack) * 12500)
/-- The work belongs to an entry of a context. -/
def zotOf (c i : Nat) (w : ZotWork) : Bool := w.ctx == c && w.entry == i
/-- The queued work up to and with the last piece of a context's entry. -/
def zotUpTo (c i : Nat) : List ZotWork → List ZotWork
  | [] => []
  | w :: t => if !(t.any (zotOf c i)) && zotOf c i w then [w] else w :: zotUpTo c i t
/-- When a stack ends the work of a queue at rate W, each piece begun when it was queued and the one before it had ended. -/
def zotEnds (s : State) (stack : Nat) (q : List ZotWork) : Nat :=
  q.foldl (fun f w => natMax f w.since + ceilDiv (zotWork stack w * 1000) (natMax 1 (zotRate s stack))) (tget 0 s.hbm.zotFree stack)
/-- EARLIEST of a context's entry: when its work completes at rate W on every stack it touches, counting the work queued ahead
of it there. -/
def zotEarliest (s : State) (c i : Nat) : Nat :=
  let q := zotUpTo c i s.hbm.zotQ
  if !(s.hbm.zotQ.any (zotOf c i)) then now s else
  (((List.range 12).filter (fun k => q.any (fun w => zotOf c i w && zotWork k w != 0))).map (fun k => zotEnds s k q)).foldl natMax (now s)
def rangesMeet (a la b lb : Nat) : Bool := a < b + lb && b < a + la
/-- A region of the context whose ZOT is set and that the range touches: the earliest time of a DEFERRED answer. -/
def zotBlocks (s : State) (c va n : Nat) : Option Nat :=
  match (ctxOf s c).regions.filter (fun e => regValid e.2 && regZot e.2 && rangesMeet va n (regVBase e.2) (regSize e.2)) with
  | [] => none
  | l => some ((l.map (fun e => zotEarliest s c e.1)).foldl natMax 0)

/-! ## Teardown (R343) -/

def winCtx (w : RecvWindow) : Nat := fld w 178 171
def winGen (w : RecvWindow) : Nat := fld w 170 163

/-- A path's entry at its origin is closed with PATH_CLOSE (R278). -/
def pathClose (key : Nat) (st : Status) (s : State) : State :=
  let e := entryOf s key
  if !eValid e then s else
  let s := if eRole e = 0 then sendCtrl (eOutLink e) (pathFrame 0x23 (eOutPath e) 0 (eHops e) []) s else s
  pathFree key (pathAnswer key st (pathState key 2 (transfersDone key st s)))

/-- A core's state with the clock island of k (R18, R36): its clock and what power control took of it run on whatever the core
holds. -/
def onIsland (k q : Core) : Core :=
  { q with clock := k.clock, issue8 := k.issue8, idle8 := k.idle8, limited := k.limited, stretch := k.stretch, pendFold := k.pendFold }
/-- The cores' units that hold a context are cleared; their clocks run on. -/
def clearCore (c : Nat) (s : State) : State :=
  let k := coreOf s c
  let s := { s with mem := mzero s.mem (aliasAddr c 0) 0x02000000 }
  setCore s c (onIsland k coreReset)

/-- Step 1 of R343: GENERATION of the context's receive windows is 0, so that every frame that arrives fails check 2 of R281. -/
def tearWindows (c : Nat) (s : State) : State :=
  let p := (ctxOf s c).part.toNat
  let q := partOf s p
  setPart s p { q with windows := q.windows.map (fun e => (e.1, if winCtx e.2 = c then setFld e.2 170 163 0 else e.2)) }
/-- Steps 2 to 4 of R343: paths, bulk windows, regions; the context's key is zeroised. -/
def tearSteps (c : Nat) (s : State) : State :=
  let k := ctxOf s c
  let p := k.part.toNat
  let q := partOf s p
  let s : State := s.paths.table.foldl (fun s x =>
    let e := x.2
    if !eValid e || ePart e != p then s
    else if eRole e = 0 && eSendCtx e == c then pathClose x.1 .staleGeneration (pathAnswer x.1 .fenced s)   -- a PATH_OPEN that waits was validated before (R16)
    else if eRole e = 2 && winCtx (tget 0 q.windows (eWindow e)) == c && (tget 0 q.windows (eWindow e)) != 0 then pathFree x.1 s
    else s) s
  let s : State := { s with sess := s.sess.map (fun e => (e.1, { e.2 with wins := tdrop (fun i =>
      let w := tget 0 e.2.wins i
      isTenantOf p e.2 && fld w 311 304 == c && fld w 303 296 == k.gen.toNat) e.2.wins })) }
  let gone (i : Nat) : Bool := (tget ({} : Contrib) s.hbm.contribs i).ctx == c
  -- the adds in the atomic queues complete under the old key: their lines are written, and zeroed on first touch (R249, R260)
  let s : State := (s.hbm.atomQ.flatMap (fun e => e.2.filter (fun a => gone a.id))).foldl (fun (s : State) (a : LineAdd) =>
      let k := tget ({} : Contrib) s.hbm.contribs a.id
      let pa := translate s k.ctx (k.slot + 64 + 64 * a.line)
      if s.hbm.poison.contains (pa / 64) then s else countLine pa s) s
  let s := k.regions.foldl (fun s e => if regValid e.2 then zotQueue c e.1 e.2 s else s) s
  let s := zeroKey (0x020 + c) s
  let s := { s with hbm := { s.hbm with atomQ := s.hbm.atomQ.map (fun e => (e.1, e.2.filter (fun a => !gone a.id))),
                                        contribs := tdrop gone s.hbm.contribs } }
  setCtx s c { ctxOf s c with regions := [] }

/-- Step 5 of R343: the save area and the allocation are cleared, the captures and counters zeroed. -/
def scrubContext (c : Nat) (s : State) : State :=
  let s := (runningCores s c).foldl (fun s i => clearCore i s) s
  let k := ctxOf s c
  let s := k.areas.foldl (fun s a => forget a.1 a.2 s) s
  let fresh : Context := { contextReset with state := k.state, gen := k.gen, part := k.part, pairs := k.pairs, killReq := k.killReq }
  setCtx s c fresh

/-- A restore ends (R398): CKPT_RESTORED; on a failure ZOT is set in every entry that holds a range it has written. -/
def restEnd (p : Nat) (st : Status) (s : State) : State :=
  let r := (partOf s p).rest
  if !r.isOpen then s else
  let c := (ctxsOf s p).head?.getD 0
  let hit (e : BitVec 128) : Bool := regValid e && r.wrote.any (fun w => rangesMeet w.1 w.2 (regVBase e) (regSize e))
  let s := if st == .ok then s else (ctxOf s c).regions.foldl (fun s x => if hit x.2 then zotStart c x.1 x.2 s else s) s
  postDev 0x0063 (bytesBE 1 p ++ bytesBE 2 r.shard ++ bytesBE 4 (be r.record 0x60 4) ++ bytesBE 2 (statusCode st))
    (setPart s p { partOf s p with rest := { ({} : Restore) with manifest := r.manifest, whole := r.whole } })

/-- A partition's one context is gone, and with it the state of its banks; what STEP_JOIN named stays. -/
def stepForget (p : Nat) (s : State) : State :=
  let s := mirrorEnd p .fenced s
  let v := (partOf s p).step
  setPart s p { partOf s p with step := { ({} : Step) with joined := v.joined, index := v.index, count := v.count, buddy := v.buddy, origin := v.origin, path := v.path } }

/-- The context is torn down (R343): TEARING, with step 1. A snapshot of its partition ends (R395), and a restore into it. -/
def tearDown (c : Nat) (s : State) : State :=
  let p := (ctxOf s c).part.toNat
  let s := bulkEndAll (fun b => b.ctx == c) .fenced s
  let s := snapEnd p .fenced (ctxMove c .tearing .ok s)
  let s := stepForget p (restEnd p .fenced s)
  tearWindows c s
/-- Steps 2 to 5 of a teardown (R343). -/
def tearRest (c : Nat) (s : State) : State :=
  if (ctxOf s c).state == .tearing then scrubContext c (ctxMove c .scrubbing .ok (tearSteps c s)) else s

/-! ## Partition reset (R342) -/

/-- Requests about contexts of the partition that wait are answered with FENCED (R325). -/
def answerFenced (p : Nat) (s : State) : State :=
  let s := (ctxsOf s p).foldl (fun s c =>
    let k := ctxOf s c
    let s := match k.fenceReq with | some r => respondLate r 0x0203 .fenced [] s | none => s
    let s := match k.killReq with | some r => respondLate r 0x0204 .fenced [] s | none => s
    setCtx s c { ctxOf s c with fenceReq := none, killReq := none }) s
  s.paths.recs.foldl (fun s x => if ePart (entryOf s x.1) = p then pathAnswer x.1 .fenced s else s) s

/-- A charter's keys: its ten slots (R358) and the provisioning key. -/
def charterSlot (p n : Nat) : Nat := 0x360 + 10 * p + n
def zeroCharterKeys (p : Nat) (s : State) : State :=
  zeroKeys (fun k => charterSlot p 0 ≤ k && k < charterSlot p 0 + 10) s
/-- A partition reset keeps the charter's text: it returns to PENDING under a new provisioning key (R357). -/
def charterPend (p : Nat) (s : State) : State :=
  match (partOf s p).charter with
  | none => s
  | some ch =>
    let (n, s) := draw s
    postJoint 0 p [] (setPart s p { partOf s p with charter := some { ch with active := false, prov := n, shares := [], present := 0, auths := [] } })

/-- Steps 2 to 4 of R342, once every context is FREE: fresh key, paths closed, windows cleared, buckets full, queue flushed,
PARTITION_RESET_DONE. A release that waited starts its scrub then (R353): the caller sees to it. -/
def resetFinish (p : Nat) (s : State) : State :=
  let q := partOf s p
  let before : PartState := if q.before == .charter then .assigned else q.before
  let s := zeroCharterKeys p s
  let s := freshKey (0x010 + p) s
  let s := s.paths.table.foldl (fun s x => if eValid x.2 && ePart x.2 = p && eRole x.2 != 1 then pathClose x.1 .fenced s else s) s
  let q := partOf s p
  let ev := { mkEvent s p 0x0030 0 0 (bytesBE 2 q.rstCause.toNat) q.queue.seq false with part := BitVec.ofNat 4 p }
  let s := setPart s p { q with state := before, before := .unused, windows := [], buckets := [], step := {}, rest := {},
                                queue := { q.queue with items := [], final := some ev, finalTo := none, seq := q.queue.seq + 1 } }
  charterPend p (reportLost p s)

/-- Contexts of a resetting or scrubbing partition that are fenced go through teardown. -/
def resetAdvance (p : Nat) (s : State) : State :=
  (ctxsOf s p).foldl (fun s c => if (ctxOf s c).state == .fenced then tearDown c s else s) s

/-- A partition reset begins (R342): every context is fenced without save. A cause during a scrub is ignored (R353), as is
one while a reset runs. -/
def resetPartition (p cause : Nat) (s : State) : State :=
  let q := partOf s p
  if q.state == .scrubbing || q.state == .resetting then s else
  let s := setPart s p { q with state := .resetting, before := q.state, rstCause := BitVec.ofNat 16 cause, rstEnd := now s + 5000000 }
  let s := answerFenced p s
  let s := bulkEndAll (fun b => isTenantOf p (sessOf s b.sess)) .fenced s
  let s := snapEnd p .fenced s
  let s := restEnd p .fenced s
  let s := (ctxsOf s p).foldl (fun s c => fenceStart c false (setCtx s c { ctxOf s c with switching := false, saveReq := false })) s
  let s := resetAdvance p s
  if (ctxsOf s p).isEmpty then resetFinish p s else s

end Sys2Proof.Machine
end

