-- ==== Sys2Proof/Machine/Seal.lean ====
section
/-! DEFINITION. Sealing (R235-R240, R245): the ciphers, tags and MACs of HBM lines over one AES block, and the lines of the
metadata area as the counters, the key slots and the poison table make them. -/

namespace Sys2Proof.Machine

/-! ## Addresses of metadata (R227, R228) -/

def lineOf (pa : Nat) : Nat := pa / 64 * 64
def tagPa (pa : Nat) : Nat := pa / 2 ^ 32 * 2 ^ 32 + 0xE0000000 + pa % 2 ^ 32 / 64 * 8
def leafPa (pa : Nat) : Nat := pa / 2 ^ 32 * 2 ^ 32 + 0xFC000000 + pa % 2 ^ 32 / 4096 * 64
/-- start[l] of R228. -/
def treeStart (l : Nat) : Nat :=
  match l with | 1 => 0 | 2 => 114688 | 3 => 129024 | 4 => 130816 | 5 => 131040 | _ => 131068
def nodePa (slice l i : Nat) : Nat := slice * 2 ^ 32 + 0xFF800000 + (treeStart l + i) * 64
/-- The node of level l above a data line. -/
def nodeOver (pa l : Nat) : Nat := nodePa (sliceOf pa) l (pa % 2 ^ 32 / 4096 / 8 ^ l)

/-- A metadata line: a leaf, or a node with its level and index; none for any other line. -/
def metaOf (pa : Nat) : Option (Nat × Nat) :=
  let o := pa % 2 ^ 32
  if 0xFC000000 ≤ o && o < 0xFF800000 then some (0, (o - 0xFC000000) / 64)
  else if 0xFF800000 ≤ o then
    let n := (o - 0xFF800000) / 64
    let l := if n < 114688 then 1 else if n < 129024 then 2 else if n < 130816 then 3 else if n < 131040 then 4 else if n < 131068 then 5 else 6
    some (l, n - treeStart l)
  else none
/-- Where the parent counter of a metadata line is held: node line × 8 + slot, or none for a root counter, with its index. -/
def parentOf (pa : Nat) : Option (Option Nat × Nat) :=
  match metaOf pa with
  | none => none
  | some (l, i) => if l = 6 then some (none, sliceOf pa * 4 + i) else some (some (nodePa (sliceOf pa) (l + 1) (i / 8) * 8 + i % 8), 0)
/-- The value of a metadata line's parent counter. -/
def parentCounter (s : State) (pa : Nat) : Nat :=
  match parentOf pa with
  | some (some k, _) => tget 0 s.hbm.nodes k
  | some (none, r) => tget 0 s.hbm.roots r
  | none => 0
/-- The line lies in a metadata area that the memory controllers reserve (R227). -/
def isMeta (s : State) (pa : Nat) : Bool :=
  pa < hbmEnd && pa % 2 ^ 32 ≥ dataArea &&
  (match partOfSlice s (sliceOf pa) with | some p => sealedEnable (active s) p (sliceOf pa) | none => false)

/-! ## Regions by physical address -/

/-- Valid entries whose physical range holds an address, with their context. -/
def entriesAt (s : State) (pa : Nat) : List (Nat × BitVec 128) :=
  s.ctxs.flatMap (fun c => if c.2.state == .free then [] else
    c.2.regions.filterMap (fun e => if regValid e.2 && regPBase e.2 ≤ pa && pa < regPBase e.2 + regSize e.2 then some (c.1, e.2) else none))
def entryAt (s : State) (pa : Nat) : Option (Nat × BitVec 128) := (entriesAt s pa).head?
/-- The line is sealed: by its region's class; outside every region it is firmware memory, which is sealed (R326, R426). -/
def sealedAt (s : State) (pa : Nat) : Bool := match entryAt s pa with | some (_, e) => regSealed e | none => true
/-- The partition's slot, which holds the MAC key of its slices' leaves and nodes (R232). -/
def sliceSlot (s : State) (pa : Nat) : Nat := match partOfSlice s (sliceOf pa) with | some p => 0x010 + p | none => 0
/-- The key slot of a line (R232). -/
def slotAt (s : State) (pa : Nat) : Nat := match entryAt s pa with | some (_, e) => regSlot e | none => sliceSlot s pa
/-- The context a line belongs to. -/
def lineCtx (s : State) (pa : Nat) : Option Nat := (entryAt s pa).map (·.1)

/-! ## Counters (R239) -/

def ctrGroup (s : State) (g : Nat) : CtrGroup := tget {} s.hbm.groups g
def setGroup (g : Nat) (k : CtrGroup) (s : State) : State := { s with hbm := { s.hbm with groups := tset s.hbm.groups g k } }
def minorOf (k : CtrGroup) (pa : Nat) : Nat := tget 0 k.minors (pa / 64 % 64)
/-- The line has not been written since its leaf was reset (R239). -/
def untouched (s : State) (pa : Nat) : Bool :=
  sealedAt s pa && (ctrGroup s (pa / 4096)).major == 0 && minorOf (ctrGroup s (pa / 4096)) pa == 0
/-- The counter of a line: MAJOR over the 7 bits of its minor; none for a guarded line. -/
def lineCounter (s : State) (pa : Nat) : Nat :=
  if sealedAt s pa then (ctrGroup s (pa / 4096)).major * 128 + minorOf (ctrGroup s (pa / 4096)) pa else 0
def poisoned (s : State) (pa : Nat) : Bool := s.hbm.poison.contains (pa / 64)
/-- The 64 bytes of a line. -/
def lineData (s : State) (pa : Nat) : BitVec 512 := BitVec.ofNat 512 (mnum s.mem pa 64)

/-! ## GHASH and GMAC (NIST SP 800-38D) -/

/-- The product in GF(2^128), whose most significant bit is the coefficient of 1: the bits of x from the first on, a sum so far,
and y times the power of that bit. -/
def gfLoop (x : BitVec 128) : Nat → BitVec 128 → BitVec 128 → BitVec 128
  | 0, z, _ => z
  | n + 1, z, v => gfLoop x n (if bit x n then z ^^^ v else z) (if bit v 0 then (v >>> 1) ^^^ (0xE1 : BitVec 128) <<< 120 else v >>> 1)
def gfMul (x y : BitVec 128) : BitVec 128 := gfLoop x 128 0 y
def ghash (h : BitVec 128) (blocks : List (BitVec 128)) : BitVec 128 := blocks.foldl (fun y b => gfMul (y ^^^ b) h) 0
/-- The 16-byte blocks of a line in address order, the first byte of each most significant. -/
def blocksOf (x : BitVec 512) : List (BitVec 128) := (List.range 4).map (fun i => BitVec.ofNat 128 (be (bytesLE 64 x.toNat) (16 * i) 16))
/-- The line whose blocks these are. -/
def ofBlocks (l : List (BitVec 128)) : BitVec 512 := BitVec.ofNat 512 (natLE (l.flatMap (fun b => bytesBE 16 b.toNat)))
/-- GMAC over n bits of additional data that fill at most a line, without plaintext. -/
def lineGmac (key : Bytes) (iv : BitVec 96) (aad : BitVec 512) (n : Nat) : BitVec 128 :=
  ghash (Config.aesBlock key 0) (blocksOf aad ++ [BitVec.ofNat 128 (n * 2 ^ 64)]) ^^^ Config.aesBlock key (BitVec.ofNat 128 (iv.toNat * 2 ^ 32 + 1))

/-! ## Lines (R235-R237): a memory slot holds K_CTR, K_MAC and K_XTS in this order -/

def kCtr (k : Bytes) : Bytes := slice k 0 32
def kMac (k : Bytes) : Bytes := slice k 32 32
def kXts (k : Bytes) (half : Nat) : Bytes := slice k (64 + 32 * half) 32

/-- The IV of a sealed line (R236): PA[47:6], then the major and the minor counter. -/
def sealedIv (pa ctr : Nat) : BitVec 96 := BitVec.ofNat 96 (pa / 64 % 2 ^ 42 * 2 ^ 52 + ctr % 2 ^ 47 * 2 ^ 5)
/-- AES-256-CTR under K_CTR. -/
def ctrLine (k : Bytes) (pa ctr : Nat) (x : BitVec 512) : BitVec 512 :=
  ofBlocks ((blocksOf x).zipIdx.map (fun b => b.1 ^^^ Config.aesBlock (kCtr k) (BitVec.ofNat 128 ((sealedIv pa ctr).toNat * 2 ^ 32 + b.2))))
/-- The same 16 bytes in the other order. -/
def swap128 (x : BitVec 128) : BitVec 128 := BitVec.ofNat 128 (natBE (bytesLE 16 x.toNat))
/-- The tweak of the next block of a data unit (IEEE 1619), as a little-endian number. -/
def xtsNext (t : BitVec 128) : BitVec 128 := if bit t 127 then (t <<< 1) ^^^ 0x87 else t <<< 1
/-- AES-256-XTS under K_XTS, one data unit per line, the tweak its PA[47:6]. -/
def xtsLine (k : Bytes) (pa : Nat) (x : BitVec 512) : BitVec 512 :=
  let t0 := swap128 (Config.aesBlock (kXts k 1) (swap128 (BitVec.ofNat 128 (pa / 64 % 2 ^ 42))))
  ofBlocks ((blocksOf x).foldl (fun (r : List (BitVec 128) × BitVec 128) b =>
    (r.1 ++ [Config.aesBlock (kXts k 0) (b ^^^ swap128 r.2) ^^^ swap128 r.2], xtsNext r.2)) ([], t0)).1
/-- The ciphertext of a line. -/
def encryptLine (k : Bytes) (isSealed : Bool) (pa ctr : Nat) (x : BitVec 512) : BitVec 512 :=
  if isSealed then ctrLine k pa ctr x else xtsLine k pa x
/-- A tag or MAC equal to the poison marker of its width takes the same value with bit 0 inverted (R238). -/
def offMarker {w : Nat} (x : BitVec w) : BitVec w := if x = BitVec.allOnes w then x ^^^ 1 else x
/-- The 64-bit tag of a sealed line (R236) and the 32-bit tag of a guarded one (R237), over the ciphertext. -/
def sealedTag (k : Bytes) (pa ctr : Nat) (c : BitVec 512) : BitVec 64 := offMarker (BitVec.ofNat 64 (fld (lineGmac (kMac k) (sealedIv pa ctr) c 512) 127 64))
def guardedTag (k : Bytes) (pa : Nat) (c : BitVec 512) : BitVec 32 :=
  let d := BitVec.ofNat 128 (0x47 * 2 ^ 120 + pa / 64 % 2 ^ 42)
  offMarker (BitVec.ofNat 32 (fld (Config.aesBlock (kMac k) (ghash (Config.aesBlock (kMac k) 0) (blocksOf c) ^^^ d)) 127 96))

/-! ## What HBM holds for a line (R238-R240, R245) -/

/-- The ciphertext of a data line as it stands. -/
def lineCipher (s : State) (pa : Nat) : BitVec 512 := encryptLine (keyOf s (slotAt s pa)) (sealedAt s pa) pa (lineCounter s pa) (lineData s pa)
/-- The tag slot of a sealed data line: the marker on a poisoned one, and nothing before the line's first write. -/
def storedTag (s : State) (pa : Nat) : BitVec 64 :=
  if poisoned s pa then BitVec.allOnes 64
  else if !sealedAt s pa || untouched s pa then 0
  else sealedTag (keyOf s (slotAt s pa)) pa (lineCounter s pa) (lineCipher s pa)
/-- The IV of a leaf's or node's MAC (R239): slice, index of the metadata line in the slice, parent counter. -/
def metaIv (s : State) (pa : Nat) : BitVec 96 :=
  let i := match metaOf pa with | some (0, i) => i | some (l, i) => 917504 + treeStart l + i | none => 0
  BitVec.ofNat 96 (1 * 2 ^ 94 + sliceOf pa % 256 * 2 ^ 86 + i * 2 ^ 66 + parentCounter s pa % 2 ^ 56 * 2 ^ 10)
/-- Bits [487:0] of the leaf of a 4 KiB group. -/
def leafWord (k : CtrGroup) : BitVec 512 :=
  (List.range 64).foldl (fun x n => setFld x (7 * n + 6) (7 * n) (tget 0 k.minors n)) (BitVec.ofNat 512 (k.major % 2 ^ 40 * 2 ^ 448))
/-- Bits [447:0] of a node. -/
def nodeWord (s : State) (pa : Nat) : BitVec 512 :=
  (List.range 8).foldl (fun x n => setFld x (56 * n + 55) (56 * n) (tget 0 s.hbm.nodes (pa * 8 + n))) 0
/-- LEAF_MAC, 56 bits, and NODE_MAC, 64 bits, under the partition slot's K_MAC. -/
def leafMac (s : State) (pa : Nat) (x : BitVec 512) : BitVec 56 :=
  offMarker (BitVec.ofNat 56 (fld (lineGmac (kMac (keyOf s (sliceSlot s pa))) (metaIv s pa) x 488) 127 72))
def nodeMac (s : State) (pa : Nat) (x : BitVec 512) : BitVec 64 :=
  offMarker (BitVec.ofNat 64 (fld (lineGmac (kMac (keyOf s (sliceSlot s pa))) (metaIv s pa) x 448) 127 64))
/-- A line of a metadata area with its side-band bits [63:32]: eight tags, a leaf, or a node. -/
def metaLine (s : State) (pa : Nat) : BitVec 512 × BitVec 32 :=
  let base := pa / 2 ^ 32 * 2 ^ 32
  match metaOf pa with
  | none => ((List.range 8).foldl (fun x n =>
      setFld x (64 * n + 63) (64 * n) (storedTag s (base + ((pa % 2 ^ 32 - 0xE0000000) / 8 + n) * 64)).toNat) 0, 0)
  | some (0, i) =>
    let x := leafWord (ctrGroup s (base / 4096 + i))
    let m := leafMac s pa x
    (setFld x 511 488 (fld m 23 0), BitVec.ofNat 32 (fld m 55 24))
  | some _ => (setFld (nodeWord s pa) 511 448 (nodeMac s pa (nodeWord s pa)).toNat, 0)
/-- The side-band bits of a line (R238): its ECC in bits [31:0], over the data and bits [63:32]. -/
def sideBand (data : BitVec 512) (hi : BitVec 32) : BitVec 64 :=
  BitVec.ofNat 64 (hi.toNat * 2 ^ 32 + (Config.eccCheck (BitVec.ofNat 544 (hi.toNat * 2 ^ 512 + data.toNat))).toNat)
/-- Bits [63:32] of the side-band of a data line (R238, R245): nothing on a sealed line, else the guarded tag, or the marker where the
line is poisoned. -/
def lineHigh (s : State) (pa : Nat) (c : BitVec 512) : BitVec 32 :=
  if sealedAt s pa then 0 else if poisoned s pa then BitVec.allOnes 32 else guardedTag (keyOf s (slotAt s pa)) pa c
/-- A data line goes out on the HBM pins. -/
def driveLine (pa ctr : Nat) (data : BitVec 512) (s : State) : State :=
  let c := encryptLine (keyOf s (slotAt s pa)) (sealedAt s pa) pa ctr data
  { s with hbm := { s.hbm with wire := some (pa, c, sideBand c (lineHigh s pa c)) } }
/-- A metadata line goes out on the HBM pins. -/
def driveMeta (pa : Nat) (s : State) : State :=
  let x := metaLine s pa
  { s with hbm := { s.hbm with wire := some (pa, x.1, sideBand x.1 x.2) } }

/-! ## The tree's path is written anew (R249) -/

/-- The counters of a level advance, one for each line below from lo to hi. -/
def bumpLevel (slice l lo hi : Nat) (t : Tbl Nat) : Tbl Nat :=
  (List.range (hi + 1 - lo)).foldl (fun t n => tmod 0 t (nodePa slice l ((lo + n) / 8) * 8 + (lo + n) % 8) (· + 1)) t
/-- A node or root counter at which the device resets the owning partition (R242). -/
def counterEnd : Nat := 2 ^ 56 - 1
/-- A parent counter on the path above the leaves lo to hi of a slice would reach its end (R242). -/
def pathEnds (s : State) (slice lo hi : Nat) : Bool :=
  (List.range 6).any (fun i => (List.range (hi / 8 ^ i + 1 - lo / 8 ^ i)).any (fun n =>
    let j := lo / 8 ^ i + n
    tget 0 s.hbm.nodes (nodePa slice (i + 1) (j / 8) * 8 + j % 8) + 1 ≥ counterEnd)) ||
  (List.range (hi / 8 ^ 6 + 1 - lo / 8 ^ 6)).any (fun n => tget 0 s.hbm.roots (slice * 4 + lo / 8 ^ 6 + n) + 1 ≥ counterEnd)
/-- The leaves lo to hi of a slice. -/
def leafSpan (slice lo hi a : Nat) : Bool := slice * 2 ^ 32 + 0xFC000000 + lo * 64 ≤ a && a ≤ slice * 2 ^ 32 + 0xFC000000 + hi * 64
/-- The path above the leaves lo to hi of a slice is rewritten: every parent counter on it advances. -/
def rewritePath (slice lo hi : Nat) (s : State) : State :=
  { s with hbm := { s.hbm with
      nodes := (List.range 6).foldl (fun t i => bumpLevel slice (i + 1) (lo / 8 ^ i) (hi / 8 ^ i) t) s.hbm.nodes,
      roots := (List.range (hi / 8 ^ 6 + 1 - lo / 8 ^ 6)).foldl (fun t n => tmod 0 t (slice * 4 + lo / 8 ^ 6 + n) (· + 1)) s.hbm.roots,
      dirty := s.hbm.dirty.filter (fun a => !(leafSpan slice lo hi a)), clean := s.hbm.clean.filter (fun a => !(leafSpan slice lo hi a)) } }

end Sys2Proof.Machine
end

