-- ==== Sys2Proof/Machine/MemOps.lean ====
section
/-! DEFINITION. Operations on HBM (chapter 8): the address map and its masters, captures, poison, line writes, the check of
a read, interception by a snapshot (R386), and writes of whole tiles. -/

namespace Sys2Proof.Machine

/-! ## The address map (R225, R226) -/

/-- The address lies in HBM, on a stack in service. -/
def isHbm (s : State) (pa : Nat) : Bool := pa < hbmEnd && stackIn s (stackOf pa)
/-- A control window, and those of them that hold the unit state ports. -/
def statePort (pa : Nat) : Bool := 0x7F8000000000 ≤ pa && pa < 0x800000000000
def ctrlWindow (pa : Nat) : Bool :=
  (0x7F0000000000 ≤ pa && pa < 0x7F2000000000) || (0x7F4000000000 ≤ pa && pa < 0x7F5000000000) || (0x7F6000000000 ≤ pa && pa < 0x7F8000000000) || statePort pa

/-! ## Masters (R233) -/

/-- The rights that master m needs for a read, write or add (R233): none where the table does not let it in there. -/
def masterNeeds (m : Nat) (w : Nat) (debugOpen : Bool) : Option (List Nat) :=
  if m < 0x40 then some [w]
  else if m = 0x40 || m = 0x41 then (if w = rREAD then none else some [w])
  else if m = 0x48 then some [rHOST, w]
  else if m = 0x49 then some [w]
  else if m = 0x50 || m = 0x51 then (if w = rREAD then some [rREAD] else none)
  else if m = 0x52 then some [rPRIV, w]
  else if m = 0x5E then (if debugOpen then some [rDEBUG, w] else none)
  else if m = 0x5F then some []
  else none
/-- Debug access to the Almandine scope is open (R71). -/
def debugOpenAt (s : State) (die : Nat) : Bool :=
  match s.fuses.lifecycle with
  | .blank => true
  | .dev => bit s.jtag.scope die
  | .prodDebug => bit s.jtag.scope die
  | _ => false
/-- The contexts whose regions a master reaches: a tile mover that of its core, the others any. -/
def masterCtx (s : State) (m c : Nat) : Bool := if m < 0x40 then (coreOf s (m / 2)).ctx == some c else true
/-- A firmware-private area, which the save path reaches as it does a FW_PRIVATE region (R426). -/
def inAreas (s : State) (pa : Nat) : Bool :=
  let holds (a : Nat × Nat) : Bool := a.1 ≤ pa && pa < a.1 + a.2
  s.ctxs.any (fun e => e.2.state != .free && e.2.areas.any holds) || s.parts.any (fun e => e.2.snap.areas.any holds)
/-- Admission of a master at a device-physical address (R225, R233). -/
def masterCheck (s : State) (m w pa : Nat) : Status :=
  if ctrlWindow pa then (if m = 0x5F || (m = 0x51 && w == rREAD && statePort pa) then .ok else .denied)
  else if isAlias pa then
    if m ≥ 0x40 then .denied else
    match (coreOf s (m / 2)).ctx with
    | some c => accessCheck s c [w] pa 64
    | none => .outOfRegion
  else if !isHbm s pa then .outOfRegion else
  match masterNeeds m w (debugOpenAt s 1) with
  | none => .denied
  | some [] => .ok
  | some rs =>
    if (entriesAt s pa).any (fun e => masterCtx s m e.1 && rs.all (fun r => bit e.2 r) && (!bit e.2 rPRIV || m == 0x52)) ||
       (m == 0x52 && w != rATOMIC && inAreas s pa)
    then .ok else .denied

/-! ## Captures and the firmware's response (R247, R259) -/

/-- Capture of a memory cause by an engine, about a line of the region of pa: kind 0 data, 1 tag, 2 leaf, 3 node. -/
def memCaptureBy (engine tensor cause m pa line kind major : Nat) (st : Status) (s : State) : State :=
  match lineCtx s pa with
  | none => s
  | some c =>
    captureRec c cause (capRecord s c cause
      { status := st, tensor := tensor, addr := lineOf line, core := if m < 0x40 then m / 2 else 0, engine := engine,
        detail := m * 2 ^ 88 + (if sealedAt s pa then 1 else 2) * 2 ^ 86 + kind * 2 ^ 84 + major * 2 ^ 40 }) s
/-- Capture of a memory cause met by a master of its own, about another line, and about the line it names. -/
def memCaptureAt (cause m pa line kind major : Nat) (st : Status) (s : State) : State :=
  memCaptureBy (if m < 0x40 then 0 else 4) 0 cause m pa line kind major st s
def memCapture (cause m pa major : Nat) (st : Status) (s : State) : State := memCaptureAt cause m pa pa 0 major st s
/-- The firmware fences the context after the event in a sealed region, and in a guarded one at the tenth of a step. -/
def memRespond (pa : Nat) (s : State) : State :=
  match lineCtx s pa with
  | none => s
  | some c =>
    if sealedAt s pa then fenceStart c false s else
    let key := c * 2 ^ 32 + ctxEpoch s c
    let n := tget 0 s.hbm.memEvts key + 1
    let s := { s with hbm := { s.hbm with memEvts := tset (tdrop (fun i => i / 2 ^ 32 == c && i != key) s.hbm.memEvts) key n } }
    if n = 10 then fenceStart c false s else s

/-! ## Poison (R245) -/

def insertLine (l : Nat) : List Nat → List Nat
  | [] => [l]
  | x :: t => if l < x then l :: x :: t else if l = x then x :: t else x :: insertLine l t
/-- A metadata line becomes dirty in the counter cache (R241). -/
def markDirty (pa : Nat) (s : State) : State :=
  { s with hbm := { s.hbm with dirty := insertLine pa s.hbm.dirty, clean := s.hbm.clean.filter (· != pa) } }
/-- A line is poisoned: a sealed one has the marker in its tag line from now on, a guarded one goes out with it. -/
def poisonLine (pa : Nat) (s : State) : State :=
  let s := { s with hbm := { s.hbm with poison := insertLine (pa / 64) s.hbm.poison } }
  if sealedAt s pa then markDirty (lineOf (tagPa pa)) s else driveLine pa 0 (lineData s pa) s
def clearPoison (pa : Nat) (s : State) : State := { s with hbm := { s.hbm with poison := s.hbm.poison.filter (· != pa / 64) } }
/-- A range holds a poisoned line. -/
def poisonIn (s : State) (pa len : Nat) : Bool := s.hbm.poison.any (fun l => pa / 64 ≤ l && l ≤ (pa + len - 1) / 64) && len != 0

/-! ## Counters and line writes (R242-R244) -/

def majorEnd : Nat := 2 ^ 40 - 1
/-- A final group (R244). -/
def isFinal (s : State) (pa : Nat) : Bool := sealedAt s pa && (ctrGroup s (pa / 4096)).major == majorEnd
/-- The line's group is under re-encryption (R243). -/
def groupBusy (s : State) (pa : Nat) : Bool := sealedAt s pa && (ctrGroup s (pa / 4096)).busy
def isDirty (s : State) (pa : Nat) : Bool := s.hbm.dirty.contains pa
/-- The counter cache holds the metadata line (R241). -/
def metaHeld (s : State) (pa : Nat) : Bool := isDirty s pa || s.hbm.clean.contains pa
/-- Lines of a die's counter cache of 4 MiB. -/
def cacheLines : Nat := 65536
/-- A full cache of a die gives up clean lines, which the spec does not choose (DESIGN CHOICE, log entry 152). -/
def cacheTrim (die : Nat) : Nat → State → State
  | 0, s => s
  | n + 1, s =>
    let here (l : List Nat) : List Nat := l.filter (fun a => stackOf a / 3 == die)
    let c := here s.hbm.clean
    if c.length + (here s.hbm.dirty).length ≤ cacheLines then s
    else match c with
    | [] => s
    | _ =>
      let (k, s) := draw s
      cacheTrim die n { s with hbm := { s.hbm with clean := s.hbm.clean.filter (· != c.getD (k % c.length) 0) } }
/-- What a sealed read fetches, the cache holds from then on (R241): the tag line, and the leaf with the nodes above it up to the first
that the cache held. -/
def cacheFetch (pa : Nat) (s : State) : State :=
  if !sealedAt s pa || groupBusy s pa then s else
  let path := leafPa pa :: (List.range 6).map (fun i => nodeOver pa (i + 1))
  let missing := (lineOf (tagPa pa) :: path.takeWhile (fun a => !metaHeld s a)).filter (fun a => !metaHeld s a)
  cacheTrim (stackOf pa / 3) 8 { s with hbm := { s.hbm with clean := missing.foldl (fun l a => insertLine a l) s.hbm.clean } }
/-- The notice at MAJOR = 2^39, once per group, which the firmware relays to the tenant (R243). -/
def majorNotice (g : Nat) (s : State) : State :=
  let k := ctrGroup s g
  if k.major < 2 ^ 39 || k.warned then s else
  let s := setGroup g { k with warned := true } s
  match lineCtx s (g * 4096) with
  | some c => postPart (ctxOf s c).part.toNat 0x0020 c (bytesBE 8 (g * 4096) ++ bytesBE 5 k.major) s
  | none => s

/-- What readers find at a line from now on: the data, and no poison. -/
def putLine (pa : Nat) (data : BitVec 512) (s : State) : State := clearPoison pa { s with mem := mwrite s.mem pa (bytesLE 64 data.toNat) }
/-- A line goes to HBM under its counter. -/
def storeLine (pa ctr : Nat) (data : BitVec 512) (s : State) : State := countLine pa (driveLine pa ctr data (putLine pa data s))

/-- A full-line write (R242-R244, R248). A minor counter at its end starts the re-encryption of the group, which takes the line in; in
a final group it refuses the write and every later one. A write to a group under re-encryption, and the write that calls for one, stands
when the group is done: an engine goes on meanwhile (DEDUCED, log entry 130). A metadata area belongs to the memory controllers: a
firmware write there leaves the counters as they are (DEDUCED, log entry 131). -/
def lineWrite (m pa : Nat) (data : BitVec 512) (s : State) : State × Status :=
  if !isHbm s pa then (s, .outOfRegion)
  else if isMeta s pa then (countLine pa s, .ok)
  else if !sealedAt s pa then (storeLine pa 0 data s, .ok)
  else
    let g := pa / 4096
    let k := ctrGroup s g
    if k.busy then (setGroup g { k with waiting := k.waiting ++ [{ pa := pa, data := data, master := m }] } s, .ok)
    else if k.shut then (memCapture 0x22 m pa k.major .counterExhausted s, .counterExhausted)
    else if minorOf k pa = 127 then
      if k.major = majorEnd then
        (memCapture 0x22 m pa k.major .counterExhausted (setGroup g { k with shut := true } s), .counterExhausted)
      else (setGroup g { k with busy := true, trig := some { pa := pa, data := data, master := m } } s, .ok)
    else
      let n := minorOf k pa + 1
      (storeLine pa (k.major * 128 + n) data
        (markDirty (lineOf (tagPa pa)) (markDirty (leafPa pa) (setGroup g { k with minors := tset k.minors (pa / 64 % 64) n } s))), .ok)

/-- The line as a write of bytes from `off` on leaves it. -/
def mergeInto (old : BitVec 512) (off len : Nat) (data : BitVec 512) : BitVec 512 := setFld old (8 * (off + len) - 1) (8 * off) data.toNat
/-- A write of part of a line by an engine (R247): to a poisoned line it is not performed. -/
def lineMerge (m pa off len : Nat) (data : BitVec 512) (s : State) : State × Status :=
  if groupBusy s pa then
    let k := ctrGroup s (pa / 4096)
    (setGroup (pa / 4096) { k with waiting := k.waiting ++ [{ pa := pa, off := off, len := len, data := data, master := m }] } s, .ok)
  else if poisoned s pa then (s, .poison)
  else lineWrite m pa (mergeInto (lineData s pa) off len data) s
/-- Memory as it stands once every group under re-encryption is done. -/
def settledMem (s : State) : Mem :=
  s.hbm.groups.foldl (fun mem g => (g.2.trig.toList ++ g.2.waiting).foldl (fun mem w =>
    mwrite mem (w.pa + w.off) (bytesLE w.len w.data.toNat)) mem) s.mem

/-! ## The check of a read (R241, R246) -/

/-- A finding comes about: a line that is poisoned, untouched or in the group buffer has no tag to check, and a metadata line that
the counter cache holds is trusted, with everything above it. -/
def findHits (s : State) (pa : Nat) (find : HbmFind) : Bool :=
  let tagged := !poisoned s pa && !untouched s pa && !groupBusy s pa
  let walked := sealedAt s pa && !groupBusy s pa && !metaHeld s (leafPa pa)
  let climbed (l : Nat) : Bool := walked && !((List.range (l + 1)).any (fun i => metaHeld s (nodeOver pa (i + 1))))
  match find with
  | .good => false
  | .tagBad => tagged
  | .eccBad => tagged
  | .tagLineBad => tagged && sealedAt s pa && !metaHeld s (lineOf (tagPa pa))
  | .leafBad => walked
  | .leafEcc => walked
  | .nodeBad l => climbed l.val
  | .nodeEcc l => climbed l.val

/-- What a failed check does (R246): a tag failure or an uncorrectable ECC error poisons the line, a leaf that fails its group, whose leaf is rebuilt under
MAJOR + 1, and a node that fails resets the owning partition. `plain`: a read, which records a failed tag as TAG_FAIL_READ. -/
def findEffect (m pa : Nat) (find : HbmFind) (plain : Bool) (s : State) : State :=
  match find with
  | .good => s
  | .tagBad =>
    let s := poisonLine pa s
    if plain then memRespond pa (memCapture 0x20 m pa 0 .tagFail s) else s
  | .eccBad => memCapture 0x23 m pa 0 .tagFail (poisonLine pa s)
  | .tagLineBad => memCaptureAt 0x23 m pa (tagPa pa) 1 0 .tagFail (poisonLine pa s)
  | .leafEcc => memCaptureAt 0x23 m pa (leafPa pa) 2 0 .tagFail (poisonLine pa s)
  | .nodeEcc l => memCaptureAt 0x23 m pa (nodeOver pa (l.val + 1)) 3 0 .tagFail (poisonLine pa s)
  | .leafBad =>
    let g := pa / 4096
    let k := ctrGroup s g
    let s := (List.range 64).foldl (fun s i => poisonLine (g * 4096 + 64 * i) s) s
    let s := markDirty (leafPa pa) (setGroup g { k with major := natMin majorEnd (k.major + 1), minors := [] } s)
    memRespond pa (memCaptureAt 0x20 m pa (leafPa pa) 2 0 .tagFail (majorNotice g s))
  | .nodeBad l =>
    let s := memCaptureAt 0x20 m pa (nodeOver pa (l.val + 1)) 3 0 .tagFail s
    match partOfSlice s (sliceOf pa) with
    | some p => resetPartition p 2 s
    | none => s
/-- What a line reads as: a metadata line as the counters and keys make it. -/
def lineOut (s : State) (pa : Nat) : BitVec 512 := if isMeta s pa then (metaLine s pa).1 else lineData s pa

/-! ## Ranges of lines -/

/-- Write bytes from an address, line by line, part of a line as a partial write; the first refusal stops it. -/
def linesWrite (m : Nat) : Nat → Nat → Bytes → State → State × Status
  | 0, _, _, s => (s, .ok)
  | n + 1, pa, b, s =>
    match b with
    | [] => (s, .ok)
    | _ =>
      let part := b.take (64 - pa % 64)
      let x := BitVec.ofNat 512 (natLE part)
      match if part.length = 64 then lineWrite m pa x s else lineMerge m (lineOf pa) (pa % 64) part.length x s with
      | (s, .ok) => linesWrite m n (lineOf pa + 64) (b.drop (64 - pa % 64)) s
      | (s, st) => (s, st)
/-- Write bytes at an address as translated: the operand cache directly, HBM through its lines. -/
def putBytes (m : Nat) (a : Nat) (b : Bytes) (s : State) : State × Status :=
  if isAlias a then ({ s with mem := mwrite s.mem a b }, .ok) else linesWrite m (b.length / 64 + 2) a b s

/-- The pieces of a virtual range of a context, each with its address as translated (R230): granule by granule. -/
def pieces (s : State) (c va : Nat) : Nat → Nat → List (Nat × Nat)
  | 0, _ => []
  | _, 0 => []
  | f + 1, n =>
    let room := 2 ^ 21 - va % 2 ^ 21
    let k := natMin room n
    (translate s c va, k) :: pieces s c (va + k) f (n - k)
def piecesOf (s : State) (c va n : Nat) : List (Nat × Nat) := pieces s c va (n / 2 ^ 21 + 2) n

/-- Write bytes at a virtual address of a context, piece by piece; the first refusal stops it. -/
def putVirtual (m c va : Nat) (b : Bytes) (s : State) : State × Status :=
  ((piecesOf s c va b.length).foldl (fun (r : (State × Status) × Bytes) x =>
    match r.1.2 with
    | .ok => (putBytes m x.1 (r.2.take x.2) r.1.1, r.2.drop x.2)
    | _ => r) ((s, .ok), b)).1
/-! ## Interception by a snapshot (R386, R387) -/

/-- The physical address of an offset in firmware-private areas. -/
def areaPa : List (Nat × Nat) → Nat → Nat
  | [], _ => 0
  | (b, n) :: t, o => if o < n then b + o else areaPa t (o - n)
/-- Where staging slot k lies, and the push-ahead map entry of a group of the shard, behind the staging slots (R385). -/
def stagePa (n : Snapshot) (k : Nat) : Nat := areaPa n.areas (4096 * k)
def mapPa (n : Snapshot) (g : Nat) : Nat := areaPa n.areas (4096 * n.staging + 4 * g)
/-- The latched piece that holds a line. -/
def latchAt (n : Snapshot) (pa : Nat) : Option (Nat × Nat × Nat × Nat) := n.latch.find? (fun x => x.2.2.1 ≤ pa && pa < x.2.2.1 + x.2.2.2)
/-- The number of a line's group in the shard. -/
def shardGroup (n : Snapshot) (pa : Nat) : Nat :=
  match latchAt n pa with
  | some (i, off, pb, _) => ((n.ranges.take i).map (fun r => r.2.1 * 512)).sum + (off + (pa - pb)) / 4096
  | none => 0
/-- The line's group must be copied ahead of a write: it lies in a latched range, at or above its watermark. -/
def needsPush (n : Snapshot) (pa : Nat) : Bool :=
  n.state == .copying && tget 0 n.map (pa / 4096) == 0 &&
  (match latchAt n pa with | some (i, off, pb, _) => (off + (pa - pb)) / 4096 * 4096 ≥ n.marks.getD i 0 | none => false)
/-- Groups of an Almandine die in its push-ahead buffer. -/
def buffered (n : Snapshot) (die : Nat) : Nat := (n.pbuf.filter (fun g => stackOf (g * 4096) / 3 == die)).length
/-- There is no room to copy the line's group: no staging slot is left, or the 256 KiB buffer of its die is full (R387). -/
def pushFull (n : Snapshot) (pa : Nat) : Bool := n.used ≥ n.staging || buffered n (stackOf pa / 3) ≥ 64
/-- A writer of the line stalls. -/
def pushStuck (n : Snapshot) (pa : Nat) : Bool := needsPush n pa && pushFull n pa
/-- The snapshot of the partition that a line's slice belongs to. -/
def snapAt (s : State) (pa : Nat) : Snapshot := match partOfSlice s (sliceOf pa) with | some p => (partOf s p).snap | none => {}
/-- A write of one line meets the snapshot: its old group goes to the buffer and takes a staging slot and its map entry, and the write may
proceed; not where its writer stalls. A group with a poisoned line ends the snapshot with POISON, and the write proceeds (R400). -/
def pushAhead (p pa : Nat) (s : State) : State × Bool :=
  let q := partOf s p
  let n := q.snap
  if !needsPush n pa then (s, true)
  else if poisonIn s (pa / 4096 * 4096) 4096 then (snapEnd p .poison s, true)
  else if pushFull n pa then (setPart s p { q with snap := { n with stalls := if n.stalls.contains (pa / 4096) then n.stalls else n.stalls ++ [pa / 4096] } }, false)
  else
    let g := pa / 4096
    ((putBytes 0x52 (mapPa n (shardGroup n pa)) (bytesLE 4 (n.used + 1))
      (setPart s p { q with snap := { n with used := n.used + 1, pushed := n.pushed + 1, map := tset n.map g (n.used + 1),
                                             stage := tset n.stage n.used (mread s.mem (g * 4096) 4096), pbuf := n.pbuf ++ [g] } })).1, true)
/-- Interception over every line of a range, up to the first whose writer stalls; the partition is that of the slice. -/
def intercept (pa len : Nat) (s : State) : State × Bool :=
  if len = 0 then (s, true) else
  match partOfSlice s (sliceOf pa) with
  | none => (s, true)
  | some p =>
    if (partOf s p).snap.state != .copying then (s, true) else
    (List.range ((pa + len - 1) / 4096 - pa / 4096 + 1)).foldl
      (fun (o : State × Bool) i => if o.2 then pushAhead p (natMax pa ((pa / 4096 + i) * 4096)) o.1 else o) (s, true)
/-- A push-ahead read that fails: the old group is poisoned, and the snapshot ends with POISON at once (R400). The write then finds its line
poisoned. -/
def pushFind (m : Master) (pa : Nat) (find : HbmFind) (s : State) : State :=
  if !needsPush (snapAt s pa) pa || !findHits s pa find then s else
  let s := (List.range 64).foldl (fun s i => poisonLine (pa / 4096 * 4096 + 64 * i) s) (findEffect m pa find true s)
  match partOfSlice s (sliceOf pa) with | some p => snapEnd p .poison s | none => s
/-- Interception over a virtual range. -/
def interceptV (c va n : Nat) (s : State) : State × Bool :=
  (piecesOf s c va n).foldl (fun (o : State × Bool) x => if !o.2 || isAlias x.1 then o else intercept x.1 x.2 o.1) (s, true)
/-- A range a context reads holds a poisoned line. -/
def poisonV (s : State) (c va n : Nat) : Bool := (piecesOf s c va n).any (fun x => !isAlias x.1 && poisonIn s x.1 x.2)

end Sys2Proof.Machine
end

