-- ==== Sys2Proof/Machine/Adders.lean ====
section
/-! DEFINITION. Reduction at memory (R255-R258): accumulation records, the checks of a contribution, the adders, the atomic
queues and the record update. -/

namespace Sys2Proof.Machine

/-! ## Accumulation records (R255): the fields at the bits of a tile header, except these -/

def rKindOf (r : Hdr) : Nat := fld r 7 0
def rExpected (r : Hdr) : Nat := fld r 415 392
def rContribs (r : Hdr) : Nat := fld r 391 368
def rPoisoned (r : Hdr) : Bool := bit r 32
/-- A non-zero reserved field. -/
def rReserved (r : Hdr) : Bool :=
  fld r 511 416 != 0 || fld r 367 352 != 0 || fld r 255 240 != 0 || fld r 111 109 != 0 || fld r 95 93 != 0 || fld r 71 68 != 0 ||
  fld r 31 16 != 0 || fld r 47 36 != 0 || fld r 34 33 != 0

/-- The record that opens a slot from a template (R253, R255). -/
def openRecord (t : Hdr) (expected : Nat) (ctx gen part : Nat) (epoch : Nat) (owner : Byte) : Hdr :=
  BitVec.ofNat 512 (0x80 + hFormat t * 2 ^ 8 + (hPois t).toNat * 2 ^ 32 + (hPartial t).toNat * 2 ^ 35 + ctx * 2 ^ 48 + gen * 2 ^ 56 + part * 2 ^ 64 +
    (hOwner t ||| owner).toNat * 2 ^ 72 + (hInherit t).toNat * 2 ^ 96 + hTensor t * 2 ^ 112 + epoch * 2 ^ 128 +
    fld t 239 160 * 2 ^ 160 + fld t 319 256 * 2 ^ 256 + (geometry (hFormat t) false 0 0 (hRows t) (hCols t)).1 * 2 ^ 320 + expected % 2 ^ 24 * 2 ^ 392)

/-- Formats an accumulation slot can have, and those it accepts (R257). -/
def slotFormat (f : Nat) : Bool := f == 0x0A || f == 0x07 || f == 0x0C || f == 0x0B
def slotAccepts (slot f : Nat) : Bool :=
  if slot = 0x0A then f == 0x0A || f == 0x07
  else if slot = 0x07 then f == 0x07
  else if slot = 0x0C then f == 0x0C
  else slotFormat f

/-- A tile header read by a context at a virtual address. -/
def hdrV (s : State) (c va : Nat) : Hdr := BitVec.ofNat 512 (natLE (vread s c va 64))
/-- The first line of a slot's range that lies in a final group. -/
def finalLine (s : State) (c va n : Nat) : Option Nat :=
  ((piecesOf s c va n).flatMap (fun x => if isAlias x.1 then [] else
    (List.range ((x.1 + x.2 - 1) / 4096 - x.1 / 4096 + 1)).map (fun i => natMax x.1 ((x.1 / 4096 + i) * 4096)))).find? (isFinal s)
def finalIn (s : State) (c va n : Nat) : Bool := (finalLine s c va n).isSome

/-- Checks 1-6 of R256 on a contribution's header; `who` stands in check 2 for a transfer with a check of its own. The
record's own line must be readable (R248). -/
def contribCheck (s : State) (c slot : Nat) (own : Bool) (h : Hdr) : Status :=
  let r := hdrV s c slot
  if poisonV s c slot 64 then .poison
  else if rKindOf r ≠ 0x80 then .badDescriptor
  else match hdrCheckUse (if own then none else some (hPart r, hCtx r, hGen r)) carriedFormat h with
  | some (_, st) => st
  | none =>
    if hEpoch h ≠ hEpoch r then .staleGeneration
    else if hMode h ≠ 0 || hSparse h || !slotAccepts (hFormat r) (hFormat h) then .badDescriptor
    else if fld h 319 256 ≠ fld r 319 256 then .badLength
    else if rExpected r ≠ 0 && rContribs r ≥ rExpected r then .conflict
    else if finalIn s c slot (64 + hData r) then .counterExhausted
    else .ok

/-- The captures of a contribution refused (R259), and of a header in progress (R83). COUNTER_EXHAUSTED names the slot's first line in
a final group. -/
def contribRefused (m c slot : Nat) (h : Hdr) (st : Status) (s : State) : State :=
  let pa := translate s c slot
  let by_ (cause line major : Nat) (s : State) : State := memCaptureBy 4 (hTensor h) cause m line line 0 major st s
  let s := if hVersion h = 0 && st == .checksumFail then by_ 0x02 pa 0 s else s
  if st == .counterExhausted then
    let line := (finalLine s c slot (64 + hData (hdrV s c slot))).getD pa
    by_ 0x22 line (ctrGroup s (line / 4096)).major s
  else by_ 0x24 pa 0 s

/-! ## The adders (R257): slot format, the slot's code, the contribution's format and code; the sum's code and flags -/

def nan3 : Val × Exc := (.nan 3, fINVALID)
/-- The exact sum of two values, the slot's first. -/
def exactSum (a b : Val) : Val × Exc :=
  match a, b with
  | .nan c, _ => (.nan c, fNAN_IN)
  | _, .nan c => (.nan c, fNAN_IN)
  | .inf x, .inf y => if x = y then (.inf x, fINF) else let (v, f) := nan3; (v, f ||| fINF)
  | .inf x, _ => (.inf x, fINF)
  | _, .inf y => (.inf y, fINF)
  | .fin s1 n1 d1 e1, .fin s2 n2 d2 e2 => (finAdd s1 n1 d1 e1 s2 n2 d2 e2, 0)

def readAdd (f x : Nat) : Val × Exc := if f = 0x0A then decode32 x else if f = 0x07 then decodeFloat 0x07 x else (vint (signed 32 x), 0)

/-- The sum of a slot's value and a contribution's, with the flags that count. -/
def adderSum (slot old f code : Nat) : Nat × List Exc :=
  if slot = 0x0C then
    let v := signed 32 old + signed 32 code
    if v > 2 ^ 31 - 1 then (2 ^ 31 - 1, [fSATURATE]) else if v < -(2 ^ 31) then (2 ^ 31, [fSATURATE]) else (ofInt 32 v, [0])
  else if slot = 0x0B then
    let (a, fa) := readW96 old 3
    let (b, fb) : Group × Exc := if f = 0x0B then readW96 code 3 else let (v, x) := readAdd f code; (toW96 v, x)
    let (r, ev) := addW96 a b 3
    let lost := gShed (addW96 (setBit a 111 false) (setBit b 111 false) 3).1   -- by this addition
    ((canonW96 r).toNat, addFlags [fa, fb, (if ev then fINVALID else 0) ||| (if gNan a || gNan b then fNAN_IN else 0) |||
      (if gPinf a || gNinf a || gPinf b || gNinf b || (!gNan r && (gPinf r || gNinf r)) then fINF else 0) ||| (if lost then fSHED else 0)])
  else
    let (a, fa) := readAdd slot old
    let (b, fb) := readAdd f code
    let (v, fv) := exactSum a b
    let (x, fx) := if slot = 0x0A then round32 v else roundFloat 0x07 0 0 v
    (x, addFlags [fa, fb, fv ||| fx])

/-! ## Atomic queues (R258) -/

/-- Queue of a channel: stack × 32 + channel. -/
def queueAt (pa : Nat) : Nat := stackOf pa * 32 + channelOf pa
def contribOf (s : State) (id : Nat) : Contrib := tget {} s.hbm.contribs id
def setContrib (id : Nat) (k : Contrib) (s : State) : State := { s with hbm := { s.hbm with contribs := tset s.hbm.contribs id k } }
/-- Physical address of a line of a slot's payload. -/
def linePa (s : State) (k : Contrib) (line : Nat) : Nat := translate s k.ctx (k.slot + 64 + 64 * line)

/-- Hand line adds to the queues while they have room, in order. -/
def handOver : Nat → Nat → State → State
  | 0, _, s => s
  | n + 1, id, s =>
    let k := contribOf s id
    match k.todo with
    | [] => s
    | a :: t =>
      let q := queueAt (linePa s k a.line)
      let l := tget [] s.hbm.atomQ q
      if l.length ≥ 64 then s else
      handOver n id (setContrib id { k with todo := t, queued := k.queued + 1 } { s with hbm := { s.hbm with atomQ := tset s.hbm.atomQ q (l ++ [a]) } })
/-- Every master goes on with its oldest contribution. -/
def refill (s : State) : State :=
  (s.hbm.contribs.foldl (fun (r : State × List Nat) e =>
    if r.2.contains e.2.master then r else
    let s := handOver e.2.todo.length e.1 r.1
    (s, if (contribOf s e.1).todo.isEmpty then r.2 else e.2.master :: r.2)) (s, [])).1

/-- The line adds of the elements of some rows' valid columns that lie in a range of payload lines. -/
def addsOf (h : Hdr) (fmt : Nat) (code : Nat → Nat → Option Nat) (id lo hi : Nat) : List LineAdd :=
  let l := (List.range (hVRows h)).flatMap (fun r => (List.range (hVCols h)).filterMap (fun c =>
    let o := elemOff fmt (hCols h) r c
    if lo ≤ o / 512 && o / 512 < hi then (code r c).map (fun x => (o / 512, o % 512, x)) else none))
  (List.range (hi - lo)).filterMap (fun i =>
    match l.filter (fun x => x.1 == lo + i) with
    | [] => none
    | es => some { id := id, line := lo + i, elems := es.map (·.2) })

/-! ## The record update (R256) -/

/-- The record after a contribution: owner set, exception fields and POISONED ORed in, CONTRIBUTIONS advanced where it
counts. -/
def recordAfter (r h : Hdr) (pois counts : Bool) (exc : Exc) : Hdr :=
  let r := setFld r 79 72 (hOwner r ||| hOwner h).toNat
  let r := setFld r 111 96 (fld r 111 96 ||| (hInherit h).toNat)
  let r := setFld r 95 80 (fld r 95 80 ||| exc.toNat)
  let r := if pois then setBit r 32 true else r
  if counts then setFld r 391 368 (natMin (rContribs r + 1) 0xFFFFFE) else r

/-- The outcome of a contribution whose lines are all dealt with: the record is updated in one write, and the status of the
contribution is answered. -/
def contribEnd (id : Nat) (s : State) : State × Status :=
  let k := contribOf s id
  let pa := translate s k.ctx k.slot
  let r := hdrV s k.ctx k.slot
  let s := { s with hbm := { s.hbm with contribs := tdrop (· == id) s.hbm.contribs } }
  let put (r : Hdr) : State := (lineWrite k.master pa r (intercept pa 64 s).1).1
  let cut (st : Status) : State × Status :=
    if k.added then (put (recordAfter r k.hdr true false k.exc), st) else (s, st)
  if poisoned s pa then (contribRefused k.master k.ctx k.slot k.hdr .poison s, .poison)
  else if rKindOf r ≠ 0x80 then (contribRefused k.master k.ctx k.slot k.hdr .badDescriptor s, .badDescriptor)
  else if hEpoch r ≠ hEpoch k.hdr then (contribRefused k.master k.ctx k.slot k.hdr .staleGeneration s, .staleGeneration)
  else match k.failed with
  | some st => cut st
  | none =>
    if k.crcBad then cut .checksumFail
    else
      let s := put (recordAfter r k.hdr (k.pois || hPois k.hdr) true k.exc)
      (if hPois k.hdr then countPoison k.ctx 1 s else s, .ok)

/-- A contribution starts, with the line adds its master hands over at once. -/
def contribStart (k : Contrib) (s : State) : Nat × State :=
  let id := s.hbm.adds
  (id, refill (setContrib id { k with todo := k.todo.map (fun a => { a with id := id }) } { s with hbm := { s.hbm with adds := id + 1 } }))

/-- One line add (R258, R247, R248): read, verify, add, write. Answers the state and the contribution. -/
def lineAdd (q : Nat) (find : HbmFind) (s : State) : Option (Nat × State) :=
  match tget [] s.hbm.atomQ q with
  | [] => none
  | a :: t =>
    let k := contribOf s a.id
    let pa := linePa s k a.line
    let k := { k with queued := k.queued - 1 }
    let s := setContrib a.id k { s with hbm := { s.hbm with atomQ := tset s.hbm.atomQ q t } }
    if poisoned s pa then some (a.id, setContrib a.id { k with pois := true } s)
    else if findHits s pa find then
      let s := memRespond pa (memCaptureBy 4 (hTensor k.hdr) 0x21 k.master pa pa 0 0 .tagFail (findEffect k.master pa find false s))
      if !(s.hbm.contribs.any (fun e => e.1 == a.id)) then some (a.id, s) else
      some (a.id, setContrib a.id { contribOf s a.id with failed := some .tagFail, todo := [], queued := 0, whole := true }
        { s with hbm := { s.hbm with atomQ := s.hbm.atomQ.map (fun e => (e.1, e.2.filter (fun b => b.id != a.id))) } })
    else
      let w := fmtBits k.fmt.toNat
      let (d, x) := a.elems.foldl (fun (r : BitVec 512 × List Exc) e =>
        let (y, f) := adderSum k.fmt.toNat (nbits r.1.toNat (e.1 + w - 1) e.1) (hFormat k.hdr) e.2
        (setFld r.1 (e.1 + w - 1) e.1 y, r.2 ++ f)) (lineData s pa, [])
      let s := cacheFetch pa s
      let s := x.foldl (fun s f => countFlags k.ctx f s) s
      match lineWrite k.master pa d s with
      | (s, .ok) => some (a.id, setContrib a.id { contribOf s a.id with added := true, exc := x.foldl (· ||| ·) k.exc } s)
      | (s, st) => some (a.id, setContrib a.id { contribOf s a.id with failed := some st } s)

/-- A group under re-encryption meets a range of a context. -/
def busyIn (s : State) (c va n : Nat) : Bool :=
  s.hbm.groups.any (fun g => g.2.busy && (piecesOf s c va n).any (fun x => !isAlias x.1 && x.1 / 4096 ≤ g.1 && g.1 ≤ (x.1 + x.2 - 1) / 4096))
/-- Every line of a contribution has been handed over and dealt with, no group of its slot is under re-encryption, whose end the last of its
lines and the update of the record wait for (R256, R260), and the record's line does not wait for push-ahead (R387). -/
def contribReady (s : State) (id : Nat) : Bool :=
  let k := contribOf s id
  s.hbm.contribs.any (fun e => e.1 == id) && k.whole && k.todo.isEmpty && k.queued == 0 && !busyIn s k.ctx k.slot (64 + hData (hdrV s k.ctx k.slot)) &&
  !pushStuck (snapAt s (translate s k.ctx k.slot)) (translate s k.ctx k.slot)

end Sys2Proof.Machine
end

