-- ==== Sys2Proof/Machine/Delivery.lean ====
section
/-! DEFINITION. Delivery over links (chapter 9): sending tiles, forwarding, the checks of a delivering die, transfers received,
paths and links lost, and the outcome of contributions. -/

namespace Sys2Proof.Machine

/-! ## Receive windows (R280) -/

def wVBase (w : RecvWindow) : Nat := fld w 255 208
def wSize (w : RecvWindow) : Nat := fld w 207 179 * 64
def wReduce (w : RecvWindow) : Bool := fld w 162 161 == 1
def wDiscard (w : RecvWindow) : Bool := bit w 160
def wEpoch (w : RecvWindow) : Nat := fld w 159 128
def wNotify (w : RecvWindow) : Nat := fld w 127 80

/-! ## Mirror layout (R355, R374): pairs are (committed VA, working VA, bytes, slot bytes) -/

def pairSlots (b : Nat × Nat × Nat × Nat) : Nat := b.2.2.1 / natMax 1 b.2.2.2
/-- The charter has BUDDY_MIRROR set (R354). -/
def chMirrorOf (ch : Charter) : Bool := nbit (be ch.doc 0x006 2) 1
def mirrorTiles (ch : Charter) : Nat := ((bankPairs ch).map pairSlots).sum
/-- Of the n-th slot of the banks: its pair, the pair's offset in a mirror bank, its index in the pair. -/
def slotAtIndex (l : List (Nat × Nat × Nat × Nat)) : Nat → Nat → Option ((Nat × Nat × Nat × Nat) × Nat × Nat)
  | off, n => match l with
    | [] => none
    | b :: t => if n < pairSlots b then some (b, off, n) else slotAtIndex t (off + b.2.2.1) (n - pairSlots b)
/-- Virtual address of mirror bank A or B (R355). -/
def mirrorBank (ch : Charter) (odd : Bool) : Nat :=
  let e := be ch.doc 0xA38 16
  (if odd then nbits e 99 73 else nbits e 126 100) * 2 ^ 21
/-- Where the n-th tile of a mirror lands at the buddy, and of a restore at the replacement. -/
def mirrorVa (ch : Charter) (odd : Bool) (n : Nat) : Nat :=
  match slotAtIndex (bankPairs ch) 0 n with
  | some (b, off, i) => mirrorBank ch odd + off + i * b.2.2.2
  | none => mirrorBank ch odd
def committedVa (ch : Charter) (n : Nat) : Nat :=
  match slotAtIndex (bankPairs ch) 0 n with
  | some (b, _, i) => b.1 + i * b.2.2.2
  | none => 0

/-! ## Transfers received (R281, R282) -/

def rxOf (s : State) (key tr : Nat) : Rx := tget {} (pathOf s key).rx tr
def setRx (key tr : Nat) (r : Rx) (s : State) : State := setPath s key { pathOf s key with rx := tset (pathOf s key).rx tr r }
def rxDrop (key tr : Nat) (s : State) : State := setPath s key { pathOf s key with rx := tdrop (· == tr) (pathOf s key).rx }
/-- The link a delivering device answers on. -/
def backLink (s : State) (key : Nat) : Nat := (pathOf s key).links.head?.getD 0

/-- The contribution in progress of a transfer that goes no further is cut short (R291). -/
def rxHalt (key tr : Nat) (st : Status) (s : State) : State :=
  match (rxOf s key tr).add with
  | none => s
  | some id =>
    let k := contribOf s id
    if k.whole || !(s.hbm.contribs.any (fun e => e.1 == id)) then s
    else setContrib id { k with whole := true, todo := [], failed := some (k.failed.getD st) } s
/-- A transfer is refused, once: REFUSED carries the code (R281). -/
def rxStop (key tr : Nat) (st : Status) (s : State) : State :=
  let r := rxOf s key tr
  if r.fail.isSome then s
  else rxHalt key tr st
    (sendCtrl (backLink s key) (backFrame 0x31 (key % 4096) tr (bytesBE 2 (statusCode st))) (setRx key tr { r with fail := some st } s))

/-- The contribution of an arrival to the NOTIFY slot counts and adds nothing (R280, R80); in a group under re-encryption its record
is updated when that is done (R260). -/
def notifySlot (m c va : Nat) (s : State) : State :=
  let r := hdrV s c va
  if va = 0 || poisonV s c va 64 || rKindOf r ≠ 0x80 || (rExpected r ≠ 0 && rContribs r ≥ rExpected r) || finalIn s c va (64 + hData r) ||
     accessCheck s c [rATOMIC] va 64 != .ok then s
  else if groupBusy s (translate s c va) then
    (contribStart { ctx := c, slot := va, hdr := BitVec.ofNat 512 (hEpoch r * 2 ^ 128), fmt := BitVec.ofNat 8 (hFormat r), master := m, whole := true } s).2
  else (lineWrite m (translate s c va) (setFld r 391 368 (natMin (rContribs r + 1) 0xFFFFFE)) (intercept (translate s c va) 64 s).1).1

/-- The n-th tile of a mirror or of a restore begins to land (R374, R375): the bank it goes to is no complete mirror any more, and the
first tile of a restore opens it. -/
def mirrorOpen (p win epoch n : Nat) (s : State) : State :=
  let q := partOf s p
  let v := q.step
  let v : Step :=
    if win = 62 then (if epoch % 2 = 0 then { v with heldA := none } else { v with heldB := none })
    else if n = 0 then { v with restore := some (BitVec.ofNat 32 epoch), resIn := 0 } else v
  setPart s p { q with step := v }
/-- The n-th tile of a mirror or of a restore is in place (R374, R375). Tiles count in their order, from a first one on; those of a
stream cut short do not count for a later one. -/
def mirrorTile (p win epoch n : Nat) (s : State) : State :=
  let q := partOf s p
  match q.charter with
  | none => s
  | some ch =>
    let v := q.step
    if win = 62 then
      if n ≠ 0 && (v.mirInEp.toNat ≠ epoch || v.mirIn ≠ n) then s else
      let v := { v with mirInEp := BitVec.ofNat 32 epoch, mirIn := n + 1 }
      if n + 1 < mirrorTiles ch then setPart s p { q with step := v } else
      let v := if epoch % 2 = 0 then { v with heldA := some (BitVec.ofNat 32 epoch), mirIn := 0 } else { v with heldB := some (BitVec.ofNat 32 epoch), mirIn := 0 }
      postJoint 5 p (bytesBE 8 v.origin.toNat ++ bytesBE 4 epoch) (setPart s p { q with step := v })
    else
      if v.restore != some (BitVec.ofNat 32 epoch) || v.resIn ≠ n then s else
      if n + 1 < mirrorTiles ch then setPart s p { q with step := { v with resIn := n + 1 } } else
      postJoint 6 p (bytesBE 4 epoch ++ bytesBE 2 0)
        (setPart s p { q with step := { v with resIn := 0, restore := none, banks := .settled, commit := some (BitVec.ofNat 32 epoch), wrOk := false } })
/-- A restore through window 63 is cut short: RESTORE_DONE carries the status (R375; DESIGN CHOICE, log entry 163). -/
def restoreCut (p : Nat) (st : Status) (s : State) : State :=
  let q := partOf s p
  match q.step.restore with
  | none => s
  | some e => postJoint 6 p (bytesBE 4 e.toNat ++ bytesBE 2 (statusCode st)) (setPart s p { q with step := { q.step with restore := none, resIn := 0 } })

/-- The transfer's last tile is in place: NOTIFY, then DELIVERED with its LATE bit (R280, R282). -/
def rxSettle (key tr : Nat) (s : State) : State :=
  let r := rxOf s key tr
  if !r.ended || !r.wait.isEmpty || r.fail.isSome then s else
  let e := entryOf s key
  let p := ePart e
  let w := tget 0 (partOf s p).windows (eWindow e)
  let slot := translate s (winCtx w) (wNotify w)
  if wNotify w ≠ 0 && pushStuck (snapAt s slot) slot then s else   -- its NOTIFY waits for push-ahead (R387)
  let s := notifySlot (0x40 + key / 4096) (winCtx w) (wNotify w) s
  let late := r.late || r.due.any (fun d => d < (now s : Int))   -- its last line may have waited for an adder (R286)
  let s := if late then setPart s p { partOf s p with lateCnt := (partOf s p).lateCnt + 1 } else s
  let f := backFrame 0x30 (key % 4096) tr []
  rxDrop key tr (sendCtrl (backLink s key) { f with hdr := setBit f.hdr 243 late } s)

/-- Tiles of a tile mover's descriptor, and its class (R250). -/
def tCount (d : BitVec 512) : Nat := fld d 335 312
def tBounded (d : BitVec 512) : Bool := fld d 25 24 == 1
/-- A bounded memory descriptor whose last tile is moved, and its contributions added, is late (R286). It keeps the rate at which it was
accepted (R292). -/
def moverLate (s : State) (r : MovRun) : Bool :=
  r.done = tCount r.desc && r.adds.isEmpty && tBounded r.desc && dOp r.desc != 0x66 && r.first == .ok &&
    now s > r.accept + 1500 + r.ext + ceilDiv (r.charged * 10000000) (natMax 1 r.rate)
/-- A late descriptor completes with LATE and advances its partition's LATE count. -/
def lateCheck (ctx c m : Nat) (s : State) : State :=
  let p := (ctxOf s ctx).part.toNat
  if (coreOf s c).ctx == some ctx && ((tget {} (coreOf s c).movers m).run).any (moverLate s) then
    modMover ctx c m (fun r => { r with first := .late }) (setPart s p { partOf s p with lateCnt := (partOf s p).lateCnt + 1 })
  else s
/-- A contribution has its status: its tile mover or its transfer learns it. -/
def contribNotify (k : Contrib) (id : Nat) (st : Status) (s : State) : State :=
  match k.path with
  | none =>
    lateCheck k.ctx (k.master / 2) (k.master % 2) (modMover k.ctx (k.master / 2) (k.master % 2) (fun r =>
      if !r.adds.contains id then r else
      let r := { r with adds := r.adds.filter (· != id) }
      if st == .ok then r else if st == .checksumFail then { r with first := if r.first == .ok then st else r.first }
      else { r with status := some (r.status.getD st) }) s)
  | some (key, tr) =>
    let x := rxOf s key tr
    if !x.wait.contains id then s else
    let s := setRx key tr { x with wait := x.wait.filter (· != id) } s
    if st == .ok then rxSettle key tr s else rxStop key tr st s

/-- End a contribution whose lines are all dealt with. -/
def contribSettle (id : Nat) (s : State) : State :=
  if !contribReady s id then s else
  let k := contribOf s id
  let (s, st) := contribEnd id s
  contribNotify k id st s

/-- Contributions that are ready end, and what waited for them or for push-ahead goes on. -/
def settleAdds (s : State) : State := s.hbm.contribs.foldl (fun s e => contribSettle e.1 s) s
/-- Transfers received whose end waited for push-ahead end. -/
def settleAll (s : State) : State :=
  let s := settleAdds s
  s.paths.recs.foldl (fun s x => x.2.rx.foldl (fun s y => rxSettle x.1 y.1 s) s) s

/-- The contribution of a transfer's tile in progress is cut short, and ends once its lines are dealt with (R291). -/
def rxCutTile (key tr : Nat) (st : Status) (s : State) : State :=
  let s := rxHalt key tr st s
  match (rxOf s key tr).add with | some id => contribSettle id s | none => s
/-- A restore that arrives on a path is cut short. -/
def restoreCutOn (key : Nat) (st : Status) (s : State) : State :=
  let e := entryOf s key
  if eRole e = 2 && eWindow e = 63 then restoreCut (ePart e) st s else s
/-- The contributions that a path was bringing are cut short (R291). -/
def rxCut (key : Nat) (s : State) : State :=
  restoreCutOn key .linkLost ((pathOf s key).rx.foldl (fun s x => rxCutTile key x.1 .linkLost s) s)
/-- A frame of a transfer is refused (R281), which cuts the tile in progress short (R291). -/
def rxRefuse (key tr : Nat) (st : Status) (s : State) : State := restoreCutOn key st (rxCutTile key tr st (rxStop key tr st s))

/-! ## Paths and links lost -/

/-- A path is lost at its origin or at its delivering device. -/
def pathLost (key : Nat) (s : State) : State :=
  pathFree key (pathAnswer key .linkLost (pathState key 0 (transfersDone key .linkLost (rxCut key s))))

/-- A link carries no traffic any more: its paths are lost; as a transit the device tells the origins (R265). -/
def linkPathsLost (l : Nat) (s : State) : State :=
  s.paths.table.foldl (fun s x =>
    let key := x.1
    let e := x.2
    let r := pathOf s key
    if !eValid e || !(r.links.contains l) then s
    else if eRole e = 1 then
      let s := match r.links.head? with
        | some i => if eOutLink e = l && i != l then sendCtrl i (backFrame 0x24 (key % 4096) 0 []) s else s
        | none => s
      pathFree key s
    else pathLost key s) s

/-- A link leaves UP (R265): LINK_RESET goes out where the lanes still carry it, its transfers complete with LINK_LOST,
and its hop keys are zeroised. The fence is logged and counted (R427, R416). -/
def fenceLink (l cause : Nat) (s : State) : State :=
  if !linkUp s l then s else
  let s := if cause = 0x10 || cause = 0x11 || cause = 0x17 then s else sendFrame l (ctrlFrame 0x13 0 0 []) s
  let s := linkPathsLost l s
  let s := dropQueued l (fun _ => true) (zeroKeys (fun n => n == 0x120 + 2 * l || n == 0x121 + 2 * l) s)
  let k := linkOf s l
  let s := setLink s l { k with ctrlQ := [], retrQ := [],
                                fences := k.fences.filter (fun t => now s < t + 3600000000000) ++ [now s] }
  let (n, full) := satAdd 32 (tget 0 s.ledger.linkFences l) 1
  let s := { s with ledger := { s.ledger with linkFences := tset s.ledger.linkFences l n } }
  let s := if full then saturate 27 s else s
  linkMove l .fenced cause (faultLog 0x0001 l cause 0xFF s)

/-- The shipped firmware retires a link after 5 fences in one hour; the link keeps its lanes off (R264). -/
def retireLink (l cause : Nat) (s : State) : State :=
  let s := linkMove l .retired 0x16 s
  let s := setLink s l { linkReset with cause := 0x16, fences := (linkOf s l).fences }
  faultLog 0x0002 l cause 0xFF { s with nvm := { s.nvm with retiredLks := setBit s.nvm.retiredLks l true } }

/-- A link outside UP loses its clock, or its lanes: it goes to DOWN at once (R27). -/
def linkCut (l cause : Nat) (s : State) : State :=
  match linkSt s l with
  | .up => fenceLink l cause s
  | .training => linkDown l cause s
  | .hello => linkDown l cause s
  | .attest => linkDown l cause s
  | .keyed => linkDown l cause s
  | _ => s


/-! ## Sending tiles (R273, R282, R286) -/

/-- Additional data of the path tag: header bits [227:176], TRANSFER and OFFSET (R272). -/
def pathAad (h : BitVec 256) : Bytes := bytesBE 13 (fld h 227 176 * 2 ^ 48 + fTransfer h * 2 ^ 32 + fOffset h)
/-- Payloads of the frames of a tile. -/
def chunks (n : Nat) : Nat → Bytes → List Bytes
  | 0, _ => []
  | f + 1, b => if b.isEmpty then [] else b.take n :: chunks n f (b.drop n)

/-- Queue the frames of one tile on an origin path: `accept` is the time of acceptance and `e0` the charged bytes before the
tile, of a bounded transfer. `place` is the offset of its slot in the far window (R279, DESIGN CHOICE, log entry 52), and of a mirror or
restore the tile's index. -/
def sendTile (key tr off place : Nat) (bounded last eng : Bool) (part ctx gen epoch accept e0 : Nat) (rate7 : Nat) (b : Bytes) (s : State) : State :=
  let e := entryOf s key
  let r := pathOf s key
  let slot := keyOf s r.slot
  let cs := chunks 8192 (b.length / 8192 + 1) b
  let one (a : State × Nat × Nat) (c : Bytes) : State × Nat × Nat :=
    let (s, o, ch) := a
    let q := (pathOf s key).seq
    let ch := ch + c.length + 72
    let h : BitVec 256 := BitVec.ofNat 256 (1 * 2 ^ 248 + (if bounded then 0 else 1) * 2 ^ 246 + (if o = off then 1 else 0) * 2 ^ 245 +
      (if last && o + c.length == off + b.length then 1 else 0) * 2 ^ 244 + eHops e * 2 ^ 240 + eOutPath e * 2 ^ 228 + part * 2 ^ 224 + ctx * 2 ^ 216 +
      gen * 2 ^ 208 + epoch * 2 ^ 176 + q % 2 ^ 48 * 2 ^ 96 + tr * 2 ^ 80 + o % 2 ^ 32 * 2 ^ 48 + c.length * 2 ^ 34 + 0x7FFFFFFF)
    let (x, t) := Config.gcmSeal (slot.take 32) (slice slot 32 4 ++ bytesBE 8 q) (pathAad h) c
    let bound : Int := accept + (eHops e + 1) * 2000 + eD e + ceilDiv (ch * 10000000) (natMax 1 rate7)
    let s := setPath s key { pathOf s key with seq := q + 1, notice := (pathOf s key).notice || q + 1 ≥ 2 ^ 48 - 2 ^ 20 }
    (queueFrame (eOutLink e) { f := { hdr := h, payload := padTo c.length x, ptag := t, place := place }, cls := if bounded then 0 else 1, pool := part,
                               key := if bounded then bdKey e else ubKey part, bound := bound, eng := eng } s, o + c.length, ch)
  (cs.foldl one (s, off, e0)).1
/-- Bytes charged to a link reservation for a footprint (R285). -/
def chargedLink (fp : Nat) : Nat := fp + 72 * ceilDiv fp 8192

/-! ## Receiving DATA frames -/

/-- A transit forwards a frame (R278). -/
def forward (l key : Nat) (f : Frame) (seq : Nat) (s : State) : State :=
  let e := entryOf s key
  let src := some (l, seq, creditsOf (fLength f.hdr))
  if fHops f.hdr = 0 then
    returnCredits src (misrouted l s)
  else
    let h := setFld (setFld f.hdr 241 240 (fHops f.hdr - 1)) 239 228 (eOutPath e)
    let bounded := fClass f.hdr == 0
    let rem := fBound f.hdr - (linkOf s l).d
    let h := if bounded && rem < 0 then setBit h 243 true else h
    queueFrame (eOutLink e) { f := { f with hdr := h }, cls := fClass f.hdr, pool := 16, key := if bounded then bdKey e else ubKey 16,
                              bound := (now s : Int) + rem, src := src } s

/-- A window that the charter's buddy mirror reserves (R375). -/
def mirrorWin (s : State) (p win : Nat) : Option Charter :=
  match (partOf s p).charter with
  | some ch => if win ≥ 62 && chMirrorOf ch then some ch else none
  | none => none
/-- Where a frame's tile lies: its slot's virtual address (R279, R355). A tile of the mirror or of a restore is placed by its index. -/
def tileVa (s : State) (p win : Nat) (w : RecvWindow) (f : Frame) : Nat :=
  match mirrorWin s p win with
  | some ch => if win = 62 then mirrorVa ch (fEpoch f.hdr % 2 = 1) f.place else committedVa ch f.place
  | none => wVBase w + f.place
/-- Check 4 of R281: bytes lie inside the window; in one of the buddy mirror, inside the slot of their tile. -/
def windowHolds (s : State) (p win : Nat) (w : RecvWindow) (place base off len : Nat) : Bool :=
  match mirrorWin s p win with
  | some ch =>
    (match slotAtIndex (bankPairs ch) 0 place with
    | some (b, _, _) => off + len ≤ b.2.2.2
    | none => false)
  | none => wVBase w ≤ base + off && base + off + len ≤ wVBase w + wSize w

/-- The contribution of a REDUCE-mode tile takes the elements that one frame brings. -/
def rxReduce (c : Nat) (rx : Rx) (lo hi : Nat) (s : State) : State :=
  let h : Hdr := BitVec.ofNat 512 (natLE (rx.buf.take 64))
  let tmp := mwrite [] 0 rx.buf
  match rx.add with
  | none => s
  | some id =>
    let k := contribOf s id
    let w := fmtBits (hFormat h)
    let code (r q : Nat) : Option Nat :=
      let o := 64 + elemOff (hFormat h) (hCols h) r q / 8
      if lo ≤ o && o < hi then (if w = 4 then none else elemCode tmp 0 h r q) else none
    let adds := addsOf h k.fmt.toNat code id 0 (hData (hdrV s c k.slot) / 64 + 1)
    let whole := rx.buf.length ≥ footprint (hPayload h)
    refill (setContrib id { k with todo := k.todo ++ adds, whole := whole, crcBad := whole && !payloadOk tmp 0 h } s)

/-- A frame that a delivering die accepted is stored (R273, R280, R281). -/
def rxStore (l key tr : Nat) (f : Frame) (plain : Bytes) (s : State) : State :=
  let e := entryOf s key
  let p := ePart e
  let w := tget 0 (partOf s p).windows (eWindow e)
  let c := winCtx w
  let m := 0x40 + key / 4096
  let h := f.hdr
  let rx := rxOf s key tr
  let left := fBound h - (linkOf s l).d
  let late := fClass h == 0 && (fLate h || left < 0)
  let rx := { rx with buf := rx.buf ++ plain, late := rx.late || late, due := if fClass h = 0 then some ((now s : Int) + left) else rx.due }
  let th : Hdr := BitVec.ofNat 512 (natLE (rx.buf.take 64))
  let va := rx.base + (fOffset h - rx.start)
  let whole := rx.buf.length ≥ footprint (hPayload th)
  let s := setRx key tr rx s
  match if fFirst h && !wReduce w then hdrCheckUse none carriedFormat th else none with
  | some (_, st) => rxRefuse key tr st s
  | none =>
    let acc := accessCheck s c [if wReduce w then rATOMIC else rWRITE] va plain.length
    if acc != .ok then rxRefuse key tr acc s
    else
      let s : State :=
        if wReduce w then
          if fFirst h then
            let st := contribCheck s c rx.base true th
            if st != .ok then rxRefuse key tr st (contribRefused m c rx.base th st s)
            else
              let (id, s) := contribStart { ctx := c, slot := rx.base, hdr := th, fmt := BitVec.ofNat 8 (hFormat (hdrV s c rx.base)), master := m, path := some (key, tr) } s
              let rx := { rx with add := some id, wait := rx.wait ++ [id] }
              rxReduce c rx 0 rx.buf.length (setRx key tr rx s)
          else rxReduce c rx (rx.buf.length - plain.length) rx.buf.length s
        else
          let b := if fFirst h then (0 : Byte) :: plain.drop 1 else plain
          let mirror := (mirrorWin s p (eWindow e)).isSome
          let s := if mirror && fFirst h then mirrorOpen p (eWindow e) (fEpoch h) f.place s else s
          match putVirtual m c va b s with
          | (s, .ok) =>
            if whole then
              let s := (putVirtual m c rx.base (hBytes th) s).1
              if mirror then mirrorTile p (eWindow e) (fEpoch h) f.place s else s
            else s
          | (s, st) => rxRefuse key tr st s
      let s := if fLast h then setRx key tr { rxOf s key tr with ended := true } s else s
      -- a transfer that ends inside a tile cuts it short (DESIGN CHOICE, log entry 153)
      let s := if fLast h && !whole && wReduce w then rxRefuse key tr .badLength s else s
      let s := match (rxOf s key tr).add with | some id => contribSettle id s | none => s
      rxSettle key tr s

/-- The transfer record as a frame finds it: a tile's first frame fixes its slot, and a transfer's first one starts anew. A tile whose
frames have not all arrived by then is cut short (DESIGN CHOICE, log entry 153). -/
def rxBegin (key : Nat) (h : BitVec 256) (base : Nat) (s : State) : State :=
  let tr := fTransfer h
  if !fFirst h then s else
  let s := rxCutTile key tr .badLength s
  setRx key tr { (if fOffset h = 0 then {} else rxOf s key tr) with start := fOffset h, base := base, buf := [], add := none } s
/-- A delivering die checks a DATA frame (R281), each frame that fails counts, then stores it. One whose write stalls on push-ahead waits in
the receive buffer (R387). -/
def rxData (l key : Nat) (f : Frame) (s : State) : State × Bool :=
  let e := entryOf s key
  let p := ePart e
  let q := partOf s p
  let w := tget 0 q.windows (eWindow e)
  let h := f.hdr
  let tr := fTransfer h
  let k := ctxOf s (winCtx w)
  let slot := keyOf s ((pathOf s key).slot + 1)
  let s := rxBegin key h (tileVa s p (eWindow e) w f) s
  if fPart h != p || fCtx h != eSendCtx e || fGen h != eSendGen e || !ctxLive s (winCtx w) p || winGen w != k.gen.toNat || winGen w == 0 then
    (rxRefuse key tr .staleGeneration (setPart s p { q with staleGen := q.staleGen + 1 }), true)
  else if wReduce w && (fEpoch h != wEpoch w || wDiscard w) then
    (rxRefuse key tr .staleGeneration (setPart s p { q with epochMis := q.epochMis + 1 }), true)
  else
    if !windowHolds s p (eWindow e) w f.place (rxOf s key tr).base (fOffset h - (rxOf s key tr).start) (fLength h) then
      (rxRefuse key tr .outOfRegion (setPart s p { q with oorCount := q.oorCount + 1 }), true)
    else if (rxOf s key tr).fail.isSome then (s, true)
    else match Config.gcmOpen (slot.take 32) (slice slot 32 4 ++ bytesBE 8 (fPathSeq h)) (pathAad h) f.payload f.ptag with
    | none => (rxRefuse key tr .tagFail s, true)
    | some b =>
      let n := fLength h
      let va := (rxOf s key tr).base + (fOffset h - (rxOf s key tr).start)
      match if wReduce w || accessCheck s (winCtx w) [rWRITE] va n != .ok then (s, true) else interceptV (winCtx w) va n s with
      | (s, false) => (s, false)
      | (s, true) => (rxStore l key tr f (padTo n b) s, true)
/-- A DATA frame at its delivering die: behind frames of its path that wait, or checked and stored, when its credits return (R275). -/
def rxIn (l key : Nat) (f : Frame) (s : State) : State :=
  let hold (s : State) : State := { s with paths := { s.paths with held := s.paths.held ++ [(l, key, f)] } }
  if s.paths.held.any (fun x => x.2.1 == key) then hold s else
  match rxData l key f s with
  | (s, true) => returnCredits (some (l, fSeq f.hdr, creditsOf (fLength f.hdr))) s
  | (s, false) => hold s
/-- Frames that waited for push-ahead are tried again, in order. -/
def rxGoOn (s : State) : State :=
  s.paths.held.foldl (fun s x => rxIn x.1 x.2.1 x.2.2 s) { s with paths := { s.paths with held := [] } }

end Sys2Proof.Machine
end

