-- ==== Sys2Proof/Machine/MovOps.lean ====
section
/-! DEFINITION. Tile movers (R250-R254): descriptor fields, validation, admission, and the move of one tile. -/

namespace Sys2Proof.Machine

/-! ## The descriptor (R250) -/

def tSrc (d : BitVec 512) : Nat := fld d 511 464
def tDst (d : BitVec 512) : Nat := fld d 463 416
def tSrcStride (d : BitVec 512) : Int := signed 40 (fld d 415 376)
def tDstStride (d : BitVec 512) : Int := signed 40 (fld d 375 336)
def tIndex (d : BitVec 512) : Nat := fld d 311 293
def tRows (d : BitVec 512) : Nat := fld d 292 280
def tLimit (d : BitVec 512) : Nat := fld d 279 256
def tTensor (d : BitVec 512) : Nat := fld d 255 240
def tResv (d : BitVec 512) : Nat := fld d 215 208
def tWait (d : BitVec 512) : Bool := bit d 239
def tIdxMode (d : BitVec 512) : Nat := fld d 23 22
def tAcc (d : BitVec 512) : Bool := bit d 21
/-- Address of source or destination slot i; an address outside 48 bits reaches no region. -/
def slotAddr (base : Nat) (stride : Int) (i : Nat) : Nat :=
  let a : Int := base + i * stride
  if a < 0 then 2 ^ 48 else a.toNat
def tSrcAt (d : BitVec 512) (i : Nat) : Nat := slotAddr (tSrc d) (tSrcStride d) i
def tDstAt (d : BitVec 512) (i : Nat) : Nat := slotAddr (tDst d) (tDstStride d) i

/-- A TM_SEND destination (R279, R320). -/
def sendLink (d : BitVec 512) : Bool := dOp d == 0x66 && nbits (tDst d) 47 46 == 2
def sendPush (d : BitVec 512) : Bool := dOp d == 0x66 && nbits (tDst d) 47 46 == 3
def sendKey (d : BitVec 512) : Nat := pathKey (nbits (tDst d) 45 45) (nbits (tDst d) 44 33)
def pushSess (d : BitVec 512) : Nat := nbits (tDst d) 45 39
def pushWin (d : BitVec 512) : Nat := nbits (tDst d) 38 33
def pushSlot (d : BitVec 512) : Nat := nbits (tDst d) 28 0

/-- The audience of a bulk window's key (R319, R365): the release key has AUDIENCE[1], a session key admits 0x00 only. -/
def egressOk (s : State) (p : Nat) (w : BitVec 512) (owner : Byte) : Bool :=
  if fld w 285 284 = 2 then partAudience s p 1 owner else owner == 0

def moverMaster (c m : Nat) : Nat := 2 * c + m
def moverUnit (c m : Nat) : Nat := c * 2 ^ 11 + m
def moverOf (s : State) (c m : Nat) : Mover := tget {} (coreOf s c).movers m
def setMover (c m : Nat) (v : Mover) (s : State) : State := setCore s c { coreOf s c with movers := tset (coreOf s c).movers m v }
def modRunM (c m : Nat) (f : MovRun → MovRun) (s : State) : State :=
  let v := moverOf s c m
  setMover c m { v with run := v.run.map f } s

/-! ## Headers (R85, R252) -/

/-- Capture of a consumer that refuses a tile's header (R83, R86). -/
def tileRefused (c : Nat) (d : BitVec 512) (a : Nat) (h : Hdr) (order : Nat) (st : Status) (s : State) : State :=
  headerRefused (coreCtx s c) h order st { addr := a, tag := dTag d, core := c } s
/-- The header at a virtual address as a mover reads it: a poisoned line gives no byte. -/
def moverHdr (s : State) (x va : Nat) : Hdr := if poisonV s x va 64 then 0 else hdrV s x va
/-- Read and check one header: 1-5 of R85; a push takes the host port's formats. -/
def checkHdr (c : Nat) (d : BitVec 512) (consumer : Bool) (va : Nat) (s : State) : Status × Hdr × State :=
  let x := coreCtx s c
  match accessCheck s x [rREAD] va 64 with
  | .ok =>
    if sendPush d && poisonV s x va 64 then (.poison, 0, s) else   -- an egress meets a poisoned line (R95, R248)
    let h := moverHdr s x va
    (match hdrCheckUse (coreConsumer s c) (if sendPush d then hostFormat else carriedFormat) h with
    | none => (.ok, h, s)
    | some (o, st) => (st, h, if consumer then tileRefused c d (translate s x va) h o st s else s))
  | st => (st, 0, s)

/-- What validation finds: the source and destination slots, with their bytes. -/
structure MovPlan where
  srcs : List (Nat × Nat) := []
  dsts : List (Nat × Nat) := []
  idx  : List (Nat × Nat) := []   -- the index tile of a TM_GATHER
deriving DecidableEq, Repr

/-- Footprint of a source tile transposed (R251). -/
def transposeFp (h : Hdr) : Nat :=
  let g := if hNone h then (0, 0, 0) else geometry (hFormat h) false (if hMode h = 0 then 0 else 3 - hMode h) (hScaleFmt h) (hCols h) (hRows h)
  footprint (g.1 + g.2.1 + g.2.2)
/-- Shape a TM_GATHER output has (R251). -/
def gatherOut (d : BitVec 512) (h : Hdr) : TileOut :=
  { fmt := hFormat h, sf := hScaleFmt h, mode := hMode h, zp := hZero h, rows := tRows d, cols := hCols h, vrows := tRows d, vcols := hVCols h }
def accBytes (h : Hdr) : Nat := footprint (geometry (hFormat h) false 0 0 (hRows h) (hCols h)).1

/-- One source tile of a descriptor other than TM_GATHER, TM_ZERO: its status, and its slots. A contribution is checked
against its record (R256). -/
def planTile (c m : Nat) (d : BitVec 512) (i : Nat) (p : MovPlan) (s : State) : Status × MovPlan × State :=
  let x := coreCtx s c
  let src := tSrcAt d i
  let dst := tDstAt d i
  let op := dOp d
  if op = 0x65 then
    match accessCheck s x [rREAD] src 64 with
    | .ok =>
      let r := moverHdr s x src
      let k := ctxOf s x
      let st : Status :=
        if rKindOf r ≠ 0x80 then .badDescriptor else if hPart r ≠ k.part.toNat then .denied
        else if hCtx r ≠ x || hGen r ≠ k.gen.toNat then .staleGeneration else if rReserved r then .badDescriptor else .ok
      (st, { srcs := p.srcs ++ [(src, footprint (hData r))], dsts := p.dsts ++ [(dst, footprint (hData r))] }, s)
    | st => (st, p, s)
  else if op = 0x64 then
    match accessCheck s x [rREAD] src 64, accessCheck s x [rATOMIC] dst 64 with
    | .ok, .ok =>
      let h := moverHdr s x src
      let st := contribCheck s x dst false h
      (st, { srcs := p.srcs ++ [(src, footprint (hPayload h))], dsts := p.dsts ++ [(dst, footprint (hData (hdrV s x dst)))] },
       if st == .ok then s else contribRefused (moverMaster c m) x dst h st s)
    | .ok, st => (st, p, s)
    | st, _ => (st, p, s)
  else
    match checkHdr c d (op == 0x61 || sendPush d) src s with
    | (.ok, h, s) =>
      let fp := footprint (hPayload h)
      let srcs := p.srcs ++ [(src, fp)]
      if op = 0x61 then
        (if hMode h = 3 || hSparse h then .badDescriptor else if transposeFp h > footprint maxPayload then .badLength else .ok, { srcs := srcs, dsts := p.dsts ++ [(dst, transposeFp h)] }, s)
      else if op = 0x66 then
        (if sendPush d && hPois h then .poison
         else if sendPush d && !(egressOk s (ctxOf s x).part.toNat (tget 0 (sessOf s (pushSess d)).wins (pushWin d)) (hOwner h)) then .denied else .ok, { p with srcs := srcs }, s)
      else (.ok, { srcs := srcs, dsts := p.dsts ++ [(dst, fp)] }, s)
    | (st, _, s) => (st, p, s)

/-- Go through the tiles in order, stopping at the first that fails. -/
def planTiles (c m : Nat) (d : BitVec 512) : Nat → Nat → MovPlan → State → Status × MovPlan × State
  | 0, _, p, s => (.ok, p, s)
  | n + 1, i, p, s =>
    match planTile c m d i p s with
    | (.ok, p, s) => planTiles c m d n (i + 1) p s
    | r => r

/-- Source tiles of TM_GATHER share their form with the first. -/
def gatherSame (a h : Hdr) : Status :=
  if hCols h ≠ hCols a || hVCols h ≠ hVCols a || hFormat h ≠ hFormat a || hScaleFmt h ≠ hScaleFmt a || hMode h ≠ hMode a || hZero h ≠ hZero a ||
     hColOrg h ≠ hColOrg a || hSlab h ≠ hSlab a || hMode h = 2 || hSparse h || bit h 40 || hEmpty h then .badDescriptor
  else if hRows h ≠ hRows a then .badLength else .ok
def gatherTiles (c : Nat) (d : BitVec 512) (a : Hdr) : Nat → Nat → MovPlan → State → Status × MovPlan × State
  | 0, _, p, s => (.ok, p, s)
  | n + 1, i, p, s =>
    match checkHdr c d true (tSrcAt d i) s with
    | (.ok, h, s) =>
      (match gatherSame a h with
      | .ok => gatherTiles c d a n (i + 1) { p with srcs := p.srcs ++ [(tSrcAt d i, footprint (hPayload h))] } s
      | st => (st, p, s))
    | (st, _, s) => (st, p, s)

/-- Headers of a descriptor, by its operation. -/
def movPlan (c m : Nat) (d : BitVec 512) (s : State) : Status × MovPlan × State :=
  let op := dOp d
  let n := tCount d
  if op = 0x62 then
    match checkHdr c d true (unitAddr c (tIndex d)) s with
    | (.ok, ih, s) =>
      if hFormat ih ≠ 0x0C || hRows ih ≠ 1 then (.badDescriptor, {}, s)
      else if (n - 1) * tRows d ≥ hVCols ih then (.badLength, {}, s) else
      let plan : MovPlan := { idx := [(unitAddr c (tIndex d), footprint (hPayload ih))] }
      (match checkHdr c d true (tSrc d) s with
      | (.ok, h, s) =>
        (match gatherSame h h with
        | .ok =>
          if (gatherOut d h).payload > maxPayload then (.badLength, plan, s) else
          (match gatherTiles c d h (natMax 1 (ceilDiv (tLimit d) (natMax 1 (hRows h)))) 0 plan s with
          | (.ok, p, s) => (.ok, { p with dsts := (List.range n).map (fun i => (tDstAt d i, footprint (gatherOut d h).payload)) }, s)
          | r => r)
        | st => (st, plan, s))
      | (st, _, s) => (st, plan, s))
    | (st, _, s) => (st, {}, s)
  else if op = 0x63 then
    match checkHdr c d true (tSrc d) s with
    | (.ok, t, s) =>
      if tAcc d && (!slotFormat (hFormat t) || hMode t != 0 || hSparse t) then (.badDescriptor, {}, s)
      else if tAcc d && accBytes t > footprint maxPayload then (.badLength, {}, s) else
      (.ok, { srcs := [(tSrc d, footprint (hPayload t))],
              dsts := (List.range n).map (fun i => (tDstAt d i, if tAcc d then accBytes t else 64)) }, s)
    | (st, _, s) => (st, {}, s)
  else planTiles c m d n 0 {} s

/-! ## Validation (R252) -/

/-- Order of R15 of a code. -/
def codeOrder (st : Status) : Nat :=
  match st with | .denied => 2 | .staleGeneration => 3 | .fenced => 4 | .badDescriptor => 5 | .badLength => 6 | .outOfRegion => 7 | .conflict => 8 | _ => 9
/-- The valid reservation of a descriptor matches its target (R284). -/
def resvMatches (s : State) (p : Nat) (d : BitVec 512) : Bool :=
  let e := resvOf s p (tResv d)
  rValid e &&
  (if sendLink d then rKind e == 0 && pathKey (rDie e) (rPath e) == sendKey d
   else if sendPush d then rKind e == 3 else rKind e == 1)
/-- The stacks that ranges of a context touch. -/
def stacksOf (s : State) (x : Nat) (l : List (Nat × Nat)) : List Nat :=
  l.flatMap (fun r => (piecesOf s x r.1 r.2).filterMap (fun q => if isAlias q.1 || q.2 = 0 then none else some (stackOf q.1)))

/-- The descriptor's own fields, before any header is read. -/
def descChecks (s : State) (c : Nat) (d : BitVec 512) : List Check :=
  let x := coreCtx s c
  let p := (ctxOf s x).part.toNat
  let op := dOp d
  let e := entryOf s (sendKey d)
  let q := sessOf s (pushSess d)
  let w := tget 0 q.wins (pushWin d)
  [ ⟨2, sendLink d && (!eValid e || eRole e != 0 || ePart e != p), .denied⟩,
    ⟨2, sendPush d && (q.phase != .opened || !isTenantOf p q || fld w 283 282 != 2), .denied⟩,
    ⟨3, sendLink d && (eSendCtx e != x || eSendGen e != (ctxOf s x).gen.toNat), .staleGeneration⟩,
    ⟨5, fld d 207 26 != 0 || fld d 20 16 != 0 || fld d 238 216 != 0 || fld d 25 24 ≥ 2 || tIdxMode d == 3, .badDescriptor⟩,
    ⟨5, tSrc d % 64 != 0 || (op != 0x66 && tDst d % 64 != 0), .badDescriptor⟩,
    ⟨5, tCount d ≥ 2 && (tSrcStride d % 64 != 0 || tDstStride d % 64 != 0), .badDescriptor⟩,
    ⟨5, op == 0x62 && (tRows d == 0 || tRows d > 4096 || tLimit d == 0), .badDescriptor⟩,
    ⟨5, op == 0x66 && (!(sendLink d || sendPush d) || nbits (tDst d) 32 29 != 0), .badDescriptor⟩,
    ⟨5, tBounded d && !resvMatches s p d, .badDescriptor⟩,
    ⟨6, tCount d == 0xFFFFFF || (op == 0x63 && tAcc d && tLimit d == 0xFFFFFF), .badLength⟩ ]

/-- The first line of every source and destination slot, before any header is read: a region without the right refuses the
descriptor ahead of its own fields (R15, R230). -/
def slotChecks (s : State) (c : Nat) (d : BitVec 512) : List Check :=
  let x := coreCtx s c
  let op := dOp d
  let right := if op = 0x64 || (op = 0x63 && tAcc d) then rATOMIC else rWRITE
  let n := if tCount d = 0xFFFFFF then 1 else tCount d   -- no count that high: the slots it starts with still need their rights
  let bad (st : Status) : Check := ⟨codeOrder st, st != .ok, st⟩
  (List.range (if op = 0x62 || op = 0x63 then natMin n 1 else n)).map (fun i => bad (accessCheck s x [rREAD] (tSrcAt d i) 64)) ++
  (if op = 0x66 then [] else (List.range n).map (fun i => bad (accessCheck s x [right] (tDstAt d i) 64)))
/-- The regions and rights of the slots' ranges. -/
def slotRanges (s : State) (c : Nat) (d : BitVec 512) (p : MovPlan) : List Check :=
  let x := coreCtx s c
  let right := if dOp d = 0x64 || (dOp d = 0x63 && tAcc d) then rATOMIC else rWRITE
  let bad (st : Status) : Check := ⟨codeOrder st, st != .ok, st⟩
  (p.idx ++ p.srcs).map (fun r => bad (accessCheck s x [rREAD] r.1 r.2)) ++ p.dsts.map (fun r => bad (accessCheck s x [right] r.1 r.2))
/-- The ranges of the slots: regions and rights, strides, overlap, the reservation's stack. A descriptor of one tile uses no stride, nor
does one source tile that serves them all (DEDUCED, log entry 154). -/
def rangeChecks (s : State) (c : Nat) (d : BitVec 512) (p : MovPlan) : List Check :=
  let x := coreCtx s c
  slotRanges s c d p ++
  [ ⟨6, tCount d ≥ 2 && ((p.srcs.length ≥ 2 && p.srcs.any (fun r => r.2 > (tSrcStride d).natAbs)) || p.dsts.any (fun r => r.2 > (tDstStride d).natAbs)), .badLength⟩,
    ⟨7, p.dsts.any (fun a => p.srcs.any (fun b => overlaps a.1 a.2 b.1 b.2)), .outOfRegion⟩,
    ⟨5, tBounded d && dOp d != 0x66 && (let l := stacksOf s x (p.srcs ++ p.dsts)
        l.isEmpty || l.any (fun k => k != rStack (resvOf s (ctxOf s x).part.toNat (tResv d)))), .badDescriptor⟩ ]
/-- A header fails: the rights of the ranges planned so far come first in the order of R15. -/
def planFailure (s : State) (c : Nat) (d : BitVec 512) (p : MovPlan) (st : Status) : Option Status :=
  firstFailure ((slotRanges s c d p).filter (fun k => k.order < codeOrder st))

/-- Charged bytes (R285): framed bytes for a link path, the bytes moved for memory and the host port. -/
def chargedOf (d : BitVec 512) (p : MovPlan) : Nat :=
  if sendLink d then (p.srcs.map (fun r => chargedLink r.2)).sum
  else natMax (p.srcs.map (·.2)).sum (p.dsts.map (·.2)).sum

/-! ## Admission and acceptance -/

/-- A push becomes a bulk transfer whose number the device chooses, with bit 31 set (R320). -/
def pushStart (c m : Nat) (d : BitVec 512) (s : State) : State :=
  let x := coreCtx s c
  let n := pushSess d
  let id := match (List.range 4097).find? (fun i => !(s.bulk.any (fun e => e.1 == bulkKey n (2 ^ 31 + i)))) with | some i => 2 ^ 31 + i | none => 2 ^ 31
  let p := (ctxOf s x).part.toNat
  let r : Bulk := { sess := n, id := BitVec.ofNat 32 id, window := pushWin d, copy := tget 0 (sessOf s n).wins (pushWin d), first := pushSlot d, count := tCount d, out := true, bounded := tBounded d,
                    accept := now s, rateN := fillRate s (resvOf s p (tResv d)),
                    charged := (match (moverOf s c m).run with | some u => u.charged | none => 0), push := some (c, m), pauses := pauseLeft s (if tBounded d then 2 else 3), ctx := x, resv := tResv d,
                    srcs := (match (moverOf s c m).run with | some u => u.srcs | none => []) }
  modRunM c m (fun u => { u with push := some (bulkKey n id) }) { s with bulk := tset s.bulk (bulkKey n id) r }

/-- The descriptor is accepted at a time: it retains its sources, and keeps its reservation's rate (R292), from now on. -/
def accept (c m t : Nat) (d : BitVec 512) (s : State) : State :=
  let p := (ctxOf s (coreCtx s c)).part.toNat
  let s := modRunM c m (fun r => { r with waitAdm := none, accept := t, rate := fillRate s (resvOf s p (tResv d)) }) s
  if sendPush d then pushStart c m d s else s

/-- Admission of the validated descriptor at the head (R285, R318). -/
def admitMover (c m t : Nat) (s : State) : State :=
  match (moverOf s c m).run with
  | none => s
  | some r =>
    let d := r.desc
    let p := (ctxOf s (coreCtx s c)).part.toNat
    let answer (a : Admit) (s : State) : State :=
      match a with
      | .accepted => accept c m t d s
      | .notAdmitted => modRunM c m (fun r => { r with waitAdm := none, status := some .notAdmitted }) s
      | .deferred e => if tWait d then modRunM c m (fun r => { r with waitAdm := some e }) s
                       else modRunM c m (fun r => { r with waitAdm := none, status := some .deferred }) s
    if sendPush d && s.bulk.length ≥ 4096 then answer .notAdmitted s
    else if sendLink d && (pathOf s (sendKey d)).seq ≥ 2 ^ 48 - 1 then answer (.deferred t) s
    else if !tBounded d then answer .accepted s
    else if sendPush d && !s.host.up then answer .notAdmitted s
    else let (a, s) := admitAt t p (tResv d) r.charged s; answer a s

/-- A descriptor at the head of the queue is validated and enters admission; the program owner set is taken here (DEDUCED, log entry
40). -/
def moverStart (c m op : Nat) (acc : Bool) (s : State) : State :=
  let v := moverOf s c m
  if !coreLive s c || v.run.isSome then s else
  match v.queue with
  | [] => s
  | (d, g) :: t =>
    if dOp d ≠ op || (op = 0x63 && tAcc d != acc) then s else
    let k := coreOf s c
    let r : MovRun := { desc := d, grain := g, epoch := k.epoch, owner := (grainOf k g).owner, accept := now s }
    let s := setMover c m { queue := t, run := some r } s
    let stop (st : Status) (s : State) : State := modRunM c m (fun r => { r with status := some st }) s
    match firstFailure (descChecks s c d ++ slotChecks s c d) with
    | some st => stop st s
    | none =>
      if tCount d = 0 then stop .ok s else
      match movPlan c m d s with
      | (.ok, p, s) =>
        (match firstFailure (rangeChecks s c d p) with
        | some st => stop st s
        | none =>
          let s := modRunM c m (fun r => { r with
              charged := chargedOf d p,
              srcs := p.srcs ++ p.idx, dsts := p.dsts }) s
          match (p.srcs ++ p.dsts).filterMap (fun r => zotBlocks s (coreCtx s c) r.1 r.2) with
          | [] => admitMover c m (now s) s
          | e :: l => if tWait d then modRunM c m (fun r => { r with waitAdm := some (l.foldl natMax e) }) s else stop .deferred s)
      | (st, p, t) => match planFailure s c d p st with | some st' => stop st' s | none => stop st t

/-! ## Moving one tile -/

/-- A tile as a mover reads it: header, payload bytes to its footprint, and whether a line of it is poisoned. -/
def readTile (s : State) (x va : Nat) (h : Hdr) : Bytes × Bool :=
  let n := footprint (hPayload h) - 64
  if poisonV s x va (64 + hPayload h) then (List.replicate n 0, true) else (vread s x (va + 64) n, false)
/-- The header of a tile that holds a poisoned line (R94). -/
def poisonHdr (h : Hdr) : Hdr := sealHdr (setFld (setBit h 32 true) 479 448 (crc32c (List.replicate (hPayload h) 0)).toNat)
/-- The bytes a carrier moves. -/
def carried (s : State) (x va : Nat) : Hdr × Bytes :=
  let h := moverHdr s x va
  let (b, p) := readTile s x va h
  (if p then poisonHdr h else h, b)

/-- Write a tile in the steps of R83. -/
def putTile (m x va : Nat) (h : Hdr) (b : Bytes) (s : State) : State × Status :=
  match putVirtual m x va ((0 : Byte) :: (hBytes h).drop 1) s with
  | (s, .ok) =>
    (match putVirtual m x (va + 64) b s with
    | (s, .ok) => putVirtual m x va (hBytes h) s
    | r => r)
  | r => r
/-- Bytes of a tile built in a memory of its own. -/
def builtBytes (tmp : Mem) (t : TileOut) : Hdr × Bytes :=
  let b := mread tmp 64 t.payload
  (t.final (crc32c b), padTo (footprint t.payload - 64) b)
/-- A poisoned output: POISONED and a zero payload. -/
def poisonedOut (t : TileOut) : Hdr × Bytes :=
  let t := { t with pois := true }
  (t.final (crc32c (List.replicate t.payload 0)), List.replicate (footprint t.payload - 64) 0)

/-- A consumer's input: its bytes at 0 of a memory, and whether its payload may not be used, with the status of a payload
that fails its CRC (R86, R94). -/
def inputTile (c : Nat) (d : BitVec 512) (x va : Nat) (s : State) : Hdr × Mem × Bool × Status × State :=
  let h := moverHdr s x va
  let (b, p) := readTile s x va h
  let tmp := mwrite [] 0 (hBytes h ++ b)
  if p || hPois h then (h, tmp, true, .ok, countPoison x 1 s)
  else if !payloadOk tmp 0 h then
    (h, tmp, true, .checksumFail, capture x 0x04 {
      status := .checksumFail, tensor := hTensor h, 
      addr := translate s x va, tag := dTag d, core := c, detail := (payloadCrc tmp 0 h).toNat * 2 ^ 64 } s)
  else (h, tmp, false, .ok, s)

/-- The code of one element moved by a producer: a malformed W96 element is a fresh NaN (R183). DESIGN CHOICE (log entry 122): R116
names no invalid code for a tile mover, the model takes 0x004. -/
def movedCode (f zp : Nat) (o : Option Nat) : Nat × Exc :=
  match o with
  | none => (zeroCode f zp, 0)
  | some x => if f = 0x0B then let (g, e) := readW96 x 4; (g.toNat, e) else (x, 0)

/-- TM_LAYOUT of one tile: transposed, with its scales (R251). -/
def layoutTile (c m : Nat) (r : MovRun) (x va : Nat) (s : State) : (Hdr × Bytes) × Status × State :=
  let (h, tmp, bad, st, s) := inputTile c r.desc x va s
  let t : TileOut := {
    fmt := hFormat h, sf := hScaleFmt h, mode := if hMode h = 0 then 0 else 3 - hMode h, zp := hZero h, transp := !(bit h 40),
    zero := hZeroTile h, skip := hSkip h, pois := hPois h, ctx := hCtx h, gen := hGen h, part := hPart h, owner := hOwner h ||| r.owner, exc := hExcLocal h,
    inh := hExcInh h, tensor := hTensor h, epoch := r.epoch.toNat, rowOrg := hColOrg h, colOrg := hRowOrg h, slab := hSlab h, rows := hCols h, cols := hRows h,
    vrows := hVCols h, vcols := hVRows h, unit := moverUnit c m }
  if bad then (poisonedOut t, st, s)
  else if hNone h || hEmpty h then (builtBytes [] t, .ok, s) else
  let step (a : Mem × Exc) (rc : Nat × Nat) : Mem × Exc :=
    let (code, e) := movedCode t.fmt t.zp (elemCode tmp 0 h rc.1 rc.2)
    (putElem a.1 0 t rc.2 rc.1 code, a.2 ||| e)
  let cells := (List.range (hVRows h)).flatMap (fun r => (List.range (hVCols h)).map (fun k => (r, k)))
  let (out, e) := cells.foldl step (putPadding [] 0 t, 0)
  let out := if hMode h = 1 then (List.range (hVRows h)).foldl (fun o i => putScale o 0 t 0 i (scaleCode tmp 0 h i 0)) out
    else if hMode h = 2 then (List.range (hVCols h)).foldl (fun o i => putScale o 0 t i 0 (scaleCode tmp 0 h 0 i)) out else out
  (builtBytes out { t with exc := t.exc ||| e }, .ok, countFlags x e s)

/-- A tile of a TM_GATHER: its poison or payload failure counts once in the descriptor. -/
def gatherInput (c m : Nat) (d : BitVec 512) (x va : Nat) (s : State) : Hdr × Mem × Bool × Status × State :=
  let (h, tmp, bad, st, s') := inputTile c d x va s
  (h, tmp, bad, st, modRunM c m (fun r => { r with used := if r.used.contains va then r.used else r.used ++ [va] })
    (match (moverOf s c m).run with | some r => if r.used.contains va then s else s' | none => s'))

/-- What TM_GATHER has gathered of one output tile. -/
structure GatherAcc where
  out   : Mem := []
  exc   : Exc := 0
  inh   : Exc := 0
  owner : Byte := 0
  bad   : Bool := false
  st    : Status := .ok
  stop  : Bool := false
deriving DecidableEq, Repr

/-- TM_GATHER of output tile i (R251, R200). -/
def gatherTile (c m i : Nat) (r : MovRun) (x : Nat) (s : State) : (Hdr × Bytes) × Status × Bool × State :=
  let d := r.desc
  let (ih, itmp, ibad, ist, s) := gatherInput c m d x (unitAddr c (tIndex d)) s
  let sh := moverHdr s x (tSrc d)
  let g := tRows d
  let valid := natMin g (hVCols ih - i * g)
  let t : TileOut := { gatherOut d sh with
    vrows := valid, rowOrg := i * g, colOrg := hColOrg sh, slab := hSlab sh, tensor := tTensor d,
    ctx := x, gen := (ctxOf s x).gen.toNat, part := (ctxOf s x).part.toNat, epoch := r.epoch.toNat, unit := moverUnit c m }
  let row (a : GatherAcc × State) (k : Nat) : GatherAcc × State :=
    let (a, s) := a
    if a.stop then (a, s) else
    let idx : Int := if ibad then 0 else signed 32 ((elemCode itmp 0 ih 0 (i * g + k)).getD 0)
    let out := idx < 0 || idx ≥ tLimit d
    let (a, s) := if out then
        ({ a with exc := a.exc ||| fINDEX }, capture x 0x11 {
            status := if tIdxMode d = 2 then .outOfRegion else .ok, tensor := tTensor d, 
            addr := translate s x (tDstAt d i), tag := dTag d, core := c,
            detail := k * 2 ^ 68 + ofInt 32 idx * 2 ^ 24 } (excCount x 10 1 s)) else (a, s)
    if out && tIdxMode d = 2 then ({ a with stop := true }, s)
    else if out && tIdxMode d = 0 then
      let o := (List.range t.vcols).foldl (fun o q => putElem o 0 t k q (zeroCode t.fmt t.zp)) a.out
      ({ a with
          out := (if t.mode = 0 then o else
          (List.range (if t.mode = 3 then ceilDiv t.cols 32 else 1)).foldl (fun o b => putScale o 0 t k (32 * b) (oneScale t.sf)) o) }, s)
    else
      let j : Nat := if idx < 0 then 0 else if idx ≥ tLimit d then tLimit d - 1 else idx.toNat
      let rows := natMax 1 (hRows sh)
      let (h, tmp, bad, st, s) := gatherInput c m d x (tSrcAt d (j / rows)) s
      let a := { a with owner := a.owner ||| hOwner h, inh := a.inh ||| hInherit h, bad := a.bad || bad, st := if a.st == .ok then st else a.st }
      if bad then (a, s) else
      let o := (List.range (hVCols h)).foldl (fun (o : Mem × Exc) q =>
        let (code, e) := movedCode t.fmt t.zp (elemCode tmp 0 h (j % rows) q)
        (putElem o.1 0 t k q code, o.2 ||| e)) (a.out, a.exc)
      let out := if t.mode = 0 then o.1 else
        (List.range (if t.mode = 3 then ceilDiv t.cols 32 else 1)).foldl (fun m b => putScale m 0 t k (32 * b) (scaleCode tmp 0 h (j % rows) (32 * b))) o.1
      ({ a with out := out, exc := o.2 }, s)
  let (a, s) := (List.range valid).foldl row ({ out := putPadding [] 0 t, owner := r.owner ||| hOwner ih, inh := hInherit ih, bad := ibad, st := ist }, s)
  let t := { t with owner := a.owner, exc := a.exc, inh := a.inh }
  (if a.bad then poisonedOut t else builtBytes a.out t, a.st, a.stop, s)

/-- TM_ZERO: the header a template gives (R251). -/
def zeroHdr (c m : Nat) (r : MovRun) (x : Nat) (h : Hdr) (s : State) : Hdr :=
  let t : TileOut := {
    fmt := hFormat h, zp := hZero h, zero := true, pois := hPois h, ctx := x, gen := (ctxOf s x).gen.toNat, part := (ctxOf s x).part.toNat,
    owner := hOwner h ||| r.owner, inh := hInherit h, tensor := hTensor h, epoch := r.epoch.toNat, rowOrg := hRowOrg h, colOrg := hColOrg h, slab := hSlab h,
    rows := hRows h, cols := hCols h, vrows := hVRows h, vcols := hVCols h, unit := moverUnit c m }
  t.final 0

/-- TM_ACC_READ: a tile whose fields are copied from the record (R258). -/
def readOut (c m : Nat) (r : MovRun) (x va : Nat) (s : State) : Hdr × Bytes :=
  let rec_ := hdrV s x va
  let n := hData rec_
  let bad := rPoisoned rec_ || poisonV s x va (64 + n)
  let b := if bad then List.replicate n 0 else vread s x (va + 64) n
  let h := setFld (setFld (setFld rec_ 511 352 0) 7 0 1) 79 72 (hOwner rec_ ||| r.owner).toNat
  let h := setFld (setFld (setBit h 32 bad) 431 416 (moverUnit c m)) 479 448 (crc32c b).toNat
  (sealHdr h, padTo (footprint n - 64) b)

/-- A slot has its contributions (R258). -/
def accReady (s : State) (x va : Nat) : Bool := let r := hdrV s x va; rExpected r = 0 || rContribs r ≥ rExpected r

/-- A mover's write of n bytes stalls: into a retained slot of an operand cache, on the core's write tags, or on push-ahead. -/
inductive Go where
  | go (s : State)
  | stall (s : State)

/-- Lines of a range that lie in a group under re-encryption. -/
def busyLines (s : State) (x va n : Nat) : Nat :=
  ((piecesOf s x va n).map (fun q => if isAlias q.1 || q.2 = 0 then 0 else
    ((s.hbm.groups.filter (fun g => g.2.busy)).map (fun g => (natMin (q.1 + q.2) (4096 * g.1 + 4096) + 63) / 64 - natMax q.1 (4096 * g.1) / 64)).sum)).sum
/-- Writes of a core's tile movers that wait on a group under re-encryption hold a write tag each (DEDUCED, log entry 155). -/
def heldTags (s : State) (c : Nat) : Nat :=
  (s.hbm.groups.map (fun g => ((g.2.trig.toList ++ g.2.waiting).filter (fun w => w.master / 2 == c)).length)).sum
/-- The core's 256 write tags do not cover a write (R288). -/
def tagsShort (s : State) (c x va n : Nat) : Bool := let k := busyLines s x va n; k != 0 && heldTags s c + k > 256

def writable (c m x va n : Nat) (s : State) : Go :=
  if ocRetained s va n || tagsShort s c x va n then .stall s else
  match interceptV x va n s with
  | (s, true) => .go (modRunM c m (fun r => match r.stallAt with
      | some t => { r with stallAt := none, ext := r.ext + (now s - t) } | none => r) s)
  | (s, false) => .stall (modRunM c m (fun r => { r with stallAt := some (r.stallAt.getD (now s)) }) s)

/-- The tile's outcome; the last one may make a bounded descriptor late. -/
def tileDone (c m : Nat) (first : Status) (s : State) : State :=
  lateCheck (coreCtx s c) c m (modRunM c m (fun r => { r with done := r.done + 1, first := if r.first == .ok then first else r.first }) s)
/-- A stop keeps the tile in progress unfinished (R252). -/
def tileStop (c m : Nat) (st : Status) (s : State) : State := modRunM c m (fun r => { r with status := some st }) s

/-- Write one output tile and count it; a write that stalls leaves the state the tile began in. -/
def finishTile (c m x va : Nat) (hb : Hdr × Bytes) (first : Status) (before s : State) : State :=
  match writable c m x va (64 + hb.2.length) s with
  | .stall _ => (match writable c m x va (64 + hb.2.length) before with | .stall s => s | .go s => s)
  | .go s =>
    match putTile (moverMaster c m) x va hb.1 hb.2 s with
    | (s, .ok) => tileDone c m first s
    | (s, st) => tileStop c m st s

/-- TM_REDUCE: the contribution of one tile, checked again at its turn (R252, R256). -/
def reduceTile (c m x : Nat) (r : MovRun) (s : State) : State :=
  if !r.adds.isEmpty then s else
  let d := r.desc
  let src := tSrcAt d r.done
  let dst := tDstAt d r.done
  let h := moverHdr s x src
  let st := contribCheck s x dst false h
  if st != .ok then tileStop c m st (contribRefused (moverMaster c m) x dst h st s) else
  let (b, p) := readTile s x src h
  let tmp := mwrite [] 0 (hBytes h ++ b)
  let crcBad := !p && !payloadOk tmp 0 h
  let s := if crcBad then capture x 0x04 {
      status := .checksumFail, tensor := hTensor h, addr := translate s x src,
      tag := dTag d, core := c, engine := 4, detail := (payloadCrc tmp 0 h).toNat * 2 ^ 64 } s else s
  let slot := hdrV s x dst
  let code (i j : Nat) : Option Nat := if p || hPois h then none else elemCode tmp 0 h i j
  let k : Contrib := {
    ctx := x, slot := dst, hdr := setBit (setFld h 79 72 (hOwner h ||| r.owner).toNat) 32 (hPois h || p), fmt := BitVec.ofNat 8 (hFormat slot),
    master := moverMaster c m, todo := addsOf h (hFormat slot) code 0 0 (hData slot / 64 + 1), whole := true, crcBad := crcBad }
  let (id, s) := contribStart k s
  let s := modRunM c m (fun r => { r with adds := [id] }) s
  contribSettle id (tileDone c m .ok s)

/-- The firmware clears DISCARD of a window whose slots are reopened (R290). -/
def reopenWindow (x va : Nat) (s : State) : State :=
  let p := (ctxOf s x).part.toNat
  let q := partOf s p
  setPart s p { q with windows := q.windows.map (fun e =>
      (e.1, if wDiscard e.2 && winCtx e.2 == x && wVBase e.2 ≤ va && va < wVBase e.2 + wSize e.2 then setBit e.2 160 false else e.2)) }
/-- TM_ZERO with ACC = 1 opens one slot: a zero payload, then its record (R253). -/
def openTile (c m x : Nat) (r : MovRun) (s : State) : State :=
  let d := r.desc
  let dst := tDstAt d r.done
  let t := moverHdr s x (tSrc d)
  let n := accBytes t
  let k := ctxOf s x
  let rec_ := openRecord t (tLimit d) x k.gen.toNat k.part.toNat r.epoch.toNat r.owner
  match writable c m x dst n s with
  | .stall s => s
  | .go s =>
    match putVirtual (moverMaster c m) x (dst + 64) (List.replicate (n - 64) 0) s with
    | (s, .ok) =>
      (match putVirtual (moverMaster c m) x dst (hBytes rec_) s with
      | (s, .ok) => tileDone c m .ok (reopenWindow x dst s)
      | (s, st) => tileStop c m st s)
    | (s, st) => tileStop c m st s

/-- A transfer whose next tile does not leave ends at its origin. -/
def sendCut (c m key tr : Nat) (st : Status) (s : State) : State :=
  let p := pathOf s key
  modRunM c m (fun u => { u with stats := tset u.stats tr st, stream := 0 }) (setPath s key { p with flight := p.flight.filter (fun x => x.1 != tr) })
/-- TM_SEND of one tile over a link path (R282): its header is checked as it leaves (R84), and the transfer ends once its stream has reached 2^31 bytes. -/
def sendOne (c m x : Nat) (r : MovRun) (s : State) : State :=
  let d := r.desc
  let key := sendKey d
  let e := entryOf s key
  let p := pathOf s key
  if !eValid e || eRole e != 0 || p.phase < 3 then tileStop c m .linkLost s else
  if r.stream = 0 && p.flight.length ≥ 32768 then s else
  let tr := if r.stream = 0 then p.next.toNat else (r.sent.getLast?).getD 0
  match hdrCheckUse (coreConsumer s c) carriedFormat (moverHdr s x (tSrcAt d r.done)) with
  | some (_, st) => tileStop c m st (if r.stream = 0 then s else sendCut c m key tr st s)
  | none =>
  let (h, b) := carried s x (tSrcAt d r.done)
  let fp := 64 + b.length
  let last := r.done + 1 = tCount d || r.stream + fp ≥ 2 ^ 31
  let s := if r.stream = 0 then
      setPath s key { p with next := p.next + 1, flight := tset p.flight tr { core := c, mover := m } } else s
  let k := ctxOf s x
  let before := ((r.srcs.take r.done).map (fun q => chargedLink q.2)).sum
  let s := sendTile key tr r.stream (slotAddr (64 * nbits (tDst d) 28 0) (tDstStride d) r.done) (tBounded d) last false k.part.toNat x k.gen.toNat r.epoch.toNat r.accept before
    r.rate (hBytes h ++ b) s
  modRunM c m (fun u => { u with done := u.done + 1, stream := if last then 0 else u.stream + fp,
                                 sent := if r.stream = 0 then u.sent ++ [tr] else u.sent }) s

/-- One tile of the running descriptor. -/
def moveTile (c m : Nat) (r : MovRun) (s : State) : State :=
  let d := r.desc
  let x := coreCtx s c
  let src := tSrcAt d r.done
  let dst := tDstAt d r.done
  match dOp d with
  | 0x60 => finishTile c m x dst (carried s x src) .ok s s
  | 0x61 => let (hb, st, s') := layoutTile c m r x src s; finishTile c m x dst hb st s s'
  | 0x62 =>
    let (hb, st, stop, s') := gatherTile c m r.done r x s
    if stop then
      -- the output keeps HDR_VERSION 0x00 and no later tile is written
      (match writable c m x dst 64 s' with
      | .stall _ => (match writable c m x dst 64 s with | .stall s => s | .go s => s)
      | .go s => tileStop c m .outOfRegion (putVirtual (moverMaster c m) x dst ((0 : Byte) :: (hBytes hb.1).drop 1) s).1)
    else finishTile c m x dst hb st s s'
  | 0x63 => if tAcc d then openTile c m x r s else finishTile c m x dst (zeroHdr c m r x (moverHdr s x (tSrc d)) s, []) .ok s s
  | 0x64 => reduceTile c m x r s
  | 0x65 => if accReady s x src then finishTile c m x dst (readOut c m r x src s) .ok s s else modRunM c m (fun r => { r with waitAcc := true }) s
  | _ => if sendLink d then sendOne c m x r s else s

/-- Every tile moved and everything it started has ended. -/
def moverEnded (s : State) (c m : Nat) (r : MovRun) : Bool :=
  r.done = tCount r.desc && r.push.isNone && r.adds.isEmpty &&
  r.sent.all (fun t => r.stats.any (fun e => e.1 == t)) &&
  !(s.hbm.groups.any (fun g => (g.2.trig.toList ++ g.2.waiting).any (fun w => w.master == moverMaster c m)))
/-- The status of a descriptor that ended: of a TM_SEND the first other than OK in tile order (R282), so a path lost at a later
tile does not hide what an earlier transfer met. -/
def endStatus (r : MovRun) : Status :=
  match (r.sent.map (fun t => tget .ok r.stats t)).find? (· != .ok) with
  | some st => st
  | none => r.status.getD r.first

end Sys2Proof.Machine
end

