-- ==== Sys2Proof/Machine/Mover.lean ====
section
/-! DEFINITION. The tile movers' commands (R250-R254): a descriptor at the head of a queue starts, moves its tiles and
completes. -/

namespace Sys2Proof.Machine

/-- TM_COPY (R251): tiles as they stand, to new slots. -/
def execTmCopy (core : BitVec 5) (mover : BitVec 1) (s : State) : Out := .next (moverStart core.toNat mover.toNat 0x60 false s)
/-- TM_LAYOUT (R251): tiles transposed. -/
def execTmLayout (core : BitVec 5) (mover : BitVec 1) (s : State) : Out := .next (moverStart core.toNat mover.toNat 0x61 false s)
/-- TM_GATHER (R251): rows picked by an index tile. -/
def execTmGather (core : BitVec 5) (mover : BitVec 1) (s : State) : Out := .next (moverStart core.toNat mover.toNat 0x62 false s)
/-- TM_ZERO (R251) with ACC = 0: zero tiles after a template. -/
def execTmZero (core : BitVec 5) (mover : BitVec 1) (s : State) : Out := .next (moverStart core.toNat mover.toNat 0x63 false s)
/-- TM_ZERO with ACC = 1 (R253): accumulation slots are opened. -/
def execTmZeroAcc (core : BitVec 5) (mover : BitVec 1) (s : State) : Out := .next (moverStart core.toNat mover.toNat 0x63 true s)
/-- TM_REDUCE (R256): contributions to accumulation slots. -/
def execTmReduce (core : BitVec 5) (mover : BitVec 1) (s : State) : Out := .next (moverStart core.toNat mover.toNat 0x64 false s)
/-- TM_ACC_READ (R258): slots read out as tiles. -/
def execTmAccRead (core : BitVec 5) (mover : BitVec 1) (s : State) : Out := .next (moverStart core.toNat mover.toNat 0x65 false s)
/-- TM_SEND (R282, R320): tiles over a link path, or pushed to the host. -/
def execTmSend (core : BitVec 5) (mover : BitVec 1) (s : State) : Out := .next (moverStart core.toNat mover.toNat 0x66 false s)

/-- ACC_READ_RELEASE (R258): the slot a TM_ACC_READ waits at has its contributions, and the tile is read. -/
def execAccReadRelease (core : BitVec 5) (mover : BitVec 1) (s : State) : Out :=
  let c := core.toNat
  let m := mover.toNat
  match (moverOf s c m).run with
  | some r =>
    if coreLive s c && r.waitAcc && accReady s (coreCtx s c) (tSrcAt r.desc r.done) then
      let s := modRunM c m (fun r => { r with waitAcc := false }) s
      .next (moveTile c m { r with waitAcc := false } s)
    else .next s
  | none => .next s

/-- ADMIT_WAIT_EXPIRY (R285): the time until which ADMIT_WAIT held the descriptor has come, and admission is tried again at
that time. -/
def execAdmitWaitExpiry (core : BitVec 5) (mover : BitVec 1) (s : State) : Out :=
  let c := core.toNat
  let m := mover.toNat
  match (moverOf s c m).run with
  | some r =>
    match r.waitAdm with
    | some t => if coreLive s c then .next (admitMover c m (natMax (now s) t) s) else .next s
    | none => .next s
  | none => .next s

/-- TILE_MOVE (R251, R252): the tile mover moves the next tile of its descriptor. -/
def execTileMove (core : BitVec 5) (mover : BitVec 1) (s : State) : Out :=
  let c := core.toNat
  let m := mover.toNat
  match (moverOf s c m).run with
  | some r =>
    if coreLive s c && r.status.isNone && r.waitAdm.isNone && !r.waitAcc && r.done < tCount r.desc && !sendPush r.desc then
      .next (moveTile c m r s)
    else .next s
  | none => .next s

/-- TILE_MOVER_COMPLETION (R254): the descriptor's tag moves to DONE with its status, and the mover takes the next one. -/
def execTileMoverCompletion (core : BitVec 5) (mover : BitVec 1) (s : State) : Out :=
  let c := core.toNat
  let m := mover.toNat
  match (moverOf s c m).run with
  | some r =>
    if !coreLive s c then .next s
    else
      let free (s : State) : State := setMover c m { moverOf s c m with run := none } s
      (match r.status with
      | some _ =>
        if r.adds.isEmpty && r.sent.all (fun t => r.stats.any (fun e => e.1 == t)) then .next (tagDone c r.grain (dTag r.desc) (endStatus r) (free s))
        else .next s
      | none => if moverEnded s c m r then .next (tagDone c r.grain (dTag r.desc) (endStatus r) (free s)) else .next s)
  | none => .next s

end Sys2Proof.Machine
end

