-- ==== Sys2Proof/Machine/Arrival.lean ====
section
/-! DEFINITION. What a received datagram meets before its contents count (R301-R304): its header and tag, its place in the session's
sequence, what it acknowledges; and the turn of a mailbox request. -/

namespace Sys2Proof.Machine

/-! ## Acknowledgement (R303) -/

/-- An event of a queue is acknowledged by session n: once all have, it leaves, and a count of losses takes its place (R344). -/
def eventAcked (q qseq n : Nat) (s : State) : State :=
  let k := queueOf s q
  let rest (l : List Nat) : List Nat := l.filter (· != n)
  let items := (k.items.map (fun x => if x.1.qseq.toNat = qseq then (x.1, x.2.1, rest x.2.2) else x)).filter (fun x => !(x.2.1 && x.2.2.isEmpty))
  let isFinal := (match k.final with | some e => e.qseq.toNat == qseq | none => false) && (k.finalTo.getD []).contains n
  let left := rest (k.finalTo.getD [])
  let final := if isFinal && left.isEmpty then none else k.final
  let waits := items.any (fun x => x.1.qseq.toNat == qseq) || (isFinal && !left.isEmpty)
  reportLost q (setQueue s q { k with
    items := items, final := final, finalTo := if !isFinal then k.finalTo else if left.isEmpty then none else some left,
    seen := (if waits then [qseq] else []) ++ k.seen.filter (· != qseq) })

/-- An ACK covers a SEQ. -/
def ackCovers (ackSeq : Nat) (sack : W32) (seq : Nat) : Bool :=
  seq ≤ ackSeq || (ackSeq + 2 ≤ seq && seq < ackSeq + 34 && bit sack (seq - ackSeq - 2))
/-- Nothing of one kind is unacknowledged or held on a session. -/
def noneOut (s : State) (sess : Nat) (w : TxWhat) : Bool :=
  (sessOf s sess).unacked.all (fun t => t.what != w) && (sessOf s sess).txHold.all (fun x => x.what != w)
/-- What an acknowledged datagram completes: an event's delivery, a bulk transfer, the shard of the snapshot that sends it (R392). -/
def acked (sess : Nat) (w : TxWhat) (s : State) : State :=
  match w with
  | .plain => s
  | .event q n => eventAcked q n sess s
  | .bulk key =>
    (match s.bulk.find? (fun e => e.1 == key) with
    | some (_, b) => if b.sentAll && noneOut s sess w then bulkEnd key (b.status.getD .ok) s else s
    | none => s)
  | .shard p id =>
    let n := (partOf s p).snap
    if n.state == .copying && n.sentAll && n.sink == sess && n.transfer.toNat == id && noneOut s sess w then
      postDev 0x0061 (bytesBE 1 p ++ bytesBE 16 n.ckpt.toNat ++ bytesBE 8 n.bytes.length) (setPart s p { partOf s p with snap := { n with state := .sent } })
    else s
/-- What ACK_SEQ and SACK_MAP of a received header cover leaves the window, datagrams held at the limit go out, and what waited for
delivery completes (R301, R303). -/
def ackTake (sess : Nat) (a : RxAcks) (s : State) : State :=
  let q := sessOf s sess
  let done := q.unacked.filter (fun t => ackCovers a.ackSeq a.sack t.seq)
  if done.isEmpty then s else
  let s := sendHeld sess (setSess s sess { q with unacked := q.unacked.filter (fun t => !ackCovers a.ackSeq a.sack t.seq) })
  done.foldl (fun s t => acked sess t.what s) s

/-! ## Datagrams (R301-R304) -/

/-- A datagram dropped and counted at its port. -/
def countDrop (port : Port) (s : State) : State :=
  match port with
  | .host => { s with host := { s.host with drops := s.host.drops + 1 } }
  | .mgmt => { s with mgmt := { s.mgmt with drops := s.mgmt.drops + 1 } }
/-- A header that breaks the layout of R301. -/
def headBad (h : RxHead) : Bool := h.version != 1 || h.flags &&& 0x7F != 0 || h.rsvHi != 0 || h.rsvLo != 0 || h.len.isSome
/-- What becomes of a datagram for session n that is not accepted (R301, R302): nothing reaches a port that is down; one that breaks the
layout, names no open session of the port or comes from another peer is dropped and counted at the port; one whose tag fails is dropped
and counted by the session. None for a datagram of the session's. -/
def refusedDatagram (port : Port) (n : Nat) (h : RxHead) (s : State) : Option State :=
  let q := sessOf s n
  if !portOpen s port then some s
  else if headBad h || q.phase != .opened || q.port != port || h.peer.getD q.peer != q.peer then some (countDrop port s)
  else if h.tagBad then some (setSess s n { q with tagFail := q.tagFail + 1 })
  else none
/-- The SEQs first to last can be accepted (R303): none has been received, and all lie in the window. -/
def seqsOpen (q : Session) (first last : Nat) : Bool :=
  last ≤ q.rxSeq + 1024 && (List.range (last + 1 - first)).all (fun k => q.rxSeq < first + k && !q.rxMap.contains (first + k))

/-- A datagram that is processed as it arrives (R303); at the last SEQ the session closes (R304). The management port drops it (R401). -/
def arrivesNow (n seq : Nat) (h : RxHead) (a : RxAcks) (s : State) (act : State → State) : State :=
  let port := (sessOf s n).port
  match refusedDatagram port n h s with
  | some s => s
  | none =>
    if port == .mgmt then countDrop .mgmt s
    else if !seqsOpen (sessOf s n) seq seq then s
    else if seq ≥ 2 ^ 48 - 1 then closeSession n s
    else act (rxTake n seq (ackTake n a s))

/-- An earlier request of the session waits for its turn, which has come. -/
def turnTaken (s : State) (n : Nat) : Bool := s.heldReqs.any (fun h => h.sess == n && h.seq ≤ (sessOf s n).rxSeq)
/-- The requests held, in SEQ order. -/
def insertHeld (h : HeldReq) : List HeldReq → List HeldReq
  | [] => [h]
  | x :: l => if h.seq < x.seq then h :: x :: l else x :: insertHeld h l

/-- A mailbox request arrives, whole (R311): its datagrams are accepted or dropped (R301-R304), what they acknowledge is taken, and it is
processed if its turn in SEQ order has come; otherwise it waits (R303; DESIGN CHOICE, log entry 157). The recovery responder of BOOT_HALT
has no session (R56). -/
def arrives (i : Instr) (r : Req) (s : State) (act : State → Out) : Out :=
  if (bootHalted s && r.port == .mgmt) || (sessOf s r.sess).turn then act s else
  match refusedDatagram r.port r.sess r.head s with
  | some s => .next s
  | none =>
    let q := sessOf s r.sess
    let first := r.head.seq.getD (q.rxSeq + 1)
    let last := first + r.frags
    if !seqsOpen q first last then .next s
    else if last ≥ 2 ^ 48 - 1 then .next (closeSession r.sess s)
    else
      let s := ackTake r.sess r.acks s
      if first == q.rxSeq + 1 && !turnTaken s r.sess then act s
      else
        let s := (List.range (r.frags + 1)).foldl (fun s k => rxTake r.sess (first + k) s) s
        .next { s with heldReqs := insertHeld ⟨r.sess, last, i⟩ s.heldReqs }

/-- The first held request whose turn has come on an open port, taken out, and its session marked (R303). -/
def due (s : State) : Option (Instr × State) :=
  match s.heldReqs.find? (fun h => h.seq ≤ (sessOf s h.sess).rxSeq && portOpen s (sessOf s h.sess).port) with
  | some h => some (h.cmd, setSess { s with heldReqs := s.heldReqs.erase h } h.sess { sessOf s h.sess with turn := true })
  | none => none

/-! ## HELLO (R296) -/

/-- A HELLO goes out, at once or when the peer's pause of its priority ends. -/
def sayHello (port : Port) (kind : Byte) (payload : Bytes) (s : State) : State :=
  let e := Emit.hello port kind payload
  if port == .host && (classPaused s 1 || !s.host.replies.isEmpty) then { s with host := { s.host with replies := s.host.replies ++ [e] } }
  else emit s e
/-- The HELLOs that waited go out once the pause has ended. -/
def releaseHello (s : State) : State :=
  if s.host.replies.isEmpty || classPaused s 1 then s
  else { s with out := s.out ++ s.host.replies, host := { s.host with replies := [] } }

end Sys2Proof.Machine
end

