-- ==== Sys2Proof/Machine/Trust.lean ====
section
/-! DEFINITION. What devices check of each other: HELLO fields (R266), reports (R66), the firmware's policy (R267), a charter's
policy (R356), and transcripts and keys of links and paths (R266, R268, R269). -/

namespace Sys2Proof.Machine

/-! ## HELLO (R266) -/

def hlSerial (p : Bytes) : Nat := be p 2 8
def hlNonce (p : Bytes) : Bytes := slice p 16 64
def hlPoint (p : Bytes) : Bytes := slice p 80 133
def hlCert (p : Bytes) : Bytes := slice p 215 (be p 213 2)
def hlLen (p : Bytes) : Nat := 215 + be p 213 2
/-- A HELLO is well formed; more bytes may follow it in a path's messages. -/
def hlOk (p : Bytes) : Bool :=
  p.length ≥ 215 && be p 0 2 == 1 && allZero (slice p 11 5) && be p 213 2 ≤ 2048 && p.length ≥ hlLen p

/-- A private key by its name: 66 bytes of the entropy source. -/
def privBytes (n : Nat) : Bytes := bytesBE 66 n
/-- The HELLO of this device: link number, nonce and ephemeral key. -/
def helloOf (s : State) (link : Nat) (nonce : Bytes) (eph : Nat) : Bytes :=
  bytesBE 2 1 ++ serialBytes s ++ bytesBE 1 link ++ bytesBE 5 0 ++ nonce ++ padTo 133 (Config.pubOf (privBytes eph)) ++
    bytesBE 2 s.nvm.idCert.length ++ s.nvm.idCert

/-! ## Reports (R66) -/

def rpSerial (r : Bytes) : Nat := be r 0x008 8
def rpNonce (r : Bytes) : Bytes := slice r 0x050 64
def rpLifecycle (r : Bytes) : Nat := be r 0x098 1
def rpDebug (r : Bytes) : Nat := be r 0x099 1
def rpFlags (r : Bytes) : Nat := be r 0x0A0 4
def rpSvn (r : Bytes) : Nat := be r 0x0A8 4
def rpManifest (r : Bytes) : Bytes := slice r 0x0B0 64
def rpCapacity (r : Bytes) : Nat := be r 0x394 2
/-- The certificate chain verifies, its key signed the report, IDENTITY_KEY_DIGEST matches it, and the report is over the
nonce and of the serial (R266). -/
def reportOk (r cert nonce : Bytes) (serial : Nat) : Bool :=
  match Config.idCert cert with
  | some (pub, ser) =>
    r.length == 1060 && be r 0 4 == 0x4B5A4152 && be r 4 2 == 1 && be r 6 2 == 0x0424 && slice r 0x010 64 == digestBytes (Config.sha512 pub) &&
    Config.ecdsaVerify pub (ascii "KAZBA-ATTEST-V1" ++ r.take 928) (slice r 928 132) && rpNonce r == nonce && rpSerial r == serial && ser.toNat == serial
  | none => false

/-! ## Policies -/

/-- The digests of accepted firmware and the refused serials of the LINKS section (R330). -/
def fwList (m : Mem) : List Bytes := (List.range (secNum m 4 512 2)).map (fun i => mread m (secOff m 4 + 514 + 64 * i) 64)
def refusals (m : Mem) : List Nat :=
  let o := 514 + 64 * secNum m 4 512 2
  (List.range (secNum m 4 o 2)).map (fun i => secNum m 4 (o + 2 + 8 * i) 8)
/-- The shipped firmware accepts a partner (R267). -/
def partnerOk (s : State) (r : Bytes) : Bool :=
  rpLifecycle r == 3 && rpDebug r == 0 && (fwList (active s)).contains (rpManifest r) && !((refusals (active s)).contains (rpSerial r))

/-! ## Charter fields (R354) -/

def chFlags (d : Bytes) : Nat := be d 0x006 2
def chBanks (d : Bytes) : Bool := nbit (chFlags d) 0
def chMirror (d : Bytes) : Bool := nbit (chFlags d) 1   -- chMirrorOf
def chCosigned (d : Bytes) : Bool := nbit (chFlags d) 2
def chOwners (d : Bytes) : Nat := be d 0x00C 1
def chQuorum (d : Bytes) : Nat := be d 0x00D 1
def chFwCount (d : Bytes) : Nat := be d 0x00E 1
def chMode (d : Bytes) : Nat := be d 0x00F 1
def chProgram (d : Bytes) : Bytes := slice d 0x020 64
def chDevices (d : Bytes) : Nat := be d 0x066 2
def chOwnerKey (d : Bytes) (n : Nat) : Bytes := slice d (0x070 + 133 * n) 133
def chFwDigest (d : Bytes) (n : Nat) : Bytes := slice d (0x498 + 64 * n) 64
/-- The bytes before the first signature, which the signatures and the charter digest cover. -/
def chSigned (d : Bytes) : Bytes := d.take (0xA50 + 8 * chDevices d)
def chDigest (d : Bytes) : Bytes := digestBytes (Config.sha512 (chSigned d))
/-- The device policy of R356 on a report. -/
def charterOk (d r : Bytes) : Bool :=
  rpLifecycle r == 3 && (List.range (natMin 4 (chFwCount d))).any (fun i => chFwDigest d i == rpManifest r) && rpSvn r ≥ be d 0x060 4 &&
  rpCapacity r ≥ be d 0x064 2 && (chDevices d == 0 || (List.range (chDevices d)).any (fun i => be d (0xA50 + 8 * i) 8 == rpSerial r)) &&
  (!chCosigned d || nbit (rpFlags r) 0)
/-- The charter digest a partition's paths carry, empty outside a charter (R364). -/
def partCharter (s : State) (p : Nat) : Bytes :=
  match (partOf s p).charter with
  | some ch => if ch.active && (partOf s p).state == .charter then chDigest ch.doc else []
  | none => []
/-- The charter rules for a partner of a path (R364): a partition that is not CHARTER carries no binding and asks for none. -/
def bindingOk (s : State) (p : Nat) (digest r : Bytes) : Bool :=
  digest == partCharter s p &&
  (match (partOf s p).charter with
   | some ch => !(ch.active && (partOf s p).state == .charter) || charterOk ch.doc r
   | none => true)

/-! ## Transcripts and keys -/

/-- The two sides of a handshake: serial, HELLO with what it is bound to, report. -/
structure Side where
  serial : Nat
  hello  : Bytes
  report : Bytes

/-- th (R266, R269): `kind` 1 for a link, 2 for a path. -/
def transcript (kind : Byte) (a b : Side) : Bytes :=
  let (l, h) := if a.serial < b.serial then (a, b) else (b, a)
  digestBytes (Config.sha512 (kind :: (l.hello ++ h.hello ++ l.report ++ h.report)))
/-- The transmit and receive key of one side (R268): 32 key bytes, then 4 of salt. -/
def deriveKeys (salt : String) (eph : Nat) (point th : Bytes) (lower : Bool) : Bytes × Bytes :=
  let o := padTo 72 (Config.hkdf (ascii salt) (Config.ecdh (privBytes eph) point) th 72)
  let l := slice o 0 32 ++ slice o 64 4
  let h := slice o 32 32 ++ slice o 68 4
  if lower then (l, h) else (h, l)
/-- The confirmation over th under a transmit key (R266): signature, then GMAC with a counter of 0, which no frame uses. -/
def confirmOf (s : State) (key th : Bytes) : Bytes :=
  identitySign s "KAZBA-LINK-V1" th ++ bytesBE 16 (gmac (key.take 32) (slice key 32 4 ++ bytesBE 8 0) th).toNat
def confirmOk (key th cert payload : Bytes) : Bool :=
  payload.length == 148 &&
  (match Config.idCert cert with
   | some (pub, _) => Config.ecdsaVerify pub (ascii "KAZBA-LINK-V1" ++ th) (payload.take 132)
   | none => false) &&
  be payload 132 16 == (gmac (key.take 32) (slice key 32 4 ++ bytesBE 8 0) th).toNat

/-! ## The handshake of a link (R263, R266-R268) -/

/-- Training is complete: HELLO goes out. -/
def startHello (l d : Nat) (s : State) : State :=
  let (nonce, s) := drawBytes 64 s
  let (eph, s) := draw s
  let h := helloOf s l nonce eph
  let s := setLink s l { linkOf s l with d := d, nonce := nonce, myHello := h, eph := eph }
  sendFrame l (ctrlFrame 0x10 0 0 h) (linkMove l .hello 0 s)
/-- The partner's HELLO is valid: ATTEST goes out, over its nonce. -/
def startAttest (l : Nat) (h : Bytes) (s : State) : State :=
  let r := report s (hlNonce h) 0xFF
  let s := countReport (setLink s l { linkOf s l with hello := h, myRep := r, peer := BitVec.ofNat 64 (hlSerial h) })
  sendFrame l (ctrlFrame 0x11 0 0 (r ++ eventLogBytes s)) (linkMove l .attest 0 s)

def linkSides (s : State) (k : Link) : Side × Side :=
  ({ serial := s.fuses.serial.toNat, hello := k.myHello, report := k.myRep }, { serial := k.peer.toNat, hello := k.hello, report := k.report })
def linkTh (s : State) (l : Nat) : Bytes := let (a, b) := linkSides s (linkOf s l); transcript 1 a b

/-- Both confirmations verified: the link is UP, with fresh sequence numbers and credits (R263, R264, R275). -/
def linkGoUp (l : Nat) (s : State) : State :=
  let k := linkOf s l
  linkMove l .up 0 (setLink s l { k with wait := 1, txSeq := 0, rxSeq := 0, creds := startCredits s l, myRep := [], report := [], myHello := [], hello := [], nonce := [] })
/-- A KEY_CONFIRM in KEYED, which carries no hop trailer (R271). -/
def keyConfirm (l : Nat) (f : Frame) (s : State) : State :=
  let k := linkOf s l
  if confirmOk (rxKey s l) (linkTh s l) (hlCert k.hello) f.payload then linkGoUp l (setLink s l { k with kcSeen := true })
  else linkDown l 0x08 s
/-- The partner is accepted: hop keys fill their slots, the ephemeral key goes, KEY_CONFIRM goes out (R268). -/
def startKeyed (l : Nat) (s : State) : State :=
  let k := linkOf s l
  let th := linkTh s l
  let (tx, rx) := deriveKeys "KAZBA-LINK-KEYS" k.eph (hlPoint k.hello) th (s.fuses.serial.toNat < k.peer.toNat)
  let s := setKey (setKey s (0x120 + 2 * l) tx) (0x121 + 2 * l) rx
  let s := linkMove l .keyed 0 (setLink s l { k with eph := 0, kcSent := true, kcHeld := none })
  let s := sendFrame l (ctrlFrame 0x12 0 0 (confirmOf s tx th)) s
  match k.kcHeld with
  | some f => keyConfirm l f s
  | none => s

/-! ## The handshake of a path (R269) -/

/-- The charter binding at the end of a path message (R364): the charter digest, then the partition; nothing outside a charter. -/
def bindingBytes (x : PathExtra) : Bytes := if x.charter.isEmpty then [] else x.charter ++ bytesBE 1 x.part.toNat
/-- What follows the report in a path message. -/
def pathTail (x : PathExtra) : Bytes := Config.pathExtraBytes { x with charter := [] } ++ bindingBytes x
/-- The bytes behind the report, read: the fields, then no binding, or one of 65 bytes. -/
def pathTailOf (b : Bytes) : Option PathExtra :=
  match Config.pathExtraOf b with
  | none => none
  | some (x, rest) =>
    if rest.isEmpty then some { x with charter := [] }
    else if rest.length = 65 && be rest 64 1 < 16 then some { x with charter := rest.take 64, part := BitVec.ofNat 4 (be rest 64 1) }
    else none
/-- A path message: HELLO, report, and the fields R269 and R364 add. -/
def pathMsg (h r : Bytes) (x : PathExtra) : Bytes := h ++ r ++ pathTail x
def pmReport (p : Bytes) : Bytes := slice p (hlLen p) 1060
def pmExtra (p : Bytes) : Option PathExtra := if hlOk p && p.length ≥ hlLen p + 1060 then pathTailOf (p.drop (hlLen p + 1060)) else none
/-- A side of a path's transcript. -/
def pmSide (p : Bytes) : Side :=
  let bind : Bytes := match pmExtra p with | some x => bindingBytes x | none => []
  { serial := hlSerial p, hello := p.take (hlLen p) ++ bind, report := pmReport p }
def pathTh (r : PathRec) : Bytes := transcript 2 (pmSide r.opn) (pmSide r.accept)

/-- Path-key slots in use (R269). -/
def pathSlots (s : State) : List Nat := (s.paths.recs.map (fun e => e.2.slot)).filter (· != 0)
/-- The lowest free even slot of 0x160-0x25E. -/
def freeSlot (s : State) : Option Nat := ((List.range 128).map (fun i => 0x160 + 2 * i)).find? (fun n => !(pathSlots s).contains n)

/-- A claim of a feature on a link, with EXCLUSIVE and its partition (R333, R334). -/
def linkClaim (s : State) (l feature : Nat) : Option (Bool × Nat) :=
  (claimsOf s).findSome? (fun e =>
    if fld e 63 56 == 1 && fld e 55 48 == l && fld e 47 40 == feature then some (bit e 39, fld e 35 32) else none)
/-- An exclusive claim closes a link to a path (R333): TRACE_EXPORT's to any, BUDDY_MIRROR's to all but the mirror's own, of its partition. -/
def linkClosed (s : State) (l p : Nat) (isMirror : Bool) : Bool :=
  (match linkClaim s l 1 with | some (x, _) => x | none => false) ||
  (match linkClaim s l 2 with | some (true, q) => q != p || !isMirror | _ => false)
/-- A path that partition p opens on a link may be its mirror's (R371, R374): the charter has BUDDY_MIRROR, STEP_JOIN names no other path, and p
has no path on the link yet (DESIGN CHOICE, log entry 162). -/
def mirrorPathFree (s : State) (p l key : Nat) : Bool :=
  (match (partOf s p).charter with | some ch => chMirror ch.doc | none => false) &&
  (match (partOf s p).step.path with | some (d, n) => d * 4096 + n == key | none => true) &&
  !(s.paths.table.any (fun x => eValid x.2 && eRole x.2 == 0 && eOutLink x.2 == l && ePart x.2 == p))

/-- A charge of units to a link's direction (R422): none where it would break the share or the total of 240. -/
def chargeLink (l pool units : Nat) (s : State) : Option State :=
  let k := linkOf s l
  let total := (k.charge.map (·.2)).sum
  if total + units > 240 || tget 0 k.charge pool + units > shareOf s l pool then none
  else some (setLink s l { k with charge := tmod 0 k.charge pool (· + units) })
/-- Bounded credits of an arriving path: none above 3,072 (R275, R422). -/
def allotCredits (l n : Nat) (s : State) : Option State :=
  let k := linkOf s l
  if k.alloted + n > 3072 then none else some (setLink s l { k with alloted := k.alloted + n })

/-- The PATH_OPEN of an origin goes out: a fresh nonce and key, and the report over its own nonce. -/
def pathOpenSend (key : Nat) (x : PathExtra) (s : State) : State :=
  let e := entryOf s key
  let (nonce, s) := drawBytes 64 s
  let (eph, s) := draw s
  let h := helloOf s (eOutLink e) nonce eph
  let msg := pathMsg h (report s nonce 0xFF) x
  let s := countReport (setPath s key { pathOf s key with phase := 1, origin := true, opn := msg, extra := x, accept := [], eph := eph, degr := [] })
  sendCtrl (eOutLink e) (pathFrame 0x20 (eOutPath e) 0 (eHops e) msg) s

/-- The refusal of a path travels back as PATH_LOST with its code, and after DENIED the cause POLICY of R364, 0x09 (DESIGN CHOICE,
log entry 10). -/
def pathRefuse (l path : Nat) (st : Status) (s : State) : State :=
  sendCtrl l (backFrame 0x24 path 0 (bytesBE 2 (statusCode st) ++ if st = .denied then [0x09] else [])) s

/-- PATH_DEGRADED towards the origin of a path: the mark, the link and the device (R277, DEDUCED, log entry 134). -/
def sendDegraded (l path : Nat) (on : Bool) (marked : Nat) (s : State) : State :=
  sendCtrl l (backFrame 0x25 path 0 ([if on then 1 else 0] ++ bytesBE 1 marked ++ bytesBE 8 s.fuses.serial.toNat)) s
/-- A path opens over links of this device that are DEGRADED already. -/
def tellOpening (l path : Nat) (links : List Nat) (s : State) : State :=
  links.foldl (fun s x => if (linkOf s x).degraded then sendDegraded l path true x s else s) s

/-- PATH_OPEN at its far end. -/
def pathDeliver (l key : Nat) (msg : Bytes) (x : PathExtra) (s : State) : State :=
  let path := key % 4096
  let p := x.part.toNat
  let r := pathOf s key
  let again := eValid (entryOf s key) && eRole (entryOf s key) == 2 && hlSerial r.opn == hlSerial msg
  let slot := if again then some r.slot else freeSlot s
  if (eValid (entryOf s key) && !again) || linkClosed s l p ((Config.pathWindow x).toNat ≥ 62) then pathRefuse l path .conflict s
  else if !reportOk (pmReport msg) (hlCert msg) (hlNonce msg) (hlSerial msg) || !partnerOk s (pmReport msg) || !bindingOk s p x.charter (pmReport msg)
  then pathRefuse l path .denied s
  else match slot with
  | none => pathRefuse l path .conflict s
  | some slot =>
    let need := boundedCredits x.rate
    let got := if again then (if r.creds = 0 then none else some s) else if x.rate = 0 then none else allotCredits l need s
    let creds := if again then r.creds else if got.isSome then need else 0
    let s := got.getD s
    let (nonce, s) := drawBytes 64 s
    let (eph, s) := draw s
    let h := helloOf s l nonce eph
    let y : PathExtra := { far := BitVec.ofNat 64 (hlSerial msg), part := x.part, charter := partCharter s p, rate := x.rate,
                           hops := x.hops ++ [(s.fuses.serial, 0, got.isSome)] }
    let acc := pathMsg h (report s (hlNonce msg) 0xFF) y
    let q : PathRec := { phase := 2, opn := msg, accept := acc, eph := eph, slot := slot, links := [l], creds := creds }
    let (tx, rx) := deriveKeys "KAZBA-PATH-KEYS" eph (hlPoint msg) (pathTh q) (s.fuses.serial.toNat < hlSerial msg)
    let s := setKey (setKey s slot tx) (slot + 1) rx
    let s := setEntry key (mkEntry 2 0 0 0 p x.ctx.toNat x.gen.toNat slot (Config.pathWindow x).toNat 0 0) s
    tellOpening l path [l] (sendCtrl l (backFrame 0x21 path 0 acc) (countReport (setPath s key { q with eph := 0 })))

/-- PATH_OPEN at a transit (R269, R279, R333, R422): no link under an exclusive claim carries it; the hop record, the charges, and on to the next device. -/
def pathTransit (l key hops : Nat) (msg : Bytes) (x : PathExtra) (s : State) : State :=
  let path := key % 4096
  let (out, resv) := Config.pathRoute x
  let o := out.toNat
  let old := entryOf s key
  let again := eValid old && eRole old == 1 && hlSerial (pathOf s key).opn == hlSerial msg
  if linkClosed s l 16 false || linkClosed s o 16 false then pathRefuse l path .conflict s
  else if (eValid old && !again) || x.left = 0 || !linkUp s o || o = l then pathRefuse l path (if eValid old && !again then .conflict else .linkLost) s
  else
    let e := resvOf s 16 resv.toNat
    let present := x.rate != 0 && rValid e && rKind e == 0 && rRate e ≥ x.rate
    let need := boundedCredits x.rate
    let charged : Option State :=
      if again || !present then none else
      match chargeLink o 16 (rRate e) s with
      | none => none
      | some s => allotCredits l need s
    let r := pathOf s key
    let ok := if again then r.creds != 0 else charged.isSome
    let s := charged.getD s
    let d := (linkOf s o).d
    let y := { x with left := x.left - 1, hops := x.hops ++ [(s.fuses.serial, d, ok)] }
    let out' := msg.take (hlLen msg + 1060) ++ pathTail y
    let s : State := if again then s else
      let s := setEntry key (mkEntry 1 o path 0 0 0 0 0 0 resv.toNat 0)
        (setPath s key { phase := 3, opn := msg, extra := x, links := [l, o], units := if ok then rRate e else 0, creds := if ok then need else 0, resv := resv.toNat })
      if ok then
        let s := { s with paths := { s.paths with transit := tmod {} s.paths.transit resv.toNat (fun b => { b with conf := true }) } }
        setLink s o { linkOf s o with creds := tset (linkOf s o).creds (bdKey (entryOf s key)) need }
      else s
    tellOpening l path [l, o] (sendCtrl o (pathFrame 0x20 path 0 (hops - 1) out') s)

/-- PATH_ACCEPT at the origin: the far end is verified and the path keyed, or refused (R269, R364). -/
def pathAccepted (key : Nat) (msg : Bytes) (y : PathExtra) (s : State) : State :=
  let e := entryOf s key
  let r := pathOf s key
  let p := ePart e
  let far := r.extra.far.toNat
  let stop (st : Status) (s : State) : State :=
    pathFree key (pathAnswer key st (transfersDone key .linkLost (sendCtrl (eOutLink e) (pathFrame 0x23 (eOutPath e) 0 (eHops e) []) s)))
  if hlSerial msg != far || !reportOk (pmReport msg) (hlCert msg) (hlNonce r.opn) (hlSerial msg) || !partnerOk s (pmReport msg) ||
     !bindingOk s p y.charter (pmReport msg) then stop .denied s
  else
    let r := { r with accept := msg }
    let th := pathTh r
    let (tx, rx) := deriveKeys "KAZBA-PATH-KEYS" r.eph (hlPoint msg) th (s.fuses.serial.toNat < hlSerial msg)
    let s := setKey (setKey s r.slot tx) (r.slot + 1) rx
    let l := eOutLink e
    let ds := (linkOf s l).d :: (y.hops.map (fun h => h.2.1))
    let conf := r.units != 0 && y.hops.all (fun h => h.2.2)
    let s := setPath s key { r with phase := 3, eph := 0, seq := 0, notice := false, allUp := ds.all (fun d => d ≤ 200) }
    let s := setEntry key (setFld e 61 50 (natMin ds.sum 4095)) s
    let q := partOf s p
    let s := if conf then
        (let s := setPart s p { q with buckets := tmod {} q.buckets r.resv (fun b => { b with conf := true }) }
         setLink s l { linkOf s l with creds := tset (linkOf s l).creds (bdKey e) (boundedCredits r.units) })
      else s
    pathAnswer key .ok (sendCtrl l (pathFrame 0x22 (eOutPath e) 0 (eHops e) (confirmOf s tx th)) s)

/-- PATH_CONFIRM at the far end. -/
def pathConfirmed (l key : Nat) (payload : Bytes) (s : State) : State :=
  let r := pathOf s key
  if r.phase != 2 then s
  else if confirmOk (keyOf s (r.slot + 1)) (pathTh r) (hlCert r.opn) payload then setPath s key { r with phase := 3 }
  else pathFree key (pathRefuse l (key % 4096) .linkLost s)

end Sys2Proof.Machine
end

