-- ==== Sys2Proof/Machine/Wire.lean ====
section
/-! DEFINITION. A link's wire (chapter 9): arrival and sequence, ACK and NAK, retransmission, and the choice of the next
frame; the mirror and restore streams that the snapshot engine feeds to a link. -/

namespace Sys2Proof.Machine

/-! ## Arrival (R271-R274) -/

/-- A frame of link control that carries a LINK_SEQ in its field. -/
def seqFrame (ty seq : Nat) (payload : Bytes) : Frame :=
  let f := ctrlFrame ty 0 0 payload
  { f with hdr := setFld f.hdr 175 144 (seq % 2 ^ 32) }
/-- NAK with the LINK_SEQ expected. -/
def sendNak (l : Nat) (s : State) : State :=
  sendCtrl l (seqFrame 0x03 (linkOf s l).rxSeq.toNat []) (setLink s l { linkOf s l with nakSent := true })
/-- ACK with the highest LINK_SEQ held, and the credits to return: (LINK_SEQ, credits) pairs, as many as a frame holds. -/
def sendAck (l : Nat) (s : State) : State :=
  let k := linkOf s l
  let c := k.retCred.take 1365
  let b := c.flatMap (fun x => bytesBE 4 x.1 ++ bytesBE 2 x.2)
  sendCtrl l (seqFrame 0x02 (k.rxSeq.toNat + 2 ^ 32 - 1) b) (setLink s l { k with sinceAck := 0, retCred := k.retCred.drop 1365 })

/-- A frame that fails the hop check is discarded; the sixteenth in a row fences the link (R265). -/
def hopFailed (l : Nat) (s : State) : State :=
  let k := linkOf s l
  let s := setLink s l { k with hopFail := k.hopFail + 1 }
  if k.hopFail + 1 ≥ 16 then fenceLink l 0x13 s else sendNak l s

/-- A frame of a type arrives on an UP link: whether it is handed on, and the state. A frame of another known type is
another row's. One NAK answers a gap: the later frames it discards are silent (R274, DEDUCED, log entry 133). -/
def arrive (l ty : Nat) (f : Frame) (s : State) : Bool × State :=
  if !linkUp s l || (fType f.hdr ≠ ty && knownType (fType f.hdr)) then (false, s)
  else if !hopOk s l f then (false, hopFailed l s)
  else
    let k := linkOf s l
    let s := setLink s l { k with hopFail := 0, rxTxc := f.txc }
    if fClass f.hdr = 2 then (true, s)
    else if fSeq f.hdr ≠ k.rxSeq.toNat then (false, if k.nakSent then s else sendNak l s)
    else
      let s := setLink s l { linkOf s l with rxSeq := k.rxSeq + 1, sinceAck := k.sinceAck + 1, nakSent := false }
      (true, if k.sinceAck + 1 ≥ 32 then sendAck l s else s)

/-- Resend from the oldest unacknowledged frame; a frame that needs its eighth retransmission fences the link (R265, R274). -/
def resendAll (l : Nat) (s : State) : State :=
  let k := linkOf s l
  if k.unacked.isEmpty then s
  else if k.unacked.any (fun t => t.tries ≥ 7) then fenceLink l 0x12 s
  else setLink s l { k with retrQ := k.unacked }
/-- A frame was sent again. -/
def retried (seq : Nat) (l : List TxFrame) : List TxFrame := l.map (fun t => if fSeq t.f.hdr = seq then { t with tries := t.tries + 1 } else t)

/-- Frames up to and with a LINK_SEQ are acknowledged. -/
def ackThrough (l seq : Nat) (s : State) : State :=
  let k := linkOf s l
  if !(k.unacked.any (fun t => fSeq t.f.hdr == seq)) then s else
  let rest := (k.unacked.dropWhile (fun t => fSeq t.f.hdr != seq)).drop 1
  setLink s l { k with unacked := rest, retrQ := k.retrQ.filter (fun t => rest.any (fun u => fSeq u.f.hdr == fSeq t.f.hdr)) }
/-- Credits come back for frames the receiver no longer stores, an unbounded pool's up to its share as it stands (R275). -/
def takeCredits (l : Nat) : Nat → Bytes → State → State
  | 0, _, s => s
  | n + 1, b, s =>
    if b.length < 6 then s else
    let q := be b 0 4
    let k := linkOf s l
    let s := match k.spent.find? (fun e => e.1 == q) with
      | some (_, pool, c) =>
        let back (x : Nat) : Nat := if pool < 8192 then x + natMin c (be b 4 2) else natMin (x + natMin c (be b 4 2)) (tget 0 (startCredits s l) pool)
        setLink s l { k with spent := tdrop (· == q) k.spent, creds := if k.creds.any (fun e => e.1 == pool) then tmod 0 k.creds pool back else k.creds }
      | none => s
    takeCredits l n (b.drop 6) s

/-! ## The next frame (R276) -/

/-- The transmitter may send one more numbered frame (R274). -/
def windowOpen (k : Link) : Bool := k.unacked.length < 1024
/-- The frame's credits are covered (R275). -/
def covered (k : Link) (t : TxFrame) : Bool := creditsOf (fLength t.f.hdr) ≤ tget 0 k.creds t.key
/-- Send a numbered frame: LINK_SEQ, credits, and BOUND_REMAINING on this device's clock (R286). -/
def sendData (l : Nat) (t : TxFrame) (s : State) : State :=
  let k := linkOf s l
  let n := creditsOf (fLength t.f.hdr)
  let rem := t.bound - (now s : Int)
  let h := setFld t.f.hdr 175 144 k.txSeq.toNat
  let h := if t.cls = 0 then setBit (setFld h 31 0 (ofInt 32 rem)) 243 (fLate h || rem < 0) else h
  let f := { t.f with hdr := h }
  let t := { t with f := f }
  let s := setLink s l { k with txSeq := k.txSeq + 1, unacked := k.unacked ++ [t], spent := tset k.spent k.txSeq.toNat (t.key, n),
                                creds := tmod 0 k.creds t.key (fun c => c - n) }
  returnCredits t.src (sendFrame l f s)

/-- The bounded frame with the smallest BOUND_REMAINING among those whose credits are covered. -/
def boundedNext (k : Link) : Option (Nat × TxFrame) :=
  ((List.range k.bndQ.length).zip k.bndQ).foldl (fun (b : Option (Nat × TxFrame)) x =>
    if !covered k x.2 then b else
    match b with
    | some y => if x.2.bound < y.2.bound then some x else b
    | none => some x) none

/-- Share of a pool: an exclusive BUDDY_MIRROR claim gives its partition the whole link (R374). -/
def poolShare (s : State) (l p : Nat) : Nat :=
  match linkClaim s l 2 with
  | some (true, q) => if p = q then 256 else 0
  | _ => shareOf s l p
/-- While a partition is being scrubbed its share carries FILL frames (R276, R349). -/
def fillFrame (p : Nat) : TxFrame :=
  { f := { hdr := BitVec.ofNat 256 (0x3F * 2 ^ 248 + 2 ^ 246 + p * 2 ^ 224 + 8192 * 2 ^ 34 + 0x7FFFFFFF), payload := List.replicate 8192 0 },
    cls := 1, pool := p, key := ubKey p }
/-- The frame at the head of a pool: its place in the queue, or none for FILL. -/
def poolHead (s : State) (l p : Nat) : Option (Option Nat × TxFrame) :=
  let k := linkOf s l
  if p < 16 && (partOf s p).state == .scrubbing && (partOf s p).scrubPh == 1 then some (none, fillFrame p) else
  (((List.range k.unbQ.length).zip k.unbQ).find? (fun x => x.2.pool == p)).map (fun x => (some x.1, x.2))
/-- Deficit round robin over the 17 pools: who sends, from the pool whose turn it is. -/
def drr (s : State) (l : Nat) : Nat → Nat → Tbl Nat → Option (Nat × Tbl Nat × Option Nat × TxFrame)
  | 0, _, _ => none
  | n + 1, turn, def_ =>
    let next := (turn + 1) % 17
    let visit (d : Tbl Nat) : Tbl Nat := tmod 0 d next (· + 8192 * poolShare s l next)
    match poolHead s l turn with
    | some (i, t) =>
      let size := 72 + fLength t.f.hdr
      if poolShare s l turn = 0 || !covered (linkOf s l) t then drr s l n next (visit (tset def_ turn 0))
      else if size ≤ tget 0 def_ turn then some (turn, tmod 0 def_ turn (fun x => x - size), i, t)
      else drr s l n next (visit def_)
    | none => drr s l n next (visit (tset def_ turn 0))

/-! ## The mirror and restore streams (R374, R375) -/

/-- The context that holds a charter partition's banks. -/
def bankCtx (s : State) (p : Nat) : Nat := (ctxsOf s p).head?.getD 0
/-- The mirror is complete once every tile was delivered. -/
def mirrorCheck (p : Nat) (s : State) : State :=
  let q := partOf s p
  match q.charter with
  | some ch => if q.step.mirEpoch.isSome && q.step.mirTile = mirrorTiles ch && q.step.mirDel = q.step.mirTile then mirrorEnd p .ok s else s
  | none => s
/-- The mirror of commit e starts (R374): every slot of the committed banks goes out on the mirror path, whose link the partition's
BUDDY_MIRROR claim must name (DENIED: DESIGN CHOICE, log entry 163). -/
def mirrorStart (p e : Nat) (s : State) : State :=
  let q := partOf s p
  match q.charter with
  | none => s
  | some ch =>
    let s := setPart s p { q with step := { q.step with mirEpoch := some (BitVec.ofNat 32 e), mirTile := 0, mirSent := 0, mirDel := 0, mirDone := false } }
    match q.step.path with
    | none => mirrorEnd p .linkLost s
    | some (die, path) =>
      let key := pathKey die path
      if !eValid (entryOf s key) || (pathOf s key).phase != 3 then mirrorEnd p .linkLost s
      else if !(linkClaim s (eOutLink (entryOf s key)) 2).any (fun x => x.2 == p) then mirrorEnd p .denied s
      else if mirrorTiles ch = 0 then mirrorEnd p .ok s else s

/-- The tile of a slot on a path, as one transfer in the unbounded class: the n-th of its stream. A mirror held for another device keeps
that device's headers, so the identity of check 3 of R85 is the origin's own (`own`). -/
def streamTile (key p mark epoch va n : Nat) (own : Bool) (s : State) : Status × State :=
  let c := bankCtx s p
  let k := ctxOf s c
  let h := if poisonV s c va 64 then (0 : Hdr) else hdrV s c va
  match accessCheck s c [rREAD] va 64 with
  | .ok =>
    (match hdrCheckUse (if own then some (p, c, k.gen.toNat) else none) carriedFormat h with
    | some (_, st) => (st, s)
    | none =>
      let len := footprint (hPayload h) - 64
      let bad := poisonV s c va (64 + hPayload h)
      let b := if bad then List.replicate len 0 else vread s c (va + 64) len
      let h := if bad then sealHdr (setFld (setBit h 32 true) 479 448 (crc32c (List.replicate (hPayload h) 0)).toNat) else h
      let r := pathOf s key
      let e := entryOf s key
      let tr := r.next.toNat
      let s := setPath s key { r with next := r.next + 1, flight := tset r.flight tr { mirror := some mark } }
      (.ok, sendTile key tr 0 n false true true p (eSendCtx e) (eSendGen e) epoch (now s) 0 0 (hBytes h ++ b) s))
  | st => (st, s)

/-- The stream waits for a path of this link. -/
def feeds (s : State) (l key : Nat) : Bool :=
  eValid (entryOf s key) && eRole (entryOf s key) == 0 && eOutLink (entryOf s key) == l && (pathOf s key).phase == 3 && (pathOf s key).flight.length < 32768
/-- When no frame of the snapshot engine waits on the link, the next tile of each stream that feeds it is read. -/
def streamPull (l : Nat) (s : State) : State :=
  if (linkOf s l).unbQ.any (·.eng) then s else
  (List.range 16).foldl (fun s p =>
    let q := partOf s p
    match q.charter with
    | none => s
    | some ch =>
      let s := match q.step.mirEpoch, q.step.path with
        | some e, some (die, path) =>
          if !feeds s l (pathKey die path) || q.step.mirTile ≥ mirrorTiles ch then s else
          (match streamTile (pathKey die path) p p e.toNat (committedVa ch q.step.mirTile) q.step.mirTile true s with
          | (.ok, s) => setPart s p { partOf s p with step := { (partOf s p).step with mirTile := q.step.mirTile + 1, mirSent := q.step.mirSent + 1 } }
          | (st, s) => mirrorEnd p st s)
        | _, _ => s
      match (partOf s p).step.sendBack with
      | some (bank, key, n, e) =>
        if !feeds s l key then s
        else if n ≥ mirrorTiles ch then setPart s p { partOf s p with step := { (partOf s p).step with sendBack := none } }
        else
          (match streamTile key p (16 + p) e.toNat (mirrorVa ch (bank = 1) n) n false s with
          | (.ok, s) => setPart s p { partOf s p with step := { (partOf s p).step with sendBack := some (bank, key, n + 1, e) } }
          | (_, s) => setPart s p { partOf s p with step := { (partOf s p).step with sendBack := none } })
      | none => s) s

/-- A link transmitter sends the next frame in the order of R276. -/
def transmit (l : Nat) (s : State) : State :=
  if !(linkUp s l) then s else
  let k := linkOf s l
  match k.ctrlQ with
  | t :: rest => sendFrame l t.f (setLink s l { k with ctrlQ := rest })
  | [] =>
    match k.retrQ with
    | t :: rest => sendFrame l t.f (setLink s l { k with retrQ := rest, unacked := retried (fSeq t.f.hdr) k.unacked })
    | [] =>
      if !windowOpen k then s else
      match boundedNext k with
      | some (i, t) => sendData l t (setLink s l { k with bndQ := k.bndQ.eraseIdx i })
      | none =>
        let s := streamPull l s
        let k := linkOf s l
        match drr s l 40 k.turn k.deficit with
        | none => s
        | some (turn, d, i, t) =>
          sendData l t (setLink s l { k with turn := turn, deficit := d, unbQ := match i with | some i => k.unbQ.eraseIdx i | none => k.unbQ })

end Sys2Proof.Machine
end

