-- ==== Sys2Proof/Machine/Links.lean ====
section
/-! DEFINITION. The commands of the links and paths (chapter 9): rows LINK_SIGNAL_DETECT to PATH_REOPEN, and SIGNAL_LOSS. -/

namespace Sys2Proof.Machine

/-! ## Bringing a link up (R262-R268) -/

/-- LINK_SIGNAL_DETECT (R263, R264): an enabled link that may be tried, with its clock present, starts to train. -/
def execLinkSignalDetect (link : BitVec 5) (s : State) : Out :=
  let l := link.toNat
  if fwRuns s && linkSt s l == .down && linkEnabled (active s) l && linkRef s l && (linkOf s l).retryOk then .next (linkMove l .training 0 s)
  else .next s

/-- LINK_TRAINING_DONE (R262, R263): D above 1 µs fails training. -/
def execLinkTrainingDone (link : BitVec 5) (d : Nat) (s : State) : Out :=
  let l := link.toNat
  if linkSt s l != .training then .next s
  else if d > 1000 then .next (linkDown l 0x05 s)
  else .next (startHello l d s)

/-- TRAIN_TIMEOUT (R263). -/
def execTrainTimeout (link : BitVec 5) (s : State) : Out :=
  if linkSt s link.toNat == .training then .next (linkDown link.toNat 0x01 s) else .next s

/-- LINK_HELLO (R264, R266): a HELLO of this device itself is a loop; one that is not well formed is discarded. -/
def execLinkHello (link : BitVec 5) (payload : Bytes) (s : State) : Out :=
  let l := link.toNat
  if linkSt s l != .hello || !hlOk payload || payload.length != hlLen payload then .next s
  else if hlSerial payload = s.fuses.serial.toNat then .next (linkDown l 0x06 s)
  else .next (startAttest l payload s)

/-- HELLO_TIMEOUT (R263). -/
def execHelloTimeout (link : BitVec 5) (s : State) : Out :=
  if linkSt s link.toNat == .hello then .next (linkDown link.toNat 0x02 s) else .next s

/-- LINK_ATTEST (R266): the partner's certificate chain and report are verified. -/
def execLinkAttest (link : BitVec 5) (payload : Bytes) (s : State) : Out :=
  let l := link.toNat
  let k := linkOf s l
  if linkSt s l != .attest || !k.report.isEmpty then .next s
  else if reportOk (payload.take 1060) (hlCert k.hello) k.nonce k.peer.toNat then .next (setLink s l { k with report := payload.take 1060 })
  else .next (linkDown l 0x07 s)

/-- ATTEST_TIMEOUT (R263). -/
def execAttestTimeout (link : BitVec 5) (s : State) : Out :=
  if linkSt s link.toNat == .attest then .next (linkDown link.toNat 0x03 s) else .next s

/-- POLICY_VERDICT (R267): a partner is accepted when the firmware accepts it and every condition of R267 holds. -/
def execPolicyVerdict (link : BitVec 5) (accept : Bool) (s : State) : Out :=
  let l := link.toNat
  if linkSt s l != .attest || (linkOf s l).report.isEmpty then .next s
  else if accept && partnerOk s (linkOf s l).report then .next (startKeyed l s)
  else .next (linkDown l 0x09 s)

/-- KEY_CONFIRM (R266): one that arrives before this end is KEYED is kept until it is. -/
def execKeyConfirm (link : BitVec 5) (f : Frame) (s : State) : Out :=
  let l := link.toNat
  if fType f.hdr ≠ 0x12 then .next s
  else match linkSt s l with
  | .attest => .next (setLink s l { linkOf s l with kcHeld := some f })
  | .keyed => .next (keyConfirm l f s)
  | _ => .next s

/-- KEY_TIMEOUT (R263). -/
def execKeyTimeout (link : BitVec 5) (s : State) : Out :=
  if linkSt s link.toNat == .keyed then .next (linkDown link.toNat 0x04 s) else .next s

/-! ## Losing a link (R263-R265) -/

/-- LINK_FENCE (R265): the causes that come from outside the frame engine: signal loss, FEC lock loss, the firmware's fence or
retirement. -/
def execLinkFence (link : BitVec 5) (cause : Byte) (s : State) : Out :=
  if cause = 0x10 || cause = 0x11 || cause = 0x15 || cause = 0x16 then .next (fenceLink link.toNat cause.toNat s) else .next s

/-- LINK_RESET (R265, R271): from UP the link is fenced, where the frame passes the hop check; before UP, where it carries no hop trailer,
the link goes to DOWN. -/
def execLinkReset (link : BitVec 5) (f : Frame) (s : State) : Out :=
  let l := link.toNat
  if fType f.hdr ≠ 0x13 then .next s
  else match linkSt s l with
  | .up => let (ok, s) := arrive l 0x13 f s; if ok then .next (fenceLink l 0x14 s) else .next s
  | .keyed => .next (linkDown l 0x14 s)
  | .hello => .next (linkDown l 0x14 s)
  | .attest => .next (linkDown l 0x14 s)
  | _ => .next s

/-- LINK_FENCED_TIMEOUT (R263, R264): the link enters DOWN, or is retired: by the firmware's order, or after five fences in
one hour. -/
def execLinkFencedTimeout (link : BitVec 5) (s : State) : Out :=
  let l := link.toNat
  let k := linkOf s l
  if linkSt s l != .fenced then .next s
  else
    let s := linkDown l k.cause.toNat s
    let recent := (k.fences.filter (fun t => now s < t + 3600000000000)).length
    if k.cause = 0x16 || recent ≥ 5 then .next (retireLink l k.cause.toNat s) else .next s

/-- LINK_RETRY_TIMER (R264). -/
def execLinkRetryTimer (link : BitVec 5) (s : State) : Out :=
  let l := link.toNat
  if linkSt s l == .down && !(linkOf s l).retryOk then .next (setLink s l { linkOf s l with retryOk := true, polWait := false }) else .next s

/-- SIGNAL_LOSS (R263): a link that is not yet UP goes to DOWN. -/
def execSignalLoss (link : BitVec 5) (s : State) : Out :=
  let l := link.toNat
  match linkSt s l with
  | .training => .next (linkDown l 0x10 s)
  | .hello => .next (linkDown l 0x10 s)
  | .attest => .next (linkDown l 0x10 s)
  | .keyed => .next (linkDown l 0x10 s)
  | _ => .next s

/-! ## Frames (R270-R277) -/

/-- LINK_TRANSMIT (R276). -/
def execLinkTransmit (link : BitVec 5) (s : State) : Out := .next (transmit link.toNat s)

/-- DATA (R278, R281): forwarded at a transit, checked and stored at the delivering die; a frame of no path is MISROUTED. Its
credits return when it leaves the buffer. -/
def execData (link : BitVec 5) (f : Frame) (s : State) : Out :=
  let l := link.toNat
  if fClass f.hdr = 2 then .next s else
  let (ok, s) := arrive l 0x01 f s
  if !ok then .next s else
  let key := pathKey (l / 16) (fPath f.hdr)
  let e := entryOf s key
  let src := some (l, fSeq f.hdr, creditsOf (fLength f.hdr))
  if eValid e && eRole e = 1 then .next (forward l key f (fSeq f.hdr) s)
  else if eValid e && eRole e = 2 && (pathOf s key).phase = 3 then .next (rxIn l key f s)
  else .next (returnCredits src (misrouted l s))

/-- LINK_ACK (R274, R275). -/
def execLinkAck (link : BitVec 5) (f : Frame) (s : State) : Out :=
  let l := link.toNat
  let (ok, s) := arrive l 0x02 f s
  if ok then .next (takeCredits l (f.payload.length / 6) f.payload (ackThrough l (fSeq f.hdr) s)) else .next s

/-- NAK (R274): what precedes the LINK_SEQ it names is acknowledged, and the rest is sent again. -/
def execNak (link : BitVec 5) (f : Frame) (s : State) : Out :=
  let l := link.toNat
  let (ok, s) := arrive l 0x03 f s
  if ok then .next (resendAll l (ackThrough l ((fSeq f.hdr + 2 ^ 32 - 1) % 2 ^ 32) s)) else .next s

/-- FILL (R276): received and discarded. -/
def execFill (link : BitVec 5) (f : Frame) (s : State) : Out :=
  let l := link.toNat
  let (ok, s) := arrive l 0x3F f s
  if !ok then .next s else
  let s := setLink s l { linkOf s l with fillRx := (linkOf s l).fillRx + 1 }
  if fClass f.hdr = 2 then .next s else .next (returnCredits (some (l, fSeq f.hdr, creditsOf (fLength f.hdr))) s)

/-- LINK_ACK_TIMER (R274). -/
def execLinkAckTimer (link : BitVec 5) (s : State) : Out :=
  if linkUp s link.toNat then .next (sendAck link.toNat s) else .next s

/-- LINK_RETRANSMIT_TIMEOUT (R274). -/
def execLinkRetransmitTimeout (link : BitVec 5) (s : State) : Out :=
  if linkUp s link.toNat then .next (resendAll link.toNat s) else .next s

/-- Symbols received on a link in 10 ms: 8 lanes at 212.5 Gb/s, 10 bits a symbol (R261, R277). -/
def windowSymbols : Nat := 1700000000
/-- The corrected-symbol ratio of a window. -/
def symbolRatio (errors : Nat) : Val := .fin false errors windowSymbols 0
/-- The DEGRADED mark after a full window: set above the threshold, clear below it (R277). -/
def degradedBy (was : Bool) (threshold ratio : Val) : Bool := vlt threshold ratio || (was && !vlt ratio threshold)
/-- Paths that cross a link at a transit, or arrive on it: their origins learn of its mark (R277, R285). -/
def tellDegraded (l : Nat) (on : Bool) (s : State) : State :=
  s.paths.table.foldl (fun s x =>
    if eValid x.2 && eRole x.2 != 0 && (pathOf s x.1).links.contains l then
      match (pathOf s x.1).links.head? with
      | some i => sendDegraded i (x.1 % 4096) on l s
      | none => s
    else s) s

/-- FEC_WINDOW (R277, R416): the ratio of corrected symbols sets or clears the DEGRADED mark. -/
def execFecWindow (link : BitVec 5) (errors : Nat) (s : State) : Out :=
  let l := link.toNat
  let k := linkOf s l
  if !linkUp s l then .next s else
  let v := symbolRatio errors
  let bad := degradedBy (k.degraded) (decode32 (degradeSer (active s) l).toNat).1 v
  let (n, full) := satAdd 64 (tget 0 s.ledger.linkSym l) errors
  let s := { s with ledger := { s.ledger with linkSym := tset s.ledger.linkSym l n } }
  let s := if full then saturate 27 s else s
  let w := k.degWin + (if k.degraded then 1 else 0)
  let (t, past) := satAdd 16 (tget 0 s.ledger.linkDegSec l) (w / 100)
  let s := if w < 100 then s else { s with ledger := { s.ledger with linkDegSec := tset s.ledger.linkDegSec l t } }
  let s := if w ≥ 100 && past then saturate 27 s else s
  let s := setLink s l { k with degWin := w % 100, degraded := bad }
  if bad = k.degraded then .next s
  else .next (tellDegraded l bad (postDev 0x0011 (bytesBE 1 l ++ bytesBE 1 bad.toNat ++ bytesBE 4 (round32 v).1) s))

/-- DEGRADED_FENCE_TIMER (R277): a link that has stayed DEGRADED for 100 ms is fenced. -/
def execDegradedFenceTimer (link : BitVec 5) (s : State) : Out :=
  if linkUp s link.toNat && (linkOf s link.toNat).degraded then .next (fenceLink link.toNat 0x15 s) else .next s

/-! ## Paths (R269, R272, R277, R278, R282) -/

/-- PATH_OPEN_FRAME (R269): this device is the far end, or a transit. -/
def execPathOpenFrame (link : BitVec 5) (f : Frame) (s : State) : Out :=
  let l := link.toNat
  let (ok, s) := arrive l 0x20 f s
  if !ok || fPath f.hdr = 0 then .next s else
  match pmExtra f.payload with
  | none => .next s
  | some x =>
    let key := pathKey (l / 16) (fPath f.hdr)
    if x.far = s.fuses.serial then .next (pathDeliver l key f.payload x s)
    else if fHops f.hdr = 0 then .next (misrouted l s)
    else .next (pathTransit l key (fHops f.hdr) f.payload x s)

/-- A frame towards the origin arrives: at a transit `there` follows its passing on to the link its path arrives on, at the origin
`here` is its effect. One of no path, or without a hop left at a transit, is MISROUTED (R278). -/
def towardsOrigin (l ty : Nat) (f : Frame) (there here : Nat → State → State) (s : State) : State :=
  let (ok, s) := arrive l ty f s
  if !ok then s else
  match backEntry s l (fPath f.hdr) with
  | none => misrouted l s
  | some key =>
    if eRole (entryOf s key) ≠ 1 then here key s
    else if fHops f.hdr = 0 then misrouted l s
    else there key (passOn (backLink s key) (key % 4096) f s)
/-- A frame towards the far end arrives: at a transit `there` follows its passing on, at the far end `here` is its effect (R278). -/
def towardsEnd (l ty : Nat) (f : Frame) (there here : Nat → State → State) (s : State) : State :=
  let (ok, s) := arrive l ty f s
  if !ok then s else
  let key := pathKey (l / 16) (fPath f.hdr)
  let e := entryOf s key
  if !eValid e || eRole e = 0 || (eRole e = 1 && fHops f.hdr = 0) then misrouted l s
  else if eRole e = 1 then there key (passOn (eOutLink e) (eOutPath e) f s)
  else here key s

/-- PATH_ACCEPT (R269). -/
def execPathAccept (link : BitVec 5) (f : Frame) (s : State) : Out :=
  .next (towardsOrigin link.toNat 0x21 f (fun _ s => s) (fun key s =>
    if (pathOf s key).phase != 1 then s else
    match pmExtra f.payload with
    | none => s
    | some y =>
      let s := pathAccepted key f.payload y s
      let p := ePart (entryOf s key)
      let v := (partOf s p).step
      -- a mirror path that the fabric manager reopened carries the mirror again (chapter 12)
      if (pathOf s key).phase == 3 && v.path == some (key / 4096, key % 4096) && v.banks == .settled && !v.mirDone && v.mirEpoch.isNone then
        match v.commit with | some e => mirrorStart p e.toNat s | none => s
      else s) s)

/-- PATH_CONFIRM (R269). -/
def execPathConfirm (link : BitVec 5) (f : Frame) (s : State) : Out :=
  .next (towardsEnd link.toNat 0x22 f (fun _ s => s) (fun key s => pathConfirmed link.toNat key f.payload s) s)

/-- PATH_CLOSE_FRAME (R278): entries are cleared, charges and credits released, on towards the far end. -/
def execPathCloseFrame (link : BitVec 5) (f : Frame) (s : State) : Out :=
  .next (towardsEnd link.toNat 0x23 f pathFree (fun key s => pathFree key (pathState key 2 (rxCut key s))) s)

/-- PATH_LOST (R265, R282): the transfers of the path complete with LINK_LOST; a path that was opening is refused with the
status the frame carries. -/
def execPathLost (link : BitVec 5) (f : Frame) (s : State) : Out :=
  .next (towardsOrigin link.toNat 0x24 f (fun key s => pathFree key s) (fun key s =>
    if (pathOf s key).phase = 1 && f.payload.length ≥ 2 then
      pathFree key (pathAnswer key (statusOf (be f.payload 0 2)) (transfersDone key .linkLost s))
    else pathLost key s) s)

/-- PATH_DEGRADED (R277): the origin keeps the link that is marked, until its mark clears. -/
def execPathDegraded (link : BitVec 5) (f : Frame) (s : State) : Out :=
  .next (towardsOrigin link.toNat 0x25 f (fun _ s => s) (fun key s =>
    let on := f.payload.head?.getD 1 != 0
    let who := (be f.payload 2 8, be f.payload 1 1)
    let rest := (pathOf s key).degr.filter (· != who)
    let s := setPath s key { pathOf s key with degr := if on then who :: rest else rest }
    if on then pathState key 1 s else s) s)

/-- The mirror of a path's partition may be complete. -/
def afterDelivery (key : Nat) (s : State) : State := mirrorCheck (ePart (entryOf s key)) s

/-- DELIVERED (R282): OK, or LATE where its LATE bit is set. -/
def execDelivered (link : BitVec 5) (f : Frame) (s : State) : Out :=
  .next (towardsOrigin link.toNat 0x30 f (fun _ s => s) (fun key s =>
    afterDelivery key (transferDone key (fTransfer f.hdr) (if fLate f.hdr then .late else .ok) s)) s)

/-- REFUSED (R281): the transfer completes with the code. -/
def execRefused (link : BitVec 5) (f : Frame) (s : State) : Out :=
  .next (towardsOrigin link.toNat 0x31 f (fun _ s => s) (fun key s =>
    transferDone key (fTransfer f.hdr) (statusOf (be f.payload 0 2)) s) s)

/-- A tile mover has an accepted TM_SEND on a path with tiles still to send, in its core or in a saved state. -/
def sendsOn (s : State) (key : Nat) : Bool :=
  let on (k : Core) : Bool := k.movers.any (fun m => match m.2.run with
    | some r => sendLink r.desc && sendKey r.desc == key && r.status.isNone && r.waitAdm.isNone && r.done < tCount r.desc
    | none => false)
  s.cores.any (fun e => on e.2) || s.ctxs.any (fun c => c.2.saved.any (fun e => on e.2))
/-- PATH_REOPEN (R272): PATH_SEQ has reached its limit, of which the firmware has notice, and every accepted transfer has completed. -/
def execPathReopen (die : BitVec 1) (path : BitVec 12) (s : State) : Out :=
  let key := pathKey die.toNat path.toNat
  let e := entryOf s key
  let r := pathOf s key
  if eValid e && eRole e = 0 && r.phase = 3 && r.notice && r.flight.isEmpty && !sendsOn s key && linkUp s (eOutLink e) then
    .next (pathOpenSend key r.extra s)
  else .next s

end Sys2Proof.Machine
end

