-- ==== Sys2Proof/Machine/Package.lean ====
section
/-! DEFINITION. Supply, clocks, power and temperature control, the telemetry port, PPS (chapter 1). -/

namespace Sys2Proof.Machine

def refclkBit : Refclk → Nat
  | .sys => 3 | .hp => 2 | .lk0 => 1 | .lk1 => 0

/-! ## Core clocks (R18, R36) -/

/-- One step of power reduction in a core: its clock by 25 MHz towards 800 MHz; at the floor one idle cell step more in every
eight, and issue by an eighth. -/
def slowCore (k : Core) : Core :=
  if k.clock > 800 then { k with clock := natMax 800 (k.clock - 25) }
  else { k with issue8 := natMax 1 (k.issue8 - 1), idle8 := natMin 7 (k.idle8 + 1) }
/-- One step back; at full speed nothing of a reduction is left. -/
def fastCore (k : Core) : Core :=
  if k.issue8 < 8 then { k with issue8 := k.issue8 + 1, idle8 := k.idle8 - 1 }
  else if k.clock + 25 < 3300 then { k with clock := k.clock + 25 }
  else { k with clock := 3300, idle8 := 0, limited := false }
/-- The clock of a core without work ramps down to the floor. -/
def restCore (k : Core) : Core := { k with clock := natMax 800 (k.clock - 25), issue8 := 8, idle8 := 0, limited := false }
def eachCore (f : Nat → Core → Core) (s : State) : State :=
  (List.range 32).foldl (fun s c => setCore s c (f c (coreOf s c))) s

/-! ## Ramps (R29) -/

/-- The core's clock may move in this sample: it is among the few whose turn it is. -/
def rampNow (p : Pkg) (core : Nat) : Bool := (core + 32 - p.rampTurn % 32) % 32 < Config.rampCores % 32 + 1
/-- The input current rose, or fell, by more than 25 A since the sample before: no clock ramps further that way. -/
def steepUp (p : Pkg) : Bool := match p.lastI with | a :: b :: _ => a > b + 25000 | _ => false
def steepDown (p : Pkg) : Bool := match p.lastI with | a :: b :: _ => b > a + 25000 | _ => false
/-- What one sample does to a core: past a limit it is reduced, a throttled die's core waits, a core at work is given back what
was taken or ramps up, one without work ramps down. That a core with a context is at work, and that its clock rests at the floor, is
DESIGN CHOICE, log entry 17. -/
def rampCore (past : Bool) (p : Pkg) (core : Nat) (k : Core) : Core :=
  if !rampNow p core then k
  else if past then (if steepDown p then k else { slowCore k with limited := true })
  else if bit p.throttled (core / 8) then k
  else if k.ctx.isSome then (if steepUp p then k else fastCore k)
  else if steepDown p then k else restCore k

/-! ## Limits (R35) -/

/-- The averages of R35, over what the last 100 µs and 1 ms hold. DESIGN CHOICE (log entry 112): they are truncated to whole mA, mW
and mV, and a window that is not yet full is averaged over the samples it has. -/
def avgI (p : Pkg) : Nat := p.lastI.sum / natMax 1 p.lastI.length
def avgP (p : Pkg) : Nat := (p.lastVP.map (·.2)).sum / natMax 1 p.lastVP.length
def avgV (p : Pkg) : Nat := (p.lastVP.map (·.1)).sum / natMax 1 p.lastVP.length
/-- The current term of P_eff, 300 A × VIN, in mW. -/
def currentTerm (p : Pkg) : Nat := 300 * avgV p
/-- P_eff in mW. -/
def pEff (s : State) : Nat := natMin (pLimit s * 1000) (currentTerm s.pkg)
/-- A limit of R35 is exceeded. -/
def overLimit (s : State) : Bool := avgP s.pkg > pEff s || avgI s.pkg > 300000 || s.pkg.iinMa > 330000

/-! ## Telemetry windows (R41, R406) -/

/-- The window of len ns that runs at time t: at a whole multiple of its length what the running one held becomes the last complete
one (R406), with the STATUS bits of its end. The mean of VIN is rounded to the nearest mV, ties up; the steps of the others are whole
multiples of mA and mW, so that a truncated mean rounds as the exact one does. -/
def winRoll (len t : Nat) (stat : BitVec 4) (w : TelWin) : TelWin :=
  if t / len = w.idx then w else
  { idx := t / len, vin := if w.n = 0 then w.vin else (2 * w.sumV + w.n) / (2 * w.n), iin := if w.n = 0 then w.iin else w.sumI / w.n,
    pin := if w.n = 0 then w.pin else w.sumP / w.n / 1000, hot := if w.temps.isEmpty then w.hot else w.temps, stat := stat }
/-- A power sample into a running window. -/
def winSample (vin iin : Nat) (w : TelWin) : TelWin :=
  { w with n := w.n + 1, sumV := w.sumV + vin, sumI := w.sumI + iin, sumP := w.sumP + vin * iin }
/-- A temperature sample into a window. -/
def winTemp (sensor : Nat) (t : Int) (w : TelWin) : TelWin :=
  match w.temps.find? (fun e => e.1 == sensor) with
  | some (_, u) => if t > u then { w with temps := tset w.temps sensor t } else w
  | none => { w with temps := tset w.temps sensor t }
/-- The hottest of the sensors lo to hi - 1 over a window's last complete span; 0 where it holds no reading. -/
def winHot (w : TelWin) (lo hi : Nat) : Int :=
  match (w.hot.filter (fun e => lo ≤ e.1 && e.1 < hi)).map (·.2) with
  | [] => 0
  | x :: t => t.foldl (fun a b => if a < b then b else a) x

/-- Rounded to the nearest multiple of a step, ties up (R406). -/
def roundTo (step n : Nat) : Nat := (2 * n + step) / (2 * step) * step
def roundToInt (step n : Int) : Int := (2 * n + step) / (2 * step) * step

/-- STATUS of R41. -/
def statusReg (s : State) : W16 :=
  BitVec.ofNat 16 ((if isReady s then 0x8000 else 0) + (if s.pkg.pwrLimiting then 0x4000 else 0) +
    (if s.pkg.curLimiting then 0x2000 else 0) + (if s.pkg.throttled != 0 then 0x1000 else 0) +
    (if s.pkg.hotStacks != 0 then 0x0800 else 0) + s.pkg.refclk.toNat * 128)

/-- STATUS[14:11]. -/
def statusNow (s : State) : BitVec 4 := BitVec.ofNat 4 (fld (statusReg s) 14 11)
/-- The windows of 10 ms, 100 ms and 1 s as they stand now. -/
def win10 (s : State) : TelWin := winRoll 10000000 (now s) (statusNow s) s.pkg.win10
def win100 (s : State) : TelWin := winRoll 100000000 (now s) (statusNow s) s.pkg.win100
def win1k (s : State) : TelWin := winRoll 1000000000 (now s) (statusNow s) s.pkg.win1k
/-- A sample goes into each of them. -/
def intoWins (f : TelWin → TelWin) (s : State) : State :=
  setPkg s { s.pkg with win10 := f (win10 s), win100 := f (win100 s), win1k := f (win1k s) }

/-- The ten I2C registers (R41) by their offset; none beyond 0x12. -/
def i2cReg (s : State) (off : Nat) : Option W16 :=
  match off with
  | 0x00 => some 0x4820
  | 0x02 => some (statusReg s)
  | 0x04 => some s.pkg.alertCause
  | 0x06 => some (BitVec.ofNat 16 (win10 s).vin)
  | 0x08 => some (BitVec.ofNat 16 (roundTo 100 (win10 s).iin / 100))
  | 0x0A => some (BitVec.ofNat 16 (roundTo 1000 (win10 s).pin / 1000))
  | 0x0C => some (BitVec.ofNat 16 (pLimit s))
  | 0x0E => some (BitVec.ofInt 16 (winHot (win10 s) 0 60))
  | 0x10 => some (BitVec.ofInt 16 (winHot (win10 s) 60 72))
  | 0x12 => some s.pkg.tripHist
  | _ => none

/-- The I2C target responds once the boot ROM has started (R30). -/
def i2cOn (s : State) : Bool := s.pkg.supply == .on && s.boot.phase != .stopped

/-- Land ALERT_N is low while any cause is set, or latched by a trip (R40, R42); without VIN nothing drives it. -/
def alertLow (s : State) : Bool := s.pkg.supply != .off && (s.pkg.alertLatch || s.pkg.alertCause != 0)

/-! ## The rows -/

/-- The power-fail sequence (R33). -/
def powerFail (s : State) : State :=
  if s.pkg.supply == .on || s.pkg.supply == .rising then railsOff .failed s else s

/-- A reference clock is lost: STATUS shows it and ALERT_CAUSE.REFCLK_LOSS is set (R27); with the auxiliary rail off nothing
watches the clocks. -/
def clockLost (i : Nat) (s : State) : State :=
  if s.pkg.supply == .off then s
  else alertSet 6 (setPkg s { s.pkg with refclk := setBit s.pkg.refclk i false, clkLost := setBit s.pkg.clkLost i true })

/-- POWER_FAIL (R33): each of its causes. PWRGOOD falls in every state of the supply, but a trip sequence ignores it (R40). Where VIN
falls away before the final commit completes, the ledger keeps its previous record, and with VIN the auxiliary rail is gone (R34). -/
def execPowerFail (cause : PowerCause) (s : State) : Out :=
  match cause with
  | .pwrgoodFell => if inTrip s then .next s else .next (powerFail (setPkg s { s.pkg with pwrgood := false }))
  | .vinLow => .next (powerFail s)
  | .vinCollapse =>
    if s.pkg.supply == .on || s.pkg.supply == .rising then
      .next (let t := railsLost .off s; setPkg t { t.pkg with alertCause := 0, vinMv := 0, iinMa := 0 })
    else .next s
  | .refclkSys => .next (powerFail (clockLost 3 s))

/-- POWER_RESTORED (R33): VIN at or above 11.4 V and PWRGOOD high; R30 runs on from its row of 20 ms, with every rail up. REFCLK_SYS is
present again by then: R26 has it stable before PWRGOOD (DEDUCED, log entry 16). -/
def execPowerRestored (p : BootPins) (s : State) : Out :=
  if s.pkg.supply == .failed then
    .next (tryBoot (setPins p (setPkg s { s.pkg with
      supply := .on, pwrgood := true, refclk := setBit s.pkg.refclk 3 true, clkLost := setBit s.pkg.clkLost 3 false,
      rails := railOrder })))
  else .next s

/-- CUR_LIMIT_ALERT (R36): the current limit has bound for more than 10 ms. -/
def execCurLimitAlert (s : State) : Out :=
  if s.pkg.supply == .on && s.pkg.curLimiting then .next (alertSet 1 (setPkg s { s.pkg with curBound := true })) else .next s

/-- Ledger times and energy of one sample (R416): microseconds powered, limited and throttled; picojoules. -/
def ledgerSample (p : Nat) (s : State) : State :=
  let pw := s.pkg.powUs + 1
  let li := s.pkg.limUs + (if s.pkg.pwrLimiting || s.pkg.curLimiting then 1 else 0)
  let th := s.pkg.thrUs + (if s.pkg.throttled != 0 then 1 else 0)
  let en := s.pkg.energyPj + p
  let sec := 1000000
  let wh := 3600000000000000
  let s := setPkg s { s.pkg with powUs := pw % sec, limUs := li % sec, thrUs := th % sec, energyPj := en % wh }
  ledgerAdd 5 (th / sec) (ledgerAdd 4 (li / sec) (ledgerAdd 3 (en / wh) (ledgerAdd 2 (pw / sec) s)))

/-- A cause of ALERT_CAUSE that a sample still finds sets its bit again (R42): VIN, a lost clock, the current limit, a phase lost. -/
def alertAgain (s : State) : State :=
  let p := s.pkg
  let s := if p.vinMv < 11400 then alertSet 2 s else s
  let s := if p.vinMv > 12600 then alertSet 3 s else s
  let s := if p.clkLost != 0 then alertSet 6 s else s
  let s := if p.regFaults > 0 then alertSet 7 s else s
  if p.curBound && p.curLimiting then alertSet 1 s else s

/-- POWER_SAMPLE (R29, R33, R35, R36, R37): one sample of VIN and of the input current, each 1 µs. Above 14.0 V the device is
damaged (R28). -/
def execPowerSample (vinMv iinMa : Nat) (s : State) : Out :=
  if vinMv > 14000 then .fault .damaged
  else if s.pkg.supply == .off || (s.pkg.supply == .tripped && !inTrip s) then .next s
  else
    let p := s.pkg
    let oc := if iinMa > 345000 then p.overCur + 1 else 0
    let ov := if vinMv > 13200 then p.overVolt + 1 else 0
    let uv := if vinMv < 10800 then p.underVolt + 1 else 0
    let s := setPkg s { p with vinMv := vinMv, iinMa := iinMa, overCur := oc, overVolt := ov, underVolt := uv,
                               lastI := (iinMa :: p.lastI).take 100, lastVP := ((vinMv, vinMv * iinMa / 1000) :: p.lastVP).take 1000 }
    if oc ≥ 5 || ov ≥ 50 then .next (trip 2 0 (if oc ≥ 5 then iinMa / 100 else vinMv) s) else
    if uv ≥ 50 then .next (powerFail s) else
    if s.pkg.supply != .on then .next s else
    let s := intoWins (winSample vinMv iinMa) s
    let past := overLimit s
    let s := eachCore (rampCore past s.pkg) s
    let cur : Bool := currentTerm s.pkg < pLimit s * 1000
    let s := setPkg s { s.pkg with
      pwrLimiting := past || s.cores.any (fun e => e.2.limited), curLimiting := cur, curBound := s.pkg.curBound && cur,
      rampTurn := (s.pkg.rampTurn + Config.rampCores % 32 + 1) % 32 }
    let s := alertAgain s
    .next (ledgerSample (vinMv * iinMa) s)

/-- Sensors (R38): 0-47 the Almandine dies, 12 each; 48-55 the Furlong dies; 56, 57 the host-port die; 58, 59 the Morion
die; 60-71 the stacks (DESIGN CHOICE, log entry 6). Thresholds in 1/16 °C. -/
def tripTemp (sensor : Nat) : Int := if sensor < 60 then 120 * 16 else 105 * 16

/-- TEMP_SAMPLE (R38, R40): one sample of one sensor, each 10 µs. -/
def execTempSample (sensor : BitVec 7) (t16 : Int) (s : State) : Out :=
  let i := sensor.toNat
  if i ≥ 72 || s.pkg.supply == .off || (s.pkg.supply == .tripped && !inTrip s) then .next s else
  let p := s.pkg
  let hot := t16 ≥ tripTemp i
  let s := setPkg s { p with sensors := tset p.sensors i t16, tripArm := tset p.tripArm i hot }
  let s := intoWins (winTemp i t16) s
  let s := { s with ledger := if i < 60 then { s.ledger with tdiePeak := if s.ledger.tdiePeak < t16 then t16 else s.ledger.tdiePeak }
                              else { s.ledger with thbmPeak := if s.ledger.thbmPeak < t16 then t16 else s.ledger.thbmPeak } }
  if hot && tget false p.tripArm i then .next (trip 1 i (ofInt 16 t16) s) else
  if s.pkg.supply != .on then .next s else
  if i < 60 then
    let warn : Int := if i < 48 then 100 * 16 else 105 * 16
    let s := if t16 ≥ warn then (if bit s.pkg.alertCause 4 then s else alertSet 4 (ledgerAdd 6 1 s)) else s
    if i < 48 then
      let d := i / 12
      let cool := (List.range 12).all (fun k => tget 0 s.pkg.sensors (12 * d + k) < 102 * 16)
      if t16 ≥ 105 * 16 then
        .next (eachCore (fun c k => if c / 8 = d then slowCore k else k) (setPkg s { s.pkg with throttled := setBit s.pkg.throttled d true }))
      else if cool then .next (setPkg s { s.pkg with throttled := setBit s.pkg.throttled d false })
      else .next s
    else .next s
  else
    let k := i - 60
    let s := setPkg s { s.pkg with hotStacks := setBit s.pkg.hotStacks k (t16 ≥ 85 * 16) }
    .next (if t16 ≥ 95 * 16 then (if bit s.pkg.alertCause 5 then s else alertSet 5 (ledgerAdd 7 1 s)) else s)

/-- TRIP_LATCH_RELEASE (R40): VIN has been below 4.0 V for 100 ms. -/
def execTripLatchRelease (s : State) : Out :=
  if s.pkg.supply == .tripped then
    .next (setPkg s { s.pkg with supply := .off, thermtrip := false, alertLatch := false, alertCause := 0, vinMv := 0, iinMa := 0 })
  else .next s

/-- LEDGER_COMMIT (R34). -/
def execLedgerCommit (s : State) : Out := if fwRuns s then .next (ledgerCommit s) else .next s

/-- A W1C write to ALERT_CAUSE; a cause that occurs afresh in the same sample keeps its bit (R42). -/
def alertClear (mask fresh : W16) (s : State) : State :=
  setPkg s { s.pkg with alertCause := (s.pkg.alertCause &&& ~~~ mask) ||| (s.pkg.alertCause &&& fresh) }

/-- ALERT_CAUSE_WRITE (R41, R42), through the I2C port. -/
def execAlertCauseWrite (mask fresh : W16) (s : State) : Out :=
  if i2cOn s then .next (alertClear mask fresh s) else .next s

/-- I2C_WRITE_OTHER (R41): NACK on the first data byte, and no register changes. -/
def execI2cWriteOther (offset : Byte) (_v : W16) (s : State) : Out :=
  if i2cOn s && offset != 0x04 then .next (emit s .i2cNack) else .next s

/-- PPS_OUT_PULSE (R25): 1 ms high at a whole second of the time base, within 10 ns; omitted when PTP has moved the time
base and the pulse would begin less than 500 ms after the previous one. -/
def execPpsOutPulse (s : State) : Out :=
  let t := s.time
  let near := (now s + 10) % 1000000000 ≤ 20
  let tooSoon := match t.lastPps with | some p => t.moved && now s < p + 500000000 | none => false
  if s.pkg.supply == .on && near && !tooSoon then
    .next { s with time := { t with ppsOut := true, lastPps := some (now s), moved := false } }
  else .next s

/-- PTP_SOURCE and its PPS_ASSIST bit (R423). -/
def ptpSource (s : State) : Nat := hostSet s 1 1 % 4
def ppsAssist (s : State) : Bool := nbit (hostSet s 1 1) 7

/-- REGULATOR_PHASE_FAILURE (R41): the load moves to the remaining phases. -/
def execRegulatorPhaseFailure (_phase : Nat) (s : State) : Out :=
  if s.pkg.supply == .on then .next (alertSet 7 (setPkg s { s.pkg with regFaults := s.pkg.regFaults + 1 })) else .next s

/-- SUPPLY_DROOP (R18): the core's island stretches its own clock within the cycle. -/
def execSupplyDroop (core : BitVec 5) (s : State) : Out :=
  if s.pkg.supply == .on then .next (setCore s core.toNat { coreOf s core.toNat with stretch := true }) else .next s

end Sys2Proof.Machine
end

