-- ==== Sys2Proof/Machine/Host.lean ====
section
/-! DEFINITION. The host port's link, its neighbours and time (R293-R300): rows PFC_PAUSE_FRAME to PTP_RELAY, DROPPED_FRAME. -/

namespace Sys2Proof.Machine

/-! ## Settings (R295, R423) -/

def hpMode (s : State) : Nat := hostSet s 0 1
def lldpEn (s : State) : Bool := hostSet s 0x11 1 == 1
def ipv6Count (s : State) : Nat := hostSet s 0x12 1
def ipv4Present (s : State) : Bool := hostSet s 0x13 1 == 1
/-- Address bytes stand in the set in network order. -/
def hostBytes (s : State) (off len : Nat) : Bytes := mread (active s) (secOff (active s) 8 + off) len
def ipv4Addr (s : State) : Bytes := hostBytes s 0x14 4
def ipv6Addr (s : State) (i : Nat) : Bytes := hostBytes s (0x20 + 32 * i) 16
/-- The MAC address: a first byte, then the low 40 bits of the serial. -/
def macOf (first : Byte) (s : State) : Bytes := first :: (serialBytes s).drop 3
/-- The link-local address formed from a MAC address. -/
def linkLocal (mac : Bytes) : Bytes :=
  [0xFE, 0x80, 0, 0, 0, 0, 0, 0] ++ [(mac.headD 0) ^^^ 0x02] ++ slice mac 1 2 ++ [0xFF, 0xFE] ++ slice mac 3 3
def hostV6 (s : State) : List Bytes := linkLocal (macOf 0x02 s) :: (List.range (ipv6Count s)).map (ipv6Addr s)
/-- The host port's physical link is up and the firmware serves it. -/
def hostUp (s : State) : Bool := s.pkg.supply == .on && s.host.up

/-! ## The link (R284, R293, R325) -/

/-- Gb/s of a mode of R423. -/
def modeRate (m : Nat) : Nat := if m ≤ 3 then 1600 else if m ≤ 9 then 800 else 400
/-- Modes that Clause 73 negotiates. -/
def autoMode (m : Nat) : Bool := m == 1 || m == 2 || m == 4 || m == 5 || m == 7 || m == 8 || m == 0x0A || m == 0x0B
/-- Whether the port may come up in a mode: the setting's, or in a host-port boot the attachment tried (R310). -/
def modeAllowed (s : State) (m : Nat) : Bool :=
  1 ≤ m && m ≤ 0x0C &&
  (if s.boot.phase == .hostBoot then (if s.boot.attach = 0 then m == 0x0A || m == 0x0B else m == 0x0C)
   else if hpMode s = 0 then autoMode m else m == hpMode s)

/-- Buckets of the host reservations keep their tokens as of now, before the rate changes (R284). -/
def settleHost (s : State) : State :=
  { s with
      parts := s.parts.map (fun x =>
      (x.1, { x.2 with
        buckets := x.2.buckets.map (fun y =>
        let e := resvOf s x.1 y.1
        if rKind e = 2 || rKind e = 3 then (y.1, { y.2 with tok := tokens s e y.2 (now s), last := now s, live := true }) else y) })) }

/-- HOST_LINK_UP (R284, R293). -/
def execHostLinkUp (mode : Byte) (s : State) : Out :=
  let m := mode.toNat
  if s.host.up || !(fwRuns s || s.boot.phase == .hostBoot) || !bit s.pkg.refclk 2 || !modeAllowed s m then .next s else
  let s := if modeRate m ≠ s.host.rate then settleHost s else s
  .next { s with host := { s.host with up := true, rate := modeRate m, mode := mode } }

/-- The port's link drops: accepted bulk transfers complete with LINK_LOST (R325). -/
def hostDown (s : State) : State :=
  if !s.host.up then s else
  let s := bulkEndAll (fun _ => true) .linkLost s
  { s with host := { s.host with up := false, mode := 0, paused := [], pfcSent := false, held := [] } }
/-- HOST_LINK_DOWN (R325). -/
def execHostLinkDown (s : State) : Out := .next (hostDown s)

/-- PFC_PAUSE_FRAME (R296): each named priority stops for ns, or goes on at once when ns is 0. The time extends the bounds of
host-out transfers on it. -/
def execPfcPauseFrame (prios : Byte) (ns : Nat) (s : State) : Out :=
  if !hostUp s then .next s else
  let t := now s
  let more (i : Nat) : Int := (t + ns : Int) - natMax t (tget 0 s.host.paused i)
  let l := (List.range 8).filter (fun i => bit prios i)
  let big := l.foldl (fun a i => if a < more i then more i else a) (match l.head? with | some i => more i | none => 0)
  let h := { s.host with paused := l.foldl (fun p i => tset p i (t + ns)) s.host.paused, pauseNs := (s.host.pauseNs + big).toNat }
  let cls (b : Bulk) : Nat := pcp s (if b.bounded then 2 else 3)
  .next { s with
      host := h, bulk := s.bulk.map (fun e =>
      if e.2.out && bit prios (cls e.2) then (e.1, { e.2 with pauses := (e.2.pauses + more (cls e.2)).toNat }) else e) }

/-- DROPPED_FRAME (R294, R301): dropped and counted at the port. -/
def execDroppedFrame (port : Port) (s : State) : Out :=
  if s.pkg.supply != .on then .next s else
  match port with
  | .host => .next { s with host := { s.host with drops := s.host.drops + 1 } }
  | .mgmt => .next { s with mgmt := { s.mgmt with drops := s.mgmt.drops + 1 } }

/-! ## Neighbours (R294, R297): frames of kind 0 LLDP, 1 ARP, 2 neighbour discovery, 3 echo, 4 Delay_Req, 5 PFC -/

/-- LLDP_FRAME (R297): the last frame, up to 512 bytes of it, is kept. -/
def execLldpFrame (data : Bytes) (s : State) : Out :=
  if hostUp s then .next { s with host := { s.host with lldp := data.take 512 } } else .next s

def tlv (ty : Nat) (b : Bytes) : Bytes := bytesBE 2 (ty * 512 + b.length) ++ b
def hexDigit (n : Nat) : Byte := BitVec.ofNat 8 (if n < 10 then 48 + n else 55 + n)
def hexOf (b : Bytes) : Bytes := b.flatMap (fun x => [hexDigit (x.toNat / 16), hexDigit (x.toNat % 16)])
/-- The LLDP data unit of R297. -/
def lldpUnit (s : State) : Bytes :=
  let mac := macOf 0x02 s
  let addr := if ipv6Count s = 0 then linkLocal mac else ipv6Addr s 0
  tlv 1 (4 :: mac) ++ tlv 2 (7 :: ascii "HP") ++ tlv 3 (bytesBE 2 120) ++ tlv 5 (ascii "HKZ-4820" ++ hexOf (serialBytes s)) ++
    tlv 8 ([17, 2] ++ addr ++ [1, 0, 0, 0, 0, 0]) ++ tlv 0 []
/-- LLDP_TRANSMIT (R297): every 30 s with LLDP_EN = 1. -/
def execLldpTransmit (s : State) : Out :=
  if fwRuns s && hostUp s && lldpEn s then .next (emit s (.eth 0 (lldpUnit s))) else .next s

/-- ARP_FRAME (R294): a request for the configured IPv4 address is answered. -/
def execArpFrame (data : Bytes) (s : State) : Out :=
  if fwRuns s && hostUp s && ipv4Present s && data.length ≥ 28 && slice data 0 8 == [0, 1, 8, 0, 6, 4, 0, 1] && slice data 24 4 == ipv4Addr s then
    .next (emit s (.eth 1 ([0, 1, 8, 0, 6, 4, 0, 2] ++ macOf 0x02 s ++ ipv4Addr s ++ slice data 8 10)))
  else .next s

/-- NEIGHBOUR_DISCOVERY (R294): a solicitation for an address of the port is answered with an advertisement. Its checksum, over
the addresses of the packet that carries it, is not part of the message here. -/
def execNeighbourDiscovery (data : Bytes) (s : State) : Out :=
  if fwRuns s && hostUp s && data.length ≥ 24 && data.head? == some 135 && (hostV6 s).contains (slice data 8 16) then
    .next (emit s (.eth 2 ([136, 0, 0, 0, 0x60, 0, 0, 0] ++ slice data 8 16 ++ [2, 1] ++ macOf 0x02 s)))
  else .next s

/-- One's-complement sum of 16-bit words. -/
def ocAdd (a b : Nat) : Nat := if a + b ≥ 65536 then a + b - 65535 else a + b
/-- ICMP_ECHO (R294): a request is returned as a reply, its checksum adjusted for the changed type. -/
def execIcmpEcho (data : Bytes) (s : State) : Out :=
  if !(fwRuns s && hostUp s) || data.length < 8 then .next s else
  let ty := be data 0 1
  if ty ≠ 8 && ty ≠ 128 then .next s else
  let new := if ty = 8 then 0 else 129
  let sum := 65535 - ocAdd (ocAdd (65535 - be data 2 2) (65535 - be data 0 2)) (new * 256 + be data 1 1)
  .next (emit s (.eth 3 ([BitVec.ofNat 8 new] ++ slice data 1 1 ++ bytesBE 2 sum ++ data.drop 4)))

/-! ## Time (R298-R300) -/

/-- A step forward moves the acceptance times of what is accepted with it: nothing is late on its account (R325). -/
def stepBounds (n : Nat) (s : State) : State :=
  let on (k : Core) : Core := { k with movers := k.movers.map (fun m => (m.1, { m.2 with run := m.2.run.map (fun r => { r with accept := r.accept + n }) })) }
  let tx (l : List TxFrame) : List TxFrame := l.map (fun t => { t with bound := t.bound + n })
  { s with
    links := s.links.map (fun e => (e.1, { e.2 with unacked := tx e.2.unacked, retrQ := tx e.2.retrQ, bndQ := tx e.2.bndQ, unbQ := tx e.2.unbQ })),
    bulk := s.bulk.map (fun e => (e.1, { e.2 with accept := e.2.accept + n })),
    cores := s.cores.map (fun e => (e.1, on e.2)),
    ctxs := s.ctxs.map (fun e => (e.1, { e.2 with saved := e.2.saved.map (fun x => (x.1, on x.2)) })) }

/-- The firmware removes an offset (R299): behind by 1 ms or more by one forward step; ahead by 1 ms or more at half rate, which lasts
until the offset is removed; otherwise by a frequency correction within 500 ppm, whose value is the firmware's (a free value). -/
def steer (offset : Int) (s : State) : State :=
  if offset ≤ -1000000 then
    let n := offset.natAbs
    let t := s.time
    postDev 0x0042 (bytesBE 8 n) { stepBounds n s with time := { t with base := t.base + BitVec.ofNat 64 n, steps := t.steps + 1, moved := true, lastPps := t.lastPps.map (· + n), half := false, ahead := 0 } }
  else if offset ≥ 1000000 || (s.time.half && 0 < offset) then { s with time := { s.time with half := true, ahead := offset.natAbs, moved := true } }
  else
    let (x, s) := draw s
    { s with time := { s.time with ppb := (x % 1000001 : Nat) - (500000 : Int), half := false, ahead := 0, moved := true } }

/-- The time base is steered in these states (R299). -/
def steered (s : State) : Bool := s.time.ptp == .acquiring || s.time.ptp == .locked
/-- PPS_IN gives the phase: its last accepted capture is no more than 2 s old (R300; DESIGN CHOICE, log entry 159). -/
def ppsRules (s : State) : Bool := ppsAssist s && (match s.time.phaseAt with | some c => now s ≤ c + 2000000000 | none => false)
/-- The whole seconds of an offset, to the nearest. -/
def wholeSeconds (x : Int) : Int := (x + 500000000) / 1000000000 * 1000000000
/-- An offset has been measured: the state of R299 moves, and the time base is steered; where PPS_IN gives the phase, the seconds alone
are taken from it (R300). -/
def ptpOffset (offset : Int) (s : State) : State :=
  let good := offset.natAbs < 100
  let t := { s.time with offset := offset, goodSyncs := if good then s.time.goodSyncs + 1 else 0, badSyncs := if good then 0 else s.time.badSyncs + 1 }
  let t := if t.ptp == .acquiring && t.goodSyncs ≥ 16 then { t with ptp := .locked, badSyncs := 0 }
    else if t.ptp == .locked && t.badSyncs ≥ 4 then { t with ptp := .acquiring, goodSyncs := 0 } else t
  let s := { s with time := t }
  let by_ := if ppsRules s then wholeSeconds offset else offset
  if !steered s || (ppsRules s && by_ = 0) then s else steer by_ s

/-- PPS_IN_EDGE (R25): a pulse of 1 µs or more is captured to 8 ns; with PPS_ASSIST a capture more than 500 ns from the
expected whole second is rejected and counted, and another disciplines the phase (R300). -/
def execPpsInEdge (width : Nat) (s : State) : Out :=
  if width < 1000 || s.pkg.supply != .on then .next s else
  let c := now s / 8 * 8
  let s := { s with time := { s.time with ppsIn := some c } }
  if !fwRuns s || !ppsAssist s then .next s else
  let x := (c : Int) - wholeSeconds c
  if 500 < x.natAbs then .next { s with time := { s.time with ppsReject := s.time.ppsReject + 1 } }
  else
    let s := { s with time := { s.time with offset := x, phaseAt := some c } }
    .next (if steered s then steer x s else s)

/-- PTP_DOMAIN (R295). -/
def ptpDomain (s : State) : Nat := hostSet s 0x10 1
def ptpHdr : PtpMsg → PtpHdr
  | .announce h _ => h | .sync h _ => h | .followUp h _ => h | .delayResp h _ => h
/-- One PTP message (R298, R299), of PTP_DOMAIN; all but Announce of the transmitter selected. -/
def ptpMessage (m : PtpMsg) (s : State) : State :=
  let t := s.time
  let h := ptpHdr m
  if h.domain.toNat != ptpDomain s then s else
  match m, t.master with
  | .announce h rank, some (r, i) =>
    if h.source = i || rank < r || (rank = r && h.source < i) then { s with time := { t with master := some (rank, h.source) } } else s
  | .announce h rank, none => { s with time := { t with master := some (rank, h.source) } }
  | _, none => s
  | .sync h t2, some (_, i) =>
    if h.source ≠ i then s else
    let p : PtpState := match t.ptp with | .freeRun => .acquiring | .holdover => .acquiring | x => x
    let g := if t.ptp == p then t.goodSyncs else 0
    { s with time := { t with ptp := p, goodSyncs := g, syncSeq := h.seq, syncT2 := t2 } }
  | .followUp h t1, some (_, i) =>
    if h.source ≠ i || t.ptp == .freeRun || t.ptp == .holdover || h.seq ≠ t.syncSeq then s
    else ptpOffset ((t.syncT2 : Int) - t1 - t.delay) { s with time := { t with pair := some (t1, t.syncT2) } }
  | .delayResp h t4, some (_, i) =>
    (match t.pair with
    | some (t1, t2) =>
      if h.source ≠ i || t.reqT3 = 0 then s
      else { s with time := { t with delay := (((t2 : Int) - t1) + ((t4 : Int) - t.reqT3)) / 2, reqT3 := 0 } }
    | none => s)

/-- PTP messages pass on the network, by PTP_SOURCE (R298, R300). -/
def ptpOnNet (s : State) : Bool := fwRuns s && hostUp s && ptpSource s ≠ 3
/-- A PTP message on the network: with PTP_SOURCE = RELAY it moves nothing (R300, R325). -/
def ptpNet (m : PtpMsg) (s : State) : State := if ptpOnNet s then ptpMessage m s else s
/-- PTP_ANNOUNCE (R298). -/
def execPtpAnnounce (hdr : PtpHdr) (rank : Nat) (s : State) : Out := .next (ptpNet (.announce hdr rank) s)
/-- PTP_SYNC (R299). -/
def execPtpSync (hdr : PtpHdr) (t2 : Nat) (s : State) : Out := .next (ptpNet (.sync hdr t2) s)
/-- PTP_FOLLOW_UP (R298). -/
def execPtpFollowUp (hdr : PtpHdr) (t1 : Nat) (s : State) : Out := .next (ptpNet (.followUp hdr t1) s)
/-- PTP_DELAY_RESP (R298). -/
def execPtpDelayResp (resp : PtpResp) (s : State) : Out := .next (ptpNet (.delayResp resp.h resp.t4) s)

/-- PTP_RELAY (R300): one PTP message inside a fabric-manager session; the device takes time from it with PTP_SOURCE = RELAY
only, and answers the session whose transmitter it follows. -/
def execPtpRelay (sess : Nat) (msg : PtpRelay) (s : State) : Out :=
  .next (arrivesNow sess (msg.head.seq.getD ((sessOf s sess).rxSeq + 1)) msg.head msg.acks s fun s =>
    if !isFabric (sessOf s sess) || ptpSource s ≠ 3 then s else
    let t := ptpMessage msg.msg s
    if t.time.master = s.time.master then t else { t with time := { t.time with relay := some sess } })

/-- PTP_DELAY_REQ_TIMER (R298), on the network or to the session that relays (R300); nothing leaves on a priority that the peer pauses
(R296). -/
def execPtpDelayReqTimer (s : State) : Out :=
  if !fwRuns s || !hostUp s || s.time.master.isNone || !steered s then .next s else
  let t := { s with time := { s.time with reqT3 := now s } }
  if ptpSource s ≠ 3 then (if classPaused s 0 then .next s else .next (emit t (.eth 4 (bytesBE 8 (now s)))))
  else match s.time.relay with
    | some n => .next (sendDatagram n .plain (.relay n (bytesBE 8 (now s))) t)
    | none => .next s

/-- PTP_SYNC_TIMEOUT (R299): the last frequency correction stays applied. -/
def execPtpSyncTimeout (s : State) : Out :=
  if s.time.ptp == .acquiring || s.time.ptp == .locked then
    .next { s with time := { s.time with ptp := .holdover, goodSyncs := 0, badSyncs := 0, half := false, ahead := 0 } }
  else .next s

/-- PTP_ANNOUNCE_TIMEOUT (R298): the transmitter is no longer selected. -/
def execPtpAnnounceTimeout (s : State) : Out :=
  if s.time.master.isSome then .next { s with time := { s.time with master := none, relay := none } } else .next s

end Sys2Proof.Machine
end

