-- ==== Sys2Proof/Machine/Sessions.lean ====
section
/-! DEFINITION. Sessions of both ports (R301-R309, R402): opening, acknowledgement timers, closing, reports without a session. -/

namespace Sys2Proof.Machine

/-! ## CLIENT_HELLO (R306, R402), its kind byte first -/

def chRole (b : Bytes) : Nat := be b 3 1
def chPart (b : Bytes) : Nat := be b 4 1
def chDgram (b : Bytes) : Nat := be b 5 2
def chNonce (b : Bytes) : Bytes := slice b 7 64
def chPoint (b : Bytes) : Bytes := slice b 71 133
def chCred (b : Bytes) : Bytes := slice b 206 (be b 204 2)

/-- The role a CLIENT_HELLO asks for on a port. -/
def helloRole (port : Port) (b : Bytes) : Option Role :=
  match port with
  | .host => if chRole b = 1 && chPart b < 16 then some (.tenant (BitVec.ofNat 4 (chPart b))) else if chRole b = 2 then some .fabric else none
  | .mgmt => if chPart b ≠ 0 then none else if chRole b = 3 then some .operator else if chRole b = 4 then some .titleholder else none

/-- The public key of a credential that its role accepts (R305, R402). -/
def credKey (s : State) (r : Role) (cred : Bytes) : Option Bytes :=
  let chain (root : Digest) : Option Bytes := match Config.certChain cred with
    | some (leaf, top) => if root != 0 && Config.sha512 top == root then some leaf else none
    | none => none
  match r with
  | .tenant p => if cred.length == 133 && (partOf s p.toNat).key == some (Config.sha512 cred) then some cred else none
  | .fabric => chain (digestOf (hostBytes s 0xA0 64))
  | .operator => chain s.nvm.title.opRoot
  | .titleholder => if cred.length == 133 && (s.fuses.ownerEpoch = 0 || Config.sha512 cred == s.nvm.title.holder) then some cred else none

/-- How many sessions of a role may be open. -/
def roleLimit : Role → Nat
  | .tenant _ => 8 | .fabric => 4 | .operator => 4 | .titleholder => 1
def roleFull (s : State) (r : Role) : Bool := (openSessions s (fun _ q => q.role == r)).length ≥ roleLimit r
/-- The lowest free session number of a port: 0-127, or 128 and up for the management port. -/
def freeSession (s : State) (port : Port) : Option Nat :=
  match port with
  | .host => (List.range 128).find? (fun n => (sessOf s n).phase == .closed)
  | .mgmt => ((List.range 128).map (128 + ·)).find? (fun n => (sessOf s n).phase == .closed)

/-- HELLO of kind REFUSE, with the earliest time beside DEFERRED. -/
def helloRefuse (port : Port) (st : Status) (earliest : Nat) (s : State) : State :=
  sayHello port 0x07 (bytesBE 2 (statusCode st) ++ (if st == .deferred then bytesBE 8 earliest else [])) s

def isTenantRole : Role → Bool | .tenant _ => true | _ => false
/-- The checks of a CLIENT_HELLO, in the order of R15; a BLANK device has no tenants (R68). -/
def helloChecks (s : State) (port : Port) (b : Bytes) : List Check :=
  let role := helloRole port b
  [ ⟨1, s.boot.secondLifeWait && port == .host, .notReady⟩,
    ⟨2, (match role with | some r => (credKey s r (chCred b)).isNone || (s.fuses.lifecycle == .blank && isTenantRole r) | none => false), .denied⟩,
    ⟨5, b.head? != some 1 || be b 1 2 != 1 || role.isNone || (chDgram b < 1518 && chDgram b != 0xFFFF), .badDescriptor⟩,
    ⟨6, b.length < 206 || be b 204 2 == 0xFFFF || b.length != 206 + be b 204 2 || chDgram b == 0xFFFF, .badLength⟩,
    ⟨8, (match role with | some r => roleFull s r | none => false) || (freeSession s port).isNone, .conflict⟩ ]

/-- The digests th1 and th2 of R306. -/
def helloDigest (a b : Bytes) : Bytes := digestBytes (Config.sha512 (a ++ b))

/-- DEVICE_HELLO up to its signature. -/
def deviceHello (s : State) (port : Port) (n : Nat) (eph : Nat) (b : Bytes) (part : Nat) : Bytes :=
  [2] ++ bytesBE 4 n ++ padTo 133 (Config.pubOf (privBytes eph)) ++ report s (chNonce b) part ++
    idCertBytes s ++
    (if port == .mgmt then bytesBE 2 s.mgmt.cert.length ++ s.mgmt.cert else []) ++ eventLogBytes s

/-- The management key signs DEVICE_HELLO on the management port (R402), the identity key on the host port (R63). -/
def helloSign (s : State) (port : Port) (th1 : Bytes) : Bytes :=
  match port with
  | .host => identitySign s "KAZBA-KHT-V1" th1
  | .mgmt => padTo 132 (Config.ecdsaSign (keyOf s slotMgmt) (ascii "KAZBA-MGMT-V1" ++ th1))

/-- CLIENT_HELLO (R305, R306, R402): a half-open session and DEVICE_HELLO, or REFUSE. -/
def execClientHello (port : Port) (peer : Nat) (payload : Bytes) (s : State) : Out :=
  if bootHalted s && port == .mgmt then .next (helloRefuse port .notReady 0 s)
  else if !portOpen s port then .next s else
  match firstFailure (helloChecks s port payload) with
  | some st => .next (helloRefuse port st 0 s)
  | none =>
    match reportWait s with
    | some t => .next (helloRefuse port .deferred t s)
    | none =>
      match helloRole port payload, freeSession s port with
      | some role, some n =>
        let (eph, s) := draw s
        let part := match role with | .tenant p => p.toNat | _ => 0xFF
        let dh := deviceHello s port n eph payload part
        let dh := dh ++ helloSign s port (helloDigest payload dh)
        let mx := match port with | .host => hostSet s 8 2 | .mgmt => 9216
        let q : Session := {
          phase := .half, port := port, role := role, peer := peer, dgram := natMin (chDgram payload) mx, chello := payload, dhello := dh,
          cred := (credKey s role (chCred payload)).getD [], eph := eph }
        .next (sayHello port 0x02 (dh.drop 1) (countReport (setSess s n q)))
      | _, _ => .next s

/-- Salt of the session keys (R307, R402). -/
def sessionSalt : Port → String
  | .host => "KAZBA-KHT-KEYS" | .mgmt => "KAZBA-MGMT-KEYS"

/-- CLIENT_FINISH (R306, R307): the client's signature verifies, the keys fill their slots, SESSION_READY goes out as SEQ 1. -/
def execClientFinish (sess : Nat) (payload : Bytes) (s : State) : Out :=
  let q := sessOf s sess
  if q.phase != .half || !portOpen s q.port then .next s else
  let th2 := helloDigest q.chello q.dhello
  let sig := payload.drop 1
  let drop (st : Status) : State := helloRefuse q.port st 0 (setSess s sess sessionReset)
  if payload.length != 133 || payload.head? != some 3 then .next (drop .badDescriptor)
  else if !Config.ecdsaVerify q.cred (ascii "KAZBA-KHT-V1" ++ th2) sig then .next (drop .denied)
  else if roleFull s q.role then .next (drop .conflict)
  else
    let o := padTo 72 (Config.hkdf (ascii (sessionSalt q.port)) (Config.ecdh (privBytes q.eph) (chPoint q.chello)) (th2 ++ sig) 72)
    let s := match q.port with
      | .host => setKey (setKey s (0x260 + 2 * sess) (slice o 0 32 ++ slice o 64 4)) (0x261 + 2 * sess) (slice o 32 32 ++ slice o 68 4)
      | .mgmt => s
    let s := setSess s sess { q with phase := .opened, eph := 0, chello := [], dhello := [], keys := if q.port == .mgmt then some o else none }
    .next (sendDatagram sess .plain (.sessioned sess 0x0006 (bytesBE 2 q.dgram)) s)

/-- HALF_OPEN_TIMEOUT (R306): no session state is kept. -/
def execHalfOpenTimeout (sess : Nat) (s : State) : Out :=
  if (sessOf s sess).phase == .half then .next (setSess s sess sessionReset) else .next s

/-- The report and the event log over a nonce, for a requester (R61, R66), and the identity certificate that goes with every
report (R64, log entry 118). -/
def reportReply (s : State) (nonce : Bytes) (part : Nat) : Bytes := report s nonce part ++ eventLogBytes s ++ idCertBytes s

/-- ATTEST_ONLY (R308): a report without a session, on either port once the firmware's ports are up, and in BOOT_HALT on the
management port. -/
def execAttestOnly (port : Port) (_peer : Nat) (payload : Bytes) (s : State) : Out :=
  if !(portOpen s port || (bootHalted s && port == .mgmt)) then .next s
  else if payload.head? != some 5 then .next (helloRefuse port .badDescriptor 0 s)
  else if payload.length != 65 then .next (helloRefuse port .badLength 0 s)
  else match reportWait s with
  | some t => .next (helloRefuse port .deferred t s)
  | none => .next (countReport (sayHello port 0x06 (reportReply s (payload.drop 1) 0xFF) s))

/-! ## Timers (R303) -/

/-- KHT_ACK_TIMER (R303). -/
def execKhtAckTimer (sess : Nat) (s : State) : Out :=
  if (sessOf s sess).phase == .opened then .next (sendKhtAck sess s) else .next s

/-- KHT_RETRANSMIT_TIMEOUT (R303): the oldest unacknowledged datagram goes again, once the peer lets its priority go on (R296); at
the sixteenth retry the session closes. While the port's link is down nothing is sent (R325). -/
def execKhtRetransmitTimeout (sess : Nat) (s : State) : Out :=
  let q := sessOf s sess
  if q.phase != .opened || !portOpen s q.port then .next s else
  match q.unacked with
  | [] => .next s
  | t :: rest =>
    if whatPaused s sess t.what then .next s
    else if t.retries + 1 ≥ 16 then .next (closeSession sess s)
    else .next (emit (setSess s sess { q with unacked := { t with retries := t.retries + 1 } :: rest }) (.resend sess t.seq))

/-- SESSION_TIMEOUT (R303): no valid datagram from the peer for SESSION_TIMEOUT. -/
def execSessionTimeout (sess : Nat) (s : State) : Out :=
  if (sessOf s sess).phase == .opened then .next (closeSession sess s) else .next s

/-- MAILBOX_BOUND_EXPIRY (R312): the host-port die answers UNRESPONSIVE for the firmware, and FIRMWARE_STALL is posted; a
later response is discarded. -/
def execMailboxBoundExpiry (sess : Nat) (tag : W16) (s : State) : Out :=
  let q := sessOf s sess
  if q.phase != .opened then .next s else
  match q.busy.find? (fun b => b.1 == tag) with
  | none => .next s
  | some (_, op) =>
    let s := setSess s sess { q with busy := q.busy.filter (fun b => b.1 != tag) }
    let s := sendDatagram sess .plain (.response q.port sess (op + 0x8000) tag .unresponsive 0 0 0 0 []) s
    .next (postDev 0x0002 (bytesBE 2 op.toNat ++ bytesBE 4 sess) s)

/-! ## Events (R344, R404) -/

/-- Events per second of a queue. -/
def eventRate (s : State) (q : Nat) : Nat := if q < 16 then pEventRate (active s) q * 1000 else if q = 16 then 100000 else 10000
/-- Burst of a queue in 10^-6 events. -/
def eventBurst (q : Nat) : Nat := if q < 16 then 1024000000 else 1000000
/-- Tokens spent, in 10^-6 events, at this time. -/
def eventDebt (s : State) (q : Nat) : Nat := let k := queueOf s q; k.debt - (now s - k.last) * eventRate s q / 1000
/-- The sessions a queue's events go to. -/
def receivers (s : State) (q : Nat) : List Nat :=
  openSessions s (fun _ x => if q < 16 then isTenantOf q x else if q = 16 then isFabric x else x.port == .mgmt)
/-- EVENT_SEND (R344): the oldest event not yet sent goes to every open session that receives it; the reserved slot of a
partition reset bypasses the rate limit; with no session open, events wait. -/
def execEventSend (queue : Nat) (s : State) : Out :=
  if queue ≥ 18 || !portsUp s then .next s else
  let k := queueOf s queue
  let recvs := receivers s queue
  if recvs.isEmpty then .next s else
  match k.final, k.finalTo with
  | some e, none => .next (recvs.foldl (fun s n => sendDatagram n (.event queue e.qseq.toNat) (.event n e) s) (setQueue s queue { k with finalTo := some recvs }))
  | _, _ =>
    match k.items.find? (fun x => !x.2.1) with
    | none => .next s
    | some (e, _, _) =>
      let debt := eventDebt s queue
      if debt + 1000000 > eventBurst queue then .next s else
      let items := k.items.map (fun x => if x.1.qseq == e.qseq then (x.1, true, recvs) else x)
      let s := setQueue s queue { k with items := items, debt := debt + 1000000, last := now s }
      .next (recvs.foldl (fun s n => sendDatagram n (.event queue e.qseq.toNat) (.event n e) s) s)

end Sys2Proof.Machine
end

