-- ==== Sys2Proof/Machine/ContextOps.lean ====
section
/-! DEFINITION. Operations on contexts (chapter 11): program images (R425), saved and restored cores (R339), banks of a
charter (R362), dumps (R347, R348), and the scrub of a partition (R349). -/

namespace Sys2Proof.Machine

/-! ## Program images (R425) -/

def imgCount (b : Bytes) : Nat := le b 6 2
def recCore (b : Bytes) (i : Nat) : Nat := le b (0x10 + 24 * i) 1
def recGrain (b : Bytes) (i : Nat) : Nat := le b (0x11 + 24 * i) 1
def recProg (b : Bytes) (i : Nat) : Nat × Nat := (le b (0x14 + 24 * i) 4, le b (0x18 + 24 * i) 4)
def recScratch (b : Bytes) (i : Nat) : Nat × Nat := (le b (0x1C + 24 * i) 4, le b (0x20 + 24 * i) 4)
/-- The records an image has room to name; a count above 64 is refused. -/
def imgRecs (b : Bytes) : List Nat := List.range (natMin (imgCount b) 64)

/-- The image is malformed: check 5. -/
def imgMalformed (k : Context) (b : Bytes) : Bool :=
  le b 0 4 != 0x4B5A5049 || le b 4 2 != 1 || le b 0xC 4 != 0 ||
  (imgRecs b).any (fun i =>
    le b (0x12 + 24 * i) 2 != 0 || le b (0x24 + 24 * i) 4 != 0 || recCore b i ≥ 32 || !ctxCore k (recCore b i) || recGrain b i > 1 ||
    (recProg b i).1 % 64 != 0 || (recScratch b i).1 % 64 != 0 || (recProg b i).2 % 4 != 0 || (recScratch b i).2 % 8 != 0 ||
    (imgRecs b).any (fun j => j < i && recCore b j == recCore b i && recGrain b j == recGrain b i))
/-- A count or a range of the image is out of bounds: check 6. -/
def imgBadLength (b : Bytes) (named : Nat) : Bool :=
  imgCount b == 0 || imgCount b > 64 || le b 8 4 != named || 0x10 + 24 * imgCount b > named ||
  (imgRecs b).any (fun i =>
    (recProg b i).2 < 4 || (recProg b i).2 > 65536 || (recScratch b i).2 > 16384 ||
    (recProg b i).1 + (recProg b i).2 > named || (recScratch b i).1 + (recScratch b i).2 > named)

/-- The record of a grain core, if the image programs it. -/
def recFor (b : Bytes) (core g : Nat) : Option Nat := (imgRecs b).find? (fun i => recCore b i == core && recGrain b i == g)
def progOf (b : Bytes) (i : Nat) : Mem := mwrite [] 0 (slice b (recProg b i).1 (recProg b i).2)
def scratchOf (b : Bytes) (i : Nat) : Mem := mwrite [] 0 (slice b (recScratch b i).1 (recScratch b i).2)
/-- A grain core as CONTEXT_LOAD leaves it: the record's words and scratch, zeros behind them; without a record, empty. -/
def loadGrain (b : Bytes) (core g : Nat) (started : Bool) : Grain :=
  match recFor b core g with
  | some i => { grainReset with prog := progOf b i, scratch := scratchOf b i, started := started }
  | none => grainReset

/-! ## Cores (R339, R340) -/

/-- A core given to a context, its programs loaded; it keeps its clock, and the epoch that a restore gave it (R398). -/
def freshCore (s : State) (c core : Nat) (started : Bool) : Core :=
  let k := coreOf s core
  let b := (ctxOf s c).image
  onIsland k { coreReset with
      ctx := some c, epoch := if k.ctx == some c then k.epoch else 0,
      grains := [(0, loadGrain b core 0 started), (1, loadGrain b core 1 started)] }
/-- Give every core of the context a fresh state. -/
def installCores (c : Nat) (started : Bool) (s : State) : State :=
  (ctxCores (ctxOf s c)).foldl (fun s i => seedCore i (setCore (clearCore i s) i (freshCore s c i started))) s
/-- Bytes of a core's operand cache, by offset. -/
def cacheOf (s : State) (core : Nat) : Mem :=
  (s.mem.filter (fun x => aliasAddr core 0 ≤ x.1 && x.1 < aliasAddr core 0 + 0x02000000)).map (fun x => (x.1 - aliasAddr core 0, x.2))
/-- SAVE: state and operand cache go to the save area, and the core is free. -/
def saveCore (c core : Nat) (s : State) : State :=
  let k := ctxOf s c
  clearCore core (setCtx s c { k with saved := tset k.saved core (coreOf s core), savedOc := tset k.savedOc core (cacheOf s core) })
def saveCores (c : Nat) (s : State) : State := (runningCores s c).foldl (fun s i => saveCore c i s) s
/-- The program stores are reloaded from the image; the rest of a grain core's state is as saved. -/
def reloaded (b : Bytes) (core : Nat) (k : Core) : Core :=
  let on (g : Nat) : Grain := { grainOf k g with prog := (loadGrain b core g true).prog }
  { k with grains := [(0, on 0), (1, on 1)] }
/-- Restore of one core. -/
def restoreCore (c core : Nat) (s : State) : State :=
  let k := ctxOf s c
  let now_ := coreOf s core
  let s := clearCore core s
  let m := (tget [] k.savedOc core).foldl (fun m x => mset m (aliasAddr core x.1) x.2) s.mem
  let q := reloaded k.image core (tget coreReset k.saved core)
  let q := { q with vec := { q.vec with turn := 0 } }   -- R187: as in R125
  arraysResume (seedCore core (setCore { s with mem := m } core (onIsland now_ q))) core
/-- Restore of every saved core; the copies are done with. -/
def restoreCores (c : Nat) (s : State) : State :=
  let k := ctxOf s c
  let s := (k.saved.map (·.1)).foldl (fun s i => restoreCore c i s) s
  setCtx s c { ctxOf s c with saved := [], savedOc := [], incoming := false }
/-- Saved cores as CONTEXT_START leaves them when it cannot run at once. -/
def parkCores (c : Nat) (s : State) : State :=
  let k := ctxOf s c
  setCtx s c { k with saved := (ctxCores k).map (fun i => (i, freshCore s c i true)), savedOc := [] }

/-- A context runs, or its fence is not complete, on a core that c needs. -/
def coresBusy (s : State) (c : Nat) : Bool :=
  (ctxCores (ctxOf s c)).any (fun i => match (coreOf s i).ctx with
    | some d => d != c && ((ctxOf s d).state == .active || (ctxOf s d).state == .fencing)
    | none => false)
/-- Contexts of one partition that share a core pair. -/
def shares (s : State) (a b : Nat) : Bool :=
  a != b && (ctxOf s a).part == (ctxOf s b).part && ((ctxOf s a).pairs &&& (ctxOf s b).pairs) != 0

/-- What a SAVE waits for (R340): the arrays have frozen their groups, no row block is half read out, and no accepted
bounded descriptor is unfinished. -/
def coreSaved (s : State) (core : Nat) : Bool :=
  let k := coreOf s core
  k.arr.save == k.arr.groups && (match k.arr.run with | some r => r.saving | none => true) &&
  [0, 1].all (fun m => match (tget {} k.movers m).run with
    | some r => !(tBounded r.desc) || r.status.isSome || r.waitAdm.isSome
    | none => true)

/-! ## The banks of a charter (R362) -/

def bankRanges (ch : Charter) : List (Nat × Nat) :=
  (bankPairs ch).flatMap (fun b => [(b.1, b.2.2.1), (b.2.1, b.2.2.1)]) ++
  (if chMirror ch.doc then
     let n := nbits (be ch.doc 0xA38 16) 72 54 * 2 ^ 21
     [(mirrorBank ch false, n), (mirrorBank ch true, n)]
   else [])
/-- Sealed regions with READ and WRITE and neither HOST_DMA nor DEBUG cover every bank range. -/
def banksCovered (s : State) (c : Nat) (ch : Charter) : Bool :=
  (bankRanges ch).all (fun r => (List.range (r.2 / 2 ^ 21)).all (fun i =>
    match regionAt (ctxOf s c) (r.1 + i * 2 ^ 21) with
    | some (_, e) => regSealed e && bit e rREAD && bit e rWRITE && !bit e rHOST && !bit e rDEBUG
    | none => false))

/-- A receive window in WRITE mode bound to a context at its current generation. -/
def writeWindow (s : State) (c va len : Nat) : RecvWindow :=
  BitVec.ofNat 256 (va * 2 ^ 208 + len / 64 % 2 ^ 29 * 2 ^ 179 + c * 2 ^ 171 + (ctxOf s c).gen.toNat * 2 ^ 163)
/-- The windows that a charter with BUDDY_MIRROR reserves (R375): 62 over the mirror banks, 63 over the committed ranges of
the partition's one context. -/
def buddyWindows (p : Nat) (s : State) : State :=
  let q := partOf s p
  match q.charter, (ctxsOf s p).head? with
  | some ch, some c =>
    if !ch.active || !chMirror ch.doc then s else
    let n := ((bankPairs ch).map (fun b => b.2.2.1)).sum
    let w := tset (tset q.windows 62 (writeWindow s c (mirrorBank ch false) n)) 63 (writeWindow s c (committedVa ch 0) n)
    setPart s p { q with windows := w }
  | _, _ => s

/-! ## Watchdogs and dumps (R345-R348) -/

/-- The unit a watchdog watches has work for the context. -/
def unitWorks (s : State) (core kind n : Nat) : Bool :=
  let k := coreOf s core
  let x := grainOf k n
  let m := tget {} k.movers n
  match kind with
  | 1 => n == 0 && (k.arr.run.isSome || [0, 1].any (fun g => !(tget [] k.arr.queue g).isEmpty))
  | 2 => n == 0 && (!k.vec.runs.isEmpty || [0, 1].any (fun g => !(tget [] k.vec.queue g).isEmpty))
  | 3 => n < 2 && (match m.run with | some r => r.waitAdm.isNone && !r.waitAcc | none => !m.queue.isEmpty)
  | 4 => n < 2 && x.started && !x.stopped && x.waiting == .none
  | 5 => (n < 2 && x.started && !x.stopped && x.waiting != .none && x.waiting != .sync) ||
         (2 ≤ n && n < 4 && (match (tget ({} : Mover) k.movers (n - 2)).run with | some r => r.waitAcc | none => false))
  | _ => false
/-- The oldest outstanding descriptor of the unit, or of the grain core that waits or runs. -/
def unitTag (s : State) (core kind n : Nat) : Nat :=
  let k := coreOf s core
  let mover (m : Nat) : List Nat :=
    let v := tget ({} : Mover) k.movers m
    (match v.run with | some r => [dTag r.desc] | none => []) ++ v.queue.map (fun e => dTag e.1)
  let l : List Nat := match kind with
    | 1 => (match k.arr.run with | some r => [dTag r.desc] | none => []) ++ [0, 1].flatMap (fun g => (tget [] k.arr.queue g).map dTag)
    | 2 => k.vec.runs.map (fun e => dTag e.2.d.hdr) ++ [0, 1].flatMap (fun g => (tget [] k.vec.queue g).map (fun d => dTag d.hdr))
    | 3 => mover n
    | _ => if n < 2 then (outstandingDescs k).filterMap (fun e => if e.1 = n then some e.2 else none) else mover (n - 2)
  l.headD 0

/-- Units a dump reads (R347), as KIND of R427 less 0x0010 times 2^16 plus UNIT: the units of the context's cores, the stacks
of its partition, both Furlong dies, the host-port die, the Morion firmware's record. -/
def dumpUnits (s : State) (c : Nat) : List Nat :=
  let k := ctxOf s c
  let unit (core engine inst : Nat) : Nat := core * 2 ^ 11 + engine * 2 ^ 8 + inst
  let stacks_ := (List.range 12).filter (fun m => (slicesOf s k.part.toNat).any (fun n => n / 16 == m))
  (ctxCores k).flatMap (fun i => [unit i 7 0, unit i 7 1, unit i 1 0, unit i 1 1, unit i 1 2, unit i 1 3, unit i 2 0, unit i 3 0, unit i 0 0, unit i 0 1]) ++
    (stacks_ ++ [0x100, 0x101, 0x200, 0x300]).map (2 ^ 16 + ·)

/-- An out window 63 that takes a dump (R348). -/
def dumpWindow (w : BitVec 512) : Bool :=
  fld w 283 282 == 2 && fld w 338 331 == 0x0C && fld w 380 368 == 1 && fld w 367 355 == 256
/-- The tenant session whose window 63 takes the dumps of a partition. -/
def dumpSession (s : State) (p : Nat) : Option Nat :=
  (openSessions s (fun _ q => isTenantOf p q && dumpWindow (tget 0 q.wins 63))).head?
/-- The set of all owners of a charter. -/
def allOwners (ch : Charter) : Byte := BitVec.ofNat 8 (2 ^ chOwners ch.doc - 1)
/-- Whether a dump holds DATA records, and under which owner set (R348, R366). -/
def dumpData (s : State) (p : Nat) : Option Byte :=
  match (partOf s p).charter with
  | none => some 0
  | some ch =>
    if !ch.active then some 0 else
    match dumpSession s p with
    | some n => if fld (tget 0 (sessOf s n).wins 63) 285 284 = 2 && audience ch 3 (allOwners ch) then some (allOwners ch) else none
    | none => none

/-- One record as a tile (R348). -/
def dumpTile (s : State) (c : Nat) (owner : Byte) (n : Nat) (rec : Bytes) : Bytes :=
  let k := ctxOf s c
  let b := padTo 1024 rec
  let t : TileOut := {
    fmt := 0x0C, rows := 1, cols := 256, vrows := 1, vcols := 256, rowOrg := n, ctx := c, gen := k.gen.toNat, part := k.part.toNat,
    owner := owner, epoch := ctxEpoch s c, unit := 0xFFFF }
  hBytes (t.final (crc32c b)) ++ b
/-- What the dump reads of a unit (R347, R353): its state as it answers now; of one that does not answer, UNRESPONSIVE alone. The cores of a
context that a SAVE has taken off them are read in the save area. -/
def dumpRead (s : State) (c : Nat) (marks : List Nat) (u : Nat) : DumpRead :=
  let k := ctxOf s c
  if marks.contains u then { unit := u, status := BitVec.ofNat 16 (statusCode .unresponsive) }
  else if u < 2 ^ 16 then
    let i := u / 2 ^ 11
    if (coreOf s i).ctx == some c then { unit := u, core := some (coreOf s i), cache := cacheOf s i }
    else { unit := u, core := some (tget coreReset k.saved i), cache := tget [] k.savedOc i }
  else
    let n := u - 2 ^ 16
    if n < 0x100 then { unit := u, counts := [tget 0 s.hbm.linesW n, k.poisons] }
    else if n < 0x102 then { unit := u, counts := (List.range 16).map (fun i => linkCode (linkSt s (16 * (n - 0x100) + i))) }
    else if n = 0x200 then { unit := u, counts := [s.host.drops, s.host.orphans, s.host.pauseNs] }
    else { unit := u, context := some { k with dumpRec := [] } }
/-- The tiles of a dump: CONTROL for each unit, then DATA where it is admitted. -/
def dumpTiles (s : State) (c : Nat) (marks : List Nat) : List Bytes :=
  let us := (dumpUnits s c).map (dumpRead s c marks)
  let ctl := us.map (fun u => ((0 : Byte), Config.dumpControl u))
  let dat := match dumpData s (ctxOf s c).part.toNat with
    | some o => us.flatMap (fun u => (Config.dumpData u).map (fun b => (o, b)))
    | none => []
  let l := ctl ++ dat
  ((List.range l.length).zip l).map (fun x => dumpTile s c x.2.1 x.1 x.2.2)

/-- A kept dump goes out as a push (R320, R348) once a window takes it. -/
def dumpSend (c : Nat) (s : State) : State :=
  let k := ctxOf s c
  if k.dumpRec.isEmpty || s.bulk.any (fun e => e.2.dump && e.2.ctx == c) then s else
  match dumpSession s k.part.toNat with
  | none => s
  | some n =>
    if s.bulk.length ≥ 4096 then s else
    match (List.range 4097).find? (fun i => !(s.bulk.any (fun e => e.1 == bulkKey n (2 ^ 31 + i)))) with
    | none => s
    | some i =>
      let w := tget 0 (sessOf s n).wins 63
      let owner (b : Bytes) : Byte := hOwner (BitVec.ofNat 512 (natLE (b.take 64)))
      let r : Bulk := {
        sess := n, id := BitVec.ofNat 32 (2 ^ 31 + i), window := 63, copy := w, count := k.dumpRec.length, out := true, accept := now s, ctx := c, dump := true,
        srcs := k.dumpRec.map (fun b => (0, b.length)) }
      let key := bulkKey n (2 ^ 31 + i)
      let s := { s with bulk := tset s.bulk key r }
      if k.dumpRec.all (fun b => egressOk s k.part.toNat w (owner b)) then s else bulkEnd key .denied s

/-! ## Scrub between tenants (R349-R352) -/

/-- A scrub starts: SCRUB_STARTED, the partition's sessions close, every context is fenced and torn down. -/
def scrubStart (p : Nat) (s : State) : State :=
  let q := partOf s p
  let s := setPart s p { q with state := .scrubbing, scrubAt := now s, scrubPh := 0, scrubEsc := false, scrubRec := [], relReq := false }
  let s := { s with nvm := { s.nvm with scrubPend := tset s.nvm.scrubPend p (now s) } }
  let s := closeSessions (fun _ q => isTenantOf p q) (postDev 0x0031 (bytesBE 1 p) s)
  let s := snapEnd p .fenced s
  let s := (ctxsOf s p).foldl (fun s c => fenceStart c false (setCtx s c { ctxOf s c with switching := false, saveReq := false })) s
  resetAdvance p s

/-- A context whose teardown is complete becomes FREE; its ID keeps its generation (R87). -/
def ctxFree (c : Nat) (s : State) : State :=
  let k := ctxOf s c
  let s := ctxMove c .free .ok s
  let s := match k.killReq with | some r => respondLate r 0x0204 .ok [] s | none => s
  setCtx s c { contextReset with gen := k.gen }

/-- The scrub record (R351). -/
def scrubRecord (s : State) (p : Nat) : Bytes :=
  let q := partOf s p
  bytesLE 4 0x4B5A5352 ++ bytesLE 2 1 ++ bytesLE 1 p ++ bytesLE 1 (if q.scrubEsc then 1 else 0) ++ bytesLE 8 s.fuses.serial.toNat ++
    bytesLE 8 (tget q.scrubAt s.nvm.scrubPend p) ++ bytesLE 8 (q.scrubAt + 25000000) ++ bytesLE 24 (pSlices (active s) p) ++
    bytesLE 2 (pCores (active s) p) ++ bytesLE 2 0 ++ bytesLE 4 (tget 0 s.ledger.counters 10) ++ bytesLE 1 s.fuses.ownerEpoch ++ bytesLE 7 0

/-- A scrub's data line on the HBM pins (R349, R350): the ciphertext of zeros under a scrub key, the same whatever the slice held. The pins hold
one line, here the last data line of the slice. -/
def driveScrub (n : Nat) (s : State) : State :=
  let pa := n * 2 ^ 32 + dataArea - 64
  let c := encryptLine (bytesBE 128 (Config.freeValue (s.free - 1))) false pa 0 0
  { s with hbm := { s.hbm with wire := some (pa, c, sideBand c 0) } }
/-- Every line of the slices is written: data reads as zeros, counters and roots stand at zero, no poison is left. -/
def clearSlices (ns : List Nat) (s : State) : State :=
  let inS (pa : Nat) : Bool := pa < hbmEnd && ns.contains (sliceOf pa)
  let s := { s with
      mem := s.mem.filter (fun x => !(inS x.1)),
      hbm := { s.hbm with
        groups := tdrop (fun g => inS (g * 4096)) s.hbm.groups, poison := s.hbm.poison.filter (fun l => !(inS (l * 64))),
        nodes := tdrop (fun k => inS (k / 8)) s.hbm.nodes, roots := tdrop (fun k => ns.contains (k / 4)) s.hbm.roots,
        dirty := s.hbm.dirty.filter (fun a => !(inS a)), clean := s.hbm.clean.filter (fun a => !(inS a)), zotQ := s.hbm.zotQ.filter (fun w => !(inS w.base)) } }
  ns.foldl (fun s n => driveScrub n (ledgerAdd (15 + n / 16) 4194304 s)) (drawBytes 128 s).2

end Sys2Proof.Machine
end

