-- ==== Sys2Proof/Machine/BulkOps.lean ====
section
/-! DEFINITION. Bulk transfers (R314-R321): windows, their slots and tiles, what opening checks, chunks in and out. -/

namespace Sys2Proof.Machine

/-! ## Bulk windows (R314) -/

abbrev BulkWindow := BitVec 512
def bwVBase (w : BulkWindow) : Nat := fld w 511 464
def bwSlot (w : BulkWindow) : Nat := fld w 463 445 * 64
def bwRows (w : BulkWindow) : Nat := fld w 444 421
def bwCols (w : BulkWindow) : Nat := fld w 420 397
def bwSlabs (w : BulkWindow) : Nat := fld w 396 381
def bwTRows (w : BulkWindow) : Nat := fld w 380 368
def bwTCols (w : BulkWindow) : Nat := fld w 367 355
def bwTensor (w : BulkWindow) : Nat := fld w 354 339
def bwFmt (w : BulkWindow) : Nat := fld w 338 331
def bwSf (w : BulkWindow) : Nat := fld w 330 323
def bwZp (w : BulkWindow) : Nat := fld w 322 315
def bwMode (w : BulkWindow) : Nat := fld w 314 313
def bwSparse (w : BulkWindow) : Bool := bit w 312
def bwCtx (w : BulkWindow) : Nat := fld w 311 304
def bwGen (w : BulkWindow) : Nat := fld w 303 296
def bwKey (w : BulkWindow) : Nat := fld w 295 286
def bwKind (w : BulkWindow) : Nat := fld w 285 284
def bwDir (w : BulkWindow) : Nat := fld w 283 282
def bwBounded (w : BulkWindow) : Bool := bit w 281
def bwResv (w : BulkWindow) : Nat := fld w 280 273

def bwGr (w : BulkWindow) : Nat := ceilDiv (bwRows w) (natMax 1 (bwTRows w))
def bwGc (w : BulkWindow) : Nat := ceilDiv (bwCols w) (natMax 1 (bwTCols w))
def bwSlots (w : BulkWindow) : Nat := bwSlabs w * bwGr w * bwGc w
def bwSlotVa (w : BulkWindow) (i : Nat) : Nat := bwVBase w + i * bwSlot w
/-- Master of a window's transfers, and what its regions need (R233). -/
def bwMaster (w : BulkWindow) : Nat := if bwKind w = 0 then 0x48 else 0x49
def bwRights (w : BulkWindow) : List Nat := (if bwKind w = 0 then [rHOST] else []) ++ [if bwDir w = 2 then rREAD else rWRITE]
/-- The owner set a window's key gives (R89): the bit of the owner key, or none. -/
def bwOwner (w : BulkWindow) (p : Nat) : Byte := if bwKind w = 1 then BitVec.ofNat 8 (2 ^ (bwKey w - charterSlot p 0)) else 0

/-- The tile that slot i holds, with its origins and valid extents (R189), under the epoch its transfer latched (R93). -/
def bwTile (s : State) (w : BulkWindow) (epoch i : Nat) : TileOut :=
  let tr := i / natMax 1 (bwGc w) % natMax 1 (bwGr w)
  let tc := i % natMax 1 (bwGc w)
  let c := bwCtx w
  let p := (ctxOf s c).part.toNat
  { fmt := bwFmt w, sf := bwSf w, mode := bwMode w, zp := bwZp w, sparse := bwSparse w, ctx := c, gen := bwGen w, part := p,
    owner := bwOwner w p, tensor := bwTensor w, epoch := epoch, rowOrg := tr * bwTRows w, colOrg := tc * bwTCols w,
    slab := i / natMax 1 (bwGr w * bwGc w), rows := bwTRows w, cols := bwTCols w, vrows := natMin (bwTRows w) (bwRows w - tr * bwTRows w),
    vcols := natMin (bwTCols w) (bwCols w - tc * bwTCols w), unit := 0x0500 }
def bwPayload (w : BulkWindow) : Nat :=
  let g := geometry (bwFmt w) (bwSparse w) (bwMode w) (bwSf w) (bwTRows w) (bwTCols w)
  g.1 + g.2.1 + g.2.2

/-- An access to n bytes from a window's regions (R233): the operand-cache alias is no region. -/
def bulkAccess (s : State) (w : BulkWindow) (va n : Nat) : Status :=
  if isAlias va then .outOfRegion else accessCheck s (bwCtx w) (bwRights w) va n

/-- The checks of BULK_WINDOW_SET (R315), against the partition of the session. -/
def windowChecks (s : State) (p : Nat) (w : BulkWindow) : List Check :=
  let c := bwCtx w
  let k := ctxOf s c
  let live := k.state != .free
  let e := resvOf s p (bwResv w)
  let key := bwKey w
  let acc := (List.range (bwSlots w)).map (fun i => accessCheck s c [] (bwSlotVa w i) (bwSlot w))
  let ext (x w : Nat) : Bool := x == 0 || x == 2 ^ w - 1
  [ ⟨2, live && k.part.toNat != p, .denied⟩,
    ⟨2, bwKind w == 1 && (!(charterSlot p 0 ≤ key && key < charterSlot p 8) || (keyOf s key).isEmpty || bwDir w == 2), .denied⟩,
    ⟨2, bwKind w == 2 && (key != charterSlot p 9 || (keyOf s key).isEmpty || bwDir w == 1), .denied⟩,
    ⟨2, bwKind w == 0 && k.regions.any (fun x => regValid x.2 && !bit x.2 rHOST &&
        rangesMeet (bwVBase w) (bwSlots w * bwSlot w) (regVBase x.2) (regSize x.2)), .denied⟩,
    ⟨3, !live || k.gen.toNat != bwGen w, .staleGeneration⟩,
    ⟨4, (ctxUsual k.state).isSome, .fenced⟩,
    ⟨5, fld w 272 0 != 0 || bwKind w == 3 || bwDir w == 0 || bwDir w == 3 || (bwKind w == 0 && key != 0), .badDescriptor⟩,
    ⟨5, bwFmt w == 0x0B || bwFmt w == 0x11 || !formatOk (bwFmt w) (bwMode w) (bwSf w) (bwZp w) || (bwSparse w && bwTCols w % 4 != 0) || bwVBase w % 64 != 0, .badDescriptor⟩,
    ⟨5, bwBounded w && (!rValid e || rKind e != (if bwDir w = 2 then 3 else 2)), .badDescriptor⟩,
    ⟨6, ext (bwRows w) 24 || ext (bwCols w) 24 || ext (bwSlabs w) 16 || ext (bwTRows w) 13 || ext (bwTCols w) 13, .badLength⟩,
    ⟨6, bwTRows w > 4096 || bwTCols w > 4096 || bwPayload w > maxPayload || bwSlot w < footprint (bwPayload w), .badLength⟩,
    ⟨7, isAlias (bwVBase w) || acc.any (· == .outOfRegion), .outOfRegion⟩ ]

/-! ## Opening (R317-R319) -/

/-- The slots a transfer names. -/
def namedSlots (first count : Nat) : List Nat := (List.range count).map (first + ·)
/-- The header of a slot as an egress reads it. -/
def egressHdr (s : State) (w : BulkWindow) (i : Nat) : Hdr := if poisonV s (bwCtx w) (bwSlotVa w i) 64 then 0 else hdrV s (bwCtx w) (bwSlotVa w i)
/-- Checks 1-5 of R85 by the host port. -/
def egressOrder (s : State) (p : Nat) (w : BulkWindow) (h : Hdr) : Option (Nat × Status) :=
  hdrCheckUse (some (p, bwCtx w, (ctxOf s (bwCtx w)).gen.toNat)) hostFormat h
/-- The checks of an egress on a header (R319). -/
def egressCheck (s : State) (p : Nat) (w : BulkWindow) (h : Hdr) : Status :=
  match egressOrder s p w h with
  | some (_, st) => st
  | none => if hPois h then .poison else if !egressOk s p w (hOwner h) then .denied else .ok

/-- The egress of a slot: one whose header line is poisoned is refused with POISON (R95, R248). -/
def egressSlot (s : State) (p : Nat) (w : BulkWindow) (i : Nat) : Status :=
  if poisonV s (bwCtx w) (bwSlotVa w i) 64 then .poison else egressCheck s p w (egressHdr s w i)

/-- The checks of an open request on its session's window, before admission; a count of zero past the window is refused too (DESIGN
CHOICE, log entry 142). -/
def openChecks (s : State) (sess p : Nat) (out : Bool) (id win first count : Nat) : List Check :=
  let w := tget 0 (sessOf s sess).wins win
  let c := bwCtx w
  let k := ctxOf s c
  let e := resvOf s p (bwResv w)
  let fits := first + count ≤ bwSlots w
  -- the slots that lie in the window need their rights whatever the count (R15)
  let accs := (namedSlots first (natMin count (bwSlots w - first))).map (fun i => bulkAccess s w (bwSlotVa w i) (if out then 64 else footprint (bwPayload w)))
  let read := if out && fits && count < 2 ^ 24 - 1 && accs.all (· == .ok) then namedSlots first count else []
  let bad (st : Status) : Check := ⟨codeOrder st, st != .ok, st⟩
  [ ⟨3, win < 64 && (w == 0 || !ctxLive s c p || k.gen.toNat != bwGen w), .staleGeneration⟩,
    ⟨4, k.state != .active && k.state != .suspended, .fenced⟩,
    ⟨5, win ≥ 64 || nbit id 31 || (w != 0 && (bwDir w == 2) != out), .badDescriptor⟩,
    ⟨5, bwBounded w && (!rValid e || rKind e != (if out then 3 else 2)), .badDescriptor⟩,
    ⟨6, count == 0xFFFFFF, .badLength⟩,
    ⟨7, !fits, .outOfRegion⟩,
    ⟨8, s.bulk.any (fun x => x.1 == bulkKey sess id), .conflict⟩ ] ++
  accs.map bad ++ read.map (fun i => bad (bulkAccess s w (bwSlotVa w i) (footprint (hPayload (egressHdr s w i))))) ++
  read.map (fun i => let st := egressSlot s p w i; (⟨9, st != .ok, st⟩ : Check)) ++
  [ ⟨9, count != 0 && s.bulk.length ≥ 4096, .notAdmitted⟩,
    ⟨9, count != 0 && bwBounded w && !s.host.up, .notAdmitted⟩ ]

/-- The capture of an egress that checks 1-5 refuse (R83, R86): the host-port die is engine 5. -/
def egressRefused (s : State) (p : Nat) (w : BulkWindow) (va : Nat) (h : Hdr) (t : State) : State :=
  match egressOrder s p w h with
  | some (o, st) => headerRefused (bwCtx w) h o st { addr := translate s (bwCtx w) va, engine := 5 } t
  | none => t
/-- The capture of an open request that a header alone refuses: the first of the slots whose header fails. -/
def openRefused (s : State) (r : Req) (op : Nat) (lenOk : Bool) (cs : List Check) (p : Nat) (w : BulkWindow) (slots : List Nat) (t : State) :
    State :=
  let u := taken s r
  if !mailboxOpen s r || (sessOf s r.sess).busy.length ≥ 64 ||
     (firstFailure (headerChecks u r op .t lenOk ++ cs.filter (fun c => c.order < 9))).isSome then t else
  match slots.find? (fun i => egressSlot s p w i != .ok) with
  | some i => if poisonV s (bwCtx w) (bwSlotVa w i) 64 then t else egressRefused s p w (bwSlotVa w i) (egressHdr s w i) t
  | none => t
/-- BULK_IN_OPEN and BULK_OUT_OPEN. -/
def bulkOpen (out : Bool) (op : Nat) (r : Req) (body : Bytes) (s : State) : State :=
  let id := be body 0 4
  let win := be body 4 1
  let first := be body 5 3
  let count := be body 8 3
  let p := r.part.toNat
  let q := sessOf s r.sess
  let w := tget 0 q.wins win
  let cs := openChecks s r.sess p out id win first count
  let capt (t : State) : State := if out then openRefused s r op (lenIs r body 11) cs p w (if count = 0xFFFFFF then [] else namedSlots first count) t else t
  capt <| request s r op .t (lenIs r body 11) cs (fun s =>
    if count = 0 then respond r op .ok (bytesBE 8 (now s)) s else
    let slots := namedSlots first count
    let srcs := if out then slots.map (fun i => (bwSlotVa w i, 64 + hPayload (egressHdr s w i))) else []
    let fps := if out then (slots.map (fun i => footprint (hPayload (egressHdr s w i)))).sum else count * footprint (bwPayload w)
    match slots.filterMap (fun i => zotBlocks s (bwCtx w) (bwSlotVa w i) (bwSlot w)) with
    | t :: l => respondAt r op .deferred (l.foldl natMax t) [] s
    | [] =>
      let (a, s) := if bwBounded w then admitNow p (bwResv w) fps s else (Admit.accepted, s)
      match a with
      | .notAdmitted => respond r op .notAdmitted [] s
      | .deferred t => respondAt r op .deferred t [] s
      | .accepted =>
        let b : Bulk := {
          sess := r.sess, id := BitVec.ofNat 32 id, window := win, copy := w, first := first, count := count, out := out, bounded := bwBounded w,
          accept := now s, charged := fps, rateN := fillRate s (resvOf s p (bwResv w)), ctx := bwCtx w, srcs := srcs, resv := bwResv w,
          epoch := ctxEpoch s (bwCtx w), pauses := if out then pauseLeft s (if bwBounded w then 2 else 3) else 0 }
        respond r op .ok (bytesBE 8 (now s)) { s with bulk := tset s.bulk (bulkKey r.sess id) b })

/-! ## Sub-headers (R316) -/

def subId (h : BitVec 256) : Nat := fld h 255 224
def subWindow (h : BitVec 256) : Nat := fld h 223 216
def subSlot (h : BitVec 256) : Nat := fld h 215 192
def subOffset (h : BitVec 256) : Nat := fld h 191 168
def subLength (h : BitVec 256) : Nat := fld h 167 152
def mkSub (id win slot off len : Nat) (lastTile lastAll : Bool) : BitVec 256 :=
  BitVec.ofNat 256 (id * 2 ^ 224 + win * 2 ^ 216 + slot * 2 ^ 192 + off * 2 ^ 168 + len * 2 ^ 152 + lastTile.toNat * 2 ^ 151 + lastAll.toNat * 2 ^ 150)

/-- The key of a transfer's datagrams: of the session in its direction, or the window's owner or release key under the
session's salt. -/
def bulkCipherKey (s : State) (sess : Nat) (out : Bool) (w : BulkWindow) : Bytes × Bytes :=
  let k := keyOf s ((if out then 0x261 else 0x260) + 2 * sess)
  (if bwKind w = 0 then k.take 32 else (keyOf s (bwKey w)).take 32, slice k 32 4)

/-! ## Chunks in (R316-R318) -/

/-- ns by which the datagram that ends at byte e of the transfer is late. -/
def lateness (s : State) (b : Bulk) (e : Nat) : Nat :=
  if !b.bounded then 0 else ceilDiv ((now s - b.accept) * b.rateN - e * 10000000) (natMax 1 b.rateN)
/-- ns of the bound of R286 and R318. -/
def bulkBound (b : Bulk) : Nat := 4000 + ceilDiv (b.charged * 10000000) (natMax 1 b.rateN) + b.late + b.pauses
/-- A bounded transfer that ends now is late. -/
def bulkLate (s : State) (b : Bulk) : Bool := b.bounded && now s > b.accept + bulkBound b

/-- Bytes of one slot taken so far. -/
def takenOf (b : Bulk) (i : Nat) : Nat := ((b.seen.filter (fun x => x.1 == i)).map (fun x => x.2.2)).sum
/-- Padding of a tile with SPARSE_2_4 (R79): kept values that name padding become +0; whole padding groups and rows lose
their indices. -/
def padSparse (m : Mem) (t : TileOut) : Mem :=
  let h := t.raw 1 0
  (List.range t.rows).foldl (fun m r =>
    (List.range (t.cols / 2)).foldl (fun m v =>
      let blank := r ≥ t.vrows || 4 * (v / 2) ≥ t.vcols
      let idx := keptIndex m 0 h r v
      let m := if blank || 4 * (v / 2) + idx ≥ t.vcols then memSetBits m 64 (elemOff t.fmt (t.cols / 2) r v) (fmtBits t.fmt) (zeroCode t.fmt t.zp) else m
      if blank then memSetBits m (64 + t.lens.1) (r * metaStride t.cols * 8 + 2 * v) 2 0 else m) m) m
/-- The payload as the die writes it: padding elements and scales as R79 prescribes. -/
def padded (t : TileOut) (payload : Bytes) : Bytes :=
  let m := mwrite [] 64 payload
  let m := if t.sparse then (paddingScales t).foldl (fun m e => putScale m 0 t e.1 e.2 (oneScale t.sf)) (padSparse m t) else putPadding m 0 t
  mread m 64 t.payload

/-- A chunk of a host-in transfer is in its buffer: it is written, and a whole tile gets its padding and its final header.
The Bool says that the chunk is dealt with: it is not where its write stalls on push-ahead. -/
def chunkIn (key : Nat) (b : Bulk) (sub : BitVec 256) (chunk : Bytes) (s : State) : State × Bool :=
  let w := b.copy
  let i := subSlot sub
  let va := bwSlotVa w i
  let t := bwTile s w b.epoch i
  let m := bwMaster w
  let c := bwCtx w
  match bulkAccess s w va (footprint t.payload) with
  | .ok =>
    (match interceptV c va (footprint t.payload) s with
    | (s, false) => (s, false)
    | (s, true) =>
      let begin : State × Status := if takenOf b i = 0 then putVirtual m c va (hBytes (t.raw 0 0)) s else (s, .ok)
      let wrote : State × Status := match begin with
        | (s, .ok) => putVirtual m c (va + 64 + subOffset sub) chunk s
        | x => x
      match wrote with
      | (s, .ok) =>
        let b := { b with seen := b.seen ++ [(i, subOffset sub, chunk.length)] }
        if takenOf b i < t.payload then ({ s with bulk := tset s.bulk key b }, true) else
        let body := padded t (vread { s with mem := settledMem s } c (va + 64) t.payload)
        let done : State × Status := match putVirtual m c (va + 64) body s with
          | (s, .ok) => putVirtual m c va (hBytes (t.final (crc32c body))) s
          | x => x
        (match done with
        | (s, .ok) =>
          let b := { b with done := b.done ++ [i] }
          let s := { s with bulk := tset s.bulk key b }
          if b.done.length < b.count then (s, true)
          else if bulkLate s b then
            let p := (ctxOf s c).part.toNat
            (bulkEnd key .late (setPart s p { partOf s p with lateCnt := (partOf s p).lateCnt + 1 }), true)
          else (bulkEnd key .ok s, true)
        | (s, st) => (bulkEnd key st s, true))
      | (s, st) => (bulkEnd key st s, true))
  | st => (bulkEnd key st s, true)

/-- The accepted transfer a chunk belongs to, and the chunk lies inside its tile and repeats nothing taken. -/
def chunkFits (s : State) (sess : Nat) (sub : BitVec 256) (len : Nat) : Option (Nat × Bulk) :=
  match s.bulk.find? (fun x => x.1 == bulkKey sess (subId sub)) with
  | none => none
  | some (key, b) =>
    let w := b.copy
    let i := subSlot sub
    let o := subOffset sub
    let n := bwPayload w
    if b.out || b.window != subWindow sub || !(b.first ≤ i && i < b.first + b.count) || fld sub 149 0 != 0 || len = 0 || len != subLength sub || len > 8192 ||
       o + len > n || o % 64 != 0 || (len % 64 != 0 && o + len != n) || bit sub 151 != (o + len == n) ||
       b.seen.any (fun x => x.1 == i && rangesMeet o len x.2.1 x.2.2)
    then none else some (key, b)

/-- The receive buffer of the unbounded class: what it holds, and the PFC pause frame that its fill calls for (R296). -/
def heldBytes (s : State) : Nat :=
  ((s.host.held.filter (fun x => match s.bulk.find? (fun e => e.1 == bulkKey x.1 (subId x.2.1)) with | some (_, b) => !b.bounded | none => true)).map (fun x => x.2.2.length)).sum
def pfcCheck (s : State) : State :=
  let n := heldBytes s
  if !s.host.pfcSent && n * 4 > 3 * 8 * 2 ^ 20 then
    emit { s with host := { s.host with pfcSent := true } } (.eth 5 [BitVec.ofNat 8 (2 ^ pcp s 3), 0xFF, 0xFF])
  else if s.host.pfcSent && n * 2 < 8 * 2 ^ 20 then
    emit { s with host := { s.host with pfcSent := false } } (.eth 5 [BitVec.ofNat 8 (2 ^ pcp s 3), 0, 0])
  else s
/-- Chunks whose write stalled are tried again, in order; one whose transfer ended is dropped. -/
def drainHeld (s : State) : State :=
  let l := s.host.held
  if l.isEmpty then s else
  pfcCheck (l.foldl (fun s x =>
    match chunkFits s x.1 x.2.1 x.2.2.length with
    | none => s
    | some (key, b) =>
      match chunkIn key b x.2.1 x.2.2 s with
      | (s, true) => s
      | (s, false) => { s with host := { s.host with held := s.host.held ++ [x] } }) { s with host := { s.host with held := [] } })

/-! ## Chunks out (R319, R321) -/

/-- Bytes [off, off + n) of tile i of an out transfer. -/
def outBytes (s : State) (b : Bulk) (i off n : Nat) : Bytes :=
  if b.dump then slice ((ctxOf s b.ctx).dumpRec.getD i []) off n else vread s b.ctx ((b.srcs.getD i (0, 0)).1 + off) n
def outPoison (s : State) (b : Bulk) (i off n : Nat) : Bool := !b.dump && poisonV s b.ctx ((b.srcs.getD i (0, 0)).1 + off) n
/-- The header of tile i as it stands now, and as the tile's first chunk found it. -/
def outHdr (s : State) (b : Bulk) (i : Nat) : Hdr := BitVec.ofNat 512 (natLE (outBytes s b i 0 64))
def outHead (s : State) (b : Bulk) : Hdr := if b.off = 0 then outHdr s b b.slot else b.hdr
/-- Bytes of the tile being sent: header and payload. -/
def outLen (s : State) (b : Bulk) : Nat := 64 + hPayload (outHead s b)
/-- The bytes of the tile sent with the next n. -/
def outText (s : State) (b : Bulk) (n : Nat) : Bytes := (if b.off = 0 then [] else b.text) ++ outBytes s b b.slot b.off n
/-- PAYLOAD_CRC verifies over the bytes as they were sent (R96). -/
def outCrcOk (s : State) (b : Bulk) (n : Nat) : Bool := crc32c ((outText s b n).drop 64) == hPayCrc (outHead s b)
/-- What keeps the next n bytes from leaving: at a tile's first chunk its header is judged once more, and later a header that was
rewritten meanwhile stops the tile (R90, R96, DEDUCED, log entry 123). -/
def outStop (s : State) (b : Bulk) (n : Nat) : Status :=
  let p := (ctxOf s b.ctx).part.toNat
  if outPoison s b b.slot b.off n then .poison
  else if b.off = 0 then (if b.dump then .ok else egressCheck s p b.copy (outHead s b))
  else if outHdr s b b.slot != b.hdr then .checksumFail else .ok

/-- The next chunk of an out transfer leaves; a tile's last is held until PAYLOAD_CRC has verified (R319). -/
def chunkOut (key : Nat) (b : Bulk) (s : State) : State :=
  let q := sessOf s b.sess
  let p := (ctxOf s b.ctx).part.toNat
  let n := natMin (natMax 64 (chunkSize s q)) (outLen s b - b.off)
  let last := b.off + n == outLen s b
  match outStop s b n with
  | .ok =>
    if last && !outCrcOk s b n then bulkEnd key .checksumFail s else
    let all := last && b.slot + 1 == b.count
    let sub := mkSub b.id.toNat b.window (b.first + b.slot) b.off n last all
    let late := all && bulkLate s b
    let b' := { b with slot := if last then b.slot + 1 else b.slot, off := if last then 0 else b.off + n, sentAll := all, hdr := outHead s b,
                       text := if last then [] else outText s b n, status := if late then some .late else b.status }
    let s := if late then setPart s p { partOf s p with lateCnt := (partOf s p).lateCnt + 1 } else s
    sendChunk b.sess (.bulk key) (bulkCipherKey s b.sess true b.copy) sub (outBytes s b b.slot b.off n) { s with bulk := tset s.bulk key b' }
  | st => bulkEnd key st (if b.off = 0 && !b.dump then egressRefused s p b.copy (b.srcs.getD b.slot (0, 0)).1 (outHead s b) s else s)

end Sys2Proof.Machine
end

