-- ==== Sys2Proof/Machine/Contexts.lean ====
section
/-! DEFINITION. Contexts (R336-R343, R425): rows CONTEXT_CREATE to CONTEXT_SCRUB_DONE, time slicing, watchdogs and dumps,
CAPTURE_READ and COUNTERS_READ. -/

namespace Sys2Proof.Machine

/-! ## Creation, loading, start -/

/-- The lowest FREE context ID. -/
def freeContext (s : State) : Option Nat := (List.range 256).find? (fun c => (ctxOf s c).state == .free)
/-- Bytes of a save area: the allocation plus 2 MiB for each core (R339). -/
def saveArea (mask alloc : Nat) : Nat := 2 * popcount 16 mask * (alloc + 2) * 2 ^ 20
/-- Bytes of the firmware-private areas of a context (R426): its save area, its mark ring of 4,096 records and report store of 65,536, of 32
bytes each (R221, R368), and its dump store, whose size is the model's: what a SAVE stores, and 1 MiB (DESIGN CHOICE, log entry 76). -/
def privateArea (mask alloc : Nat) : Nat := saveArea mask alloc + 32 * (4096 + 65536) + (saveArea mask alloc + 2 ^ 20)

/-- CONTEXT_CREATE (R337, R362). -/
def execContextCreate (r : Req) (body : Bytes) (s : State) : Out := arrives (.contextCreate r body) r s fun s =>
  let mask := be body 0 2
  let alloc := be body 2 1
  let p := r.part.toNat
  let q := partOf s p
  let held := (ctxsOf s p).length
  let area := placeArea s p (privateArea mask alloc)
  .next (request s r 0x0200 .t (lenIs r body 3)
    [ ⟨2, (List.range 16).any (fun i => nbit mask i && !nbit (pCores (active s) p) i), .denied⟩,
      ⟨4, q.state == .resetting || q.state == .scrubbing, .fenced⟩,
      ⟨5, mask == 0 || alloc > 32, .badDescriptor⟩,
      ⟨9, held ≥ pQuota (active s) p || (q.state == .charter && held ≥ 1) || (freeContext s).isNone || area.isNone, .notAdmitted⟩ ]
    (fun s =>
      match freeContext s, area with
      | some c, some l =>
        let old := ctxOf s c
        let gen : BitVec 8 := if old.gen = 255 then 1 else old.gen + 1
        let k : Context := { contextReset with gen := gen, part := r.part, pairs := BitVec.ofNat 16 mask, ocMib := alloc, areas := l }
        let s := l.foldl (fun s a => forget a.1 a.2 s) (setCtx s c k)
        let s := ctxMove c .creating .ok (freshKey (0x020 + c) s)
        respond { r with ctx := BitVec.ofNat 8 c, gen := gen } 0x0200 .ok [] (buddyWindows p s)
      | _, _ => s))

/-- CONTEXT_LOAD by state (R338). -/
def ctxLoads : CtxState → Option (Nat × Status)
  | .free => none | .creating => none
  | .active => some (8, .conflict) | .suspended => some (8, .conflict)
  | _ => some (4, .fenced)

/-- CONTEXT_LOAD (R425, R362): the image is copied, and the program stores and scratch of the context's idle cores are
written. -/
def execContextLoad (r : Req) (body : Bytes) (s : State) : Out := arrives (.contextLoad r body) r s fun s =>
  let va := be body 0 8
  let len := be body 8 4
  let c := r.ctx.toNat
  let k := ctxOf s c
  let p := r.part.toNat
  let ok := len != 0 && len != 0xFFFFFFFF && !isAlias va && accessCheck s c [rREAD] va len == .ok
  let named := ctxLive s c p && k.gen == r.gen
  let img := if ok && named then vread s c va len else []
  .next (request s r 0x0201 .t (lenIs r body 12)
    (ctxChecks s r ctxLoads ++
    [ ⟨2, ok && named && (match (partOf s p).charter with
        | some ch => (partOf s p).state == .charter && digestBytes (Config.sha512 img) != chProgram ch.doc
        | none => false), .denied⟩,
      ⟨5, ok && imgMalformed k img, .badDescriptor⟩,
      ⟨6, len == 0xFFFFFFFF || (ok && imgBadLength img len), .badLength⟩,
      ⟨7, len != 0 && !ok, .outOfRegion⟩,
      ⟨9, ok && poisonV s c va len, .poison⟩ ])
    (fun s =>
      if len = 0 then respond r 0x0201 .ok [] s else
      let s := setCtx s c { ctxOf s c with image := img, loaded := true }
      let idle := (ctxCores (ctxOf s c)).all (fun i => (coreOf s i).ctx.isNone || (coreOf s i).ctx == some c)
      respond r 0x0201 .ok [] (if idle then installCores c false s else s)))

/-- CONTEXT_START by state (R338): in FENCED only after a fence with save. -/
def ctxStarts (k : Context) : CtxState → Option (Nat × Status)
  | .free => none
  | .creating => if k.loaded then none else some (8, .conflict)
  | .active => some (8, .conflict) | .suspended => some (8, .conflict)
  | .fenced => if !k.saveReq then some (4, .fenced) else if k.saved.isEmpty && !k.loaded then some (8, .conflict) else none
  | _ => some (4, .fenced)

/-- CONTEXT_START (R425, R339, R362): the context's grain cores start, or resume from their saved state; where a rival holds
its cores it waits as SUSPENDED for its turn. -/
def execContextStart (r : Req) (body : Bytes) (s : State) : Out := arrives (.contextStart r body) r s fun s =>
  let c := r.ctx.toNat
  let k := ctxOf s c
  let p := r.part.toNat
  .next (request s r 0x0202 .t (lenIs r body 0)
    (ctxChecks s r (ctxStarts k) ++
    [ ⟨2, (match (partOf s p).charter with
        | some ch => (partOf s p).state == .charter && chBanks ch.doc && ctxLive s c p && !banksCovered s c ch
        | none => false), .denied⟩,
      ⟨4, (partOf s p).state == .resetting, .fenced⟩ ])
    (fun s =>
      let fresh := k.saved.isEmpty
      let busy := coresBusy s c
      let s := ctxMove c .active .ok (setCtx s c { ctxOf s c with saveReq := false, switching := false })
      let s : State :=
        if busy then
          let s := if fresh then parkCores c s else s
          setCtx s c { ctxOf s c with state := .suspended }
        else if fresh then installCores c true s
        else restoreCores c s
      respond r 0x0202 .ok [] s))

/-! ## Fences and destruction -/

/-- CONTEXT_FENCE (R341): answered once the context is FENCED. -/
def execContextFence (r : Req) (body : Bytes) (s : State) : Out := arrives (.contextFence r body) r s fun s =>
  let save := be body 0 1
  let c := r.ctx.toNat
  .next (request s r 0x0203 .t (lenIs r body 1) (ctxChecks s r ctxUsual ++ [⟨5, save > 1, .badDescriptor⟩])
    (fun s => fenceStart c (save == 1) (setBusy r 0x0203 (setCtx s c { ctxOf s c with fenceReq := some r }))))

/-- FENCE_CONFIRMED (R341): every unit has confirmed; with save, once the state is in the save area. The context becomes
FENCED, and is torn down where its destruction, a partition reset or a scrub waits for that. -/
def execFenceConfirmed (ctx : BitVec 8) (s : State) : Out :=
  let c := ctx.toNat
  let k := ctxOf s c
  if k.state != .fencing || (k.saveReq && !(runningCores s c).isEmpty) then .next s else
  let s := if k.saveReq then s else (runningCores s c).foldl (fun s i => clearCore i s) s
  let s := ctxMove c .fenced .ok (setCtx s c { ctxOf s c with switching := false, incoming := false })
  let s := match k.fenceReq with
    | some r => respondLate r 0x0203 .ok [] (setCtx s c { ctxOf s c with fenceReq := none })
    | none => s
  let q := partOf s k.part.toNat
  if k.killReq.isSome || q.state == .resetting || q.state == .scrubbing then .next (tearDown c s) else .next s

/-- FENCE_LIMIT (R342): at 2 ms the device resets the context's partition. -/
def execFenceLimit (ctx : BitVec 8) (s : State) : Out :=
  let k := ctxOf s ctx.toNat
  if k.state == .fencing then .next (resetPartition k.part.toNat 1 s) else .next s

/-- PARTITION_RESET_LIMIT (R342): a unit has not confirmed by 2 ms: device reset. -/
def execPartitionResetLimit (part : BitVec 4) (s : State) : Out :=
  let p := part.toNat
  if (partOf s p).state == .resetting && (ctxsOf s p).any (fun c => (ctxOf s c).state == .fencing) then .next (deviceReset s) else .next s

/-- CONTEXT_DESTROY (R338, R343): a context that is not FENCED is fenced first; answered once it is FREE. -/
def execContextDestroy (r : Req) (body : Bytes) (s : State) : Out := arrives (.contextDestroy r body) r s fun s =>
  let c := r.ctx.toNat
  .next (request s r 0x0204 .t (lenIs r body 0)
    (ctxChecks s r ctxReads ++ [⟨8, ctxLive s c r.part.toNat && (ctxOf s c).killReq.isSome, .conflict⟩])
    (fun s =>
      let s := setBusy r 0x0204 (setCtx s c { ctxOf s c with killReq := some r })
      if (ctxOf s c).state == .fenced then tearDown c s
      else fenceStart c false s))

/-- CONTEXT_SCRUB_DONE (R343): what the teardown has left to do is done, and the context is FREE. The last of a resetting partition completes the reset, and a release
that waited starts its scrub (R342, R353). -/
def execContextScrubDone (ctx : BitVec 8) (s : State) : Out :=
  let c := ctx.toNat
  let k := ctxOf s c
  if k.state != .scrubbing && k.state != .tearing then .next s else
  let p := k.part.toNat
  let s := ctxFree c (tearRest c s)
  if (partOf s p).state == .resetting && (ctxsOf s p).isEmpty then
    let wait := (partOf s p).relReq
    let s := resetFinish p s
    .next (if wait then scrubStart p s else s)
  else .next s

/-! ## Time slicing (R340) -/

/-- The SUSPENDED context whose turn is next after c among those that share a core pair with it. -/
def nextRival (s : State) (c : Nat) : Option Nat :=
  ((List.range 255).map (fun i => (c + 1 + i) % 256)).find? (fun d => (ctxOf s d).state == .suspended && shares s c d)

/-- QUANTUM_EXPIRY (R340): SAVE is asked of the context that runs on the core, and of every other context that runs on a core
of the incoming one. A context without a rival is not switched. -/
def execQuantumExpiry (core : BitVec 5) (s : State) : Out :=
  if !isReady s then .next s else
  match (coreOf s core.toNat).ctx with
  | none => .next s
  | some c =>
    if (ctxOf s c).state != .active || (ctxOf s c).switching then .next s else
    match nextRival s c with
    | none => .next s
    | some d =>
      let out := (List.range 256).filter (fun x => (ctxOf s x).state == .active && shares s x d)
      let s := out.foldl (fun s x => setCtx s x { ctxOf s x with switching := true, pushDelay := 0 }) s
      .next (setCtx s d { ctxOf s d with incoming := true })

/-- CONTEXT_SAVE_DONE (R340, R341, R353): state and operand cache are written, and the cores are free. In a switch the context
becomes SUSPENDED; in a fence with save it stays FENCING until every unit has confirmed. -/
def execContextSaveDone (ctx : BitVec 8) (s : State) : Out :=
  let c := ctx.toNat
  let k := ctxOf s c
  let cores := runningCores s c
  let asked := (k.state == .active && k.switching) || (k.state == .fencing && k.saveReq)
  if !asked || cores.isEmpty || !(cores.all (coreSaved s)) then .next s else
  let s := saveCores c s
  if k.state == .active then .next (setCtx s c { ctxOf s c with state := .suspended, switching := false }) else .next s

/-- CONTEXT_RESTORE_DONE (R340): programs, state and operand cache of a SUSPENDED context whose cores are free are restored;
it becomes ACTIVE. -/
def execContextRestoreDone (ctx : BitVec 8) (s : State) : Out :=
  let c := ctx.toNat
  let k := ctxOf s c
  let free := (ctxCores k).all (fun i => (coreOf s i).ctx.isNone)
  let other := s.ctxs.any (fun e => e.2.incoming && e.2.state == .suspended && shares s c e.1)
  if !isReady s || k.state != .suspended || !free || (other && !k.incoming) then .next s else
  let s := restoreCores c s
  .next (setCtx s c { ctxOf s c with state := .active })

/-! ## Watchdogs and dumps (R345-R348); a unit is kind × 2^16 + core × 2^8 + number -/

/-- A dump of the context is being taken. -/
def dumpRuns (k : Context) : Bool :=
  k.dump.isSome && (k.state == .active || k.state == .suspended || k.state == .fencing || k.state == .fenced)
/-- WATCHDOG_EXPIRY (R345, R346): WATCHDOG goes to the partition queue and the device-wide queue, and a dump starts; one that is being taken
answers this watchdog too. -/
def execWatchdogExpiry (ctx : BitVec 8) (unit : Nat) (s : State) : Out :=
  let c := ctx.toNat
  let k := ctxOf s c
  let kind := unit / 65536
  let core := unit / 256 % 256
  let n := unit % 256
  if !isReady s || k.state != .active || core ≥ 32 || (coreOf s core).ctx != some c || !unitWorks s core kind n then .next s else
  let num := if dumpRuns k then k.dumps else k.dumps + 1
  let body := bytesBE 1 kind ++ bytesBE 1 core ++ bytesBE 1 n ++ [0] ++ bytesBE 4 (watchdogMs s (kind - 1)) ++ bytesBE 4 (ctxEpoch s c) ++
    bytesBE 1 (unitTag s core kind n) ++ [0, 0, 0] ++ bytesBE 4 num
  let s := postDev 0x0023 body (postPart k.part.toNat 0x0023 c body s)
  .next (if dumpRuns k then s else setCtx s c { ctxOf s c with dumps := num, dump := some (num, []), wdUnit := unit })

/-- DUMP_UNIT_TIMEOUT (R347): a unit that has not answered in 100 µs is recorded as UNRESPONSIVE. -/
def execDumpUnitTimeout (ctx : BitVec 8) (unit : Nat) (s : State) : Out :=
  let c := ctx.toNat
  let k := ctxOf s c
  match k.dump with
  | some (n, marks) =>
    if dumpRuns k && (dumpUnits s c).contains unit && !marks.contains unit then
      .next (setCtx s c { k with dump := some (n, marks ++ [unit]) })
    else .next s
  | none => .next s

/-- DUMP_DONE (R346-R348): the operator's log receives the unit list and its marks; the dump replaces the one kept, a fence
without save follows, and it goes out where a window takes it. -/
def execDumpDone (ctx : BitVec 8) (s : State) : Out :=
  let c := ctx.toNat
  let k := ctxOf s c
  match k.dump with
  | none => .next s
  | some (_, marks) =>
    if !dumpRuns k then .next s else
    let tiles := dumpTiles s c marks
    let s := (dumpUnits s c).foldl (fun s u =>
      faultLog (0x0010 + u / 65536) (u % 65536) (if marks.contains u then 0x0801 else 0) k.part.toNat s) s
    -- a push of the dump before it ends with the fence, or here: its tiles are replaced
    let s := bulkEndAll (fun b => b.dump && b.ctx == c) .fenced (fenceStart c false s)
    .next (dumpSend c (setCtx s c { ctxOf s c with dump := none, dumpRec := tiles }))

/-! ## Records of a context (R313) -/

/-- CAPTURE_READ (R169, R313): the record of a cause; the clear flag makes it a read-and-clear. -/
def execCaptureRead (r : Req) (body : Bytes) (s : State) : Out := arrives (.captureRead r body) r s fun s =>
  let cause := be body 0 1
  let clear := be body 1 1
  let c := r.ctx.toNat
  .next (request s r 0x0240 .t (lenIs r body 2) (ctxChecks s r ctxReads ++ [⟨5, clear > 1, .badDescriptor⟩])
    (fun s =>
      let k := ctxOf s c
      let old := tget 0 k.capt cause
      let s := if clear = 1 then setCtx s c { k with capt := tdrop (· == cause) k.capt }
        else if fld old 383 376 = 0 then s else setCtx s c { k with capt := tset k.capt cause (setFld old 351 336 0) }
      respond r 0x0240 .ok (bytesBE 48 (tget 0 k.capt cause).toNat) s))

/-- COUNTERS_READ (R120, R313). -/
def execCountersRead (r : Req) (body : Bytes) (s : State) : Out := arrives (.countersRead r body) r s fun s =>
  let c := r.ctx.toNat
  .next (request s r 0x0241 .t (lenIs r body 0) (ctxChecks s r ctxReads)
    (fun s =>
      let k := ctxOf s c
      let (n, s) := draw s
      respond r 0x0241 .ok ((List.range 13).flatMap (fun b => bytesBE 6 (tget 0 k.exc b)) ++ Config.perfCounters c n) s))

end Sys2Proof.Machine
end

