-- ==== Sys2Proof/Machine/Partitions.lean ====
section
/-! DEFINITION. Partitions (R326-R329, R349-R352), region entries (R231), receive windows (R280), paths a tenant opens (R269),
bulk windows and opens (R315, R318), and PEER_LOST (R290). -/

namespace Sys2Proof.Machine

/-! ## Regions (R231) -/

/-- Virtual ranges that validated, incomplete requests of a context name: running tile-mover descriptors and bulk transfers. -/
def namedRanges (s : State) (c : Nat) : List (Nat × Nat) :=
  let cores := (runningCores s c).map (coreOf s) ++ (ctxOf s c).saved.map (·.2)
  let runs := cores.flatMap (fun k => k.movers.filterMap (fun e => e.2.run))
  runs.flatMap (fun u => if u.status.isSome && u.adds.isEmpty then [] else u.srcs ++ u.dsts) ++
  s.bulk.flatMap (fun e => if e.2.ctx != c || e.2.dump then [] else
    if e.2.out then e.2.srcs
    else (namedSlots e.2.first e.2.count).map (fun i => (bwSlotVa e.2.copy i, footprint (bwPayload e.2.copy))))
/-- A request names the entry. -/
def entryNamed (s : State) (c i : Nat) : Bool :=
  let e := tget 0 (ctxOf s c).regions i
  regValid e && (namedRanges s c).any (fun r => rangesMeet r.1 r.2 (regVBase e) (regSize e))
def regGranules (e : BitVec 128) : Nat := fld e 73 55
def regClass (e : BitVec 128) : Nat := fld e 44 43
/-- Offset of a range's end in its slice, and whether the range touches a slice's metadata area. -/
def metaTouched (s : State) (p pa n : Nat) : Bool :=
  (slicesIn pa n).any (fun k => sealedEnable (active s) p k && rangesMeet pa n (k * 2 ^ 32 + dataArea) (2 ^ 32 - dataArea))

/-- The checks of an entry write with VALID = 1 and granules (R231, R232, R234). -/
def regionChecks (s : State) (c p i : Nat) (e : BitVec 128) : List Check :=
  let k := ctxOf s c
  let pa := regPBase e
  let n := regSize e
  let sl := slicesIn pa n
  let own := regSlot e == 0x020 + c || (regSlot e == 0x010 + p && bit e rPRIV)
  let virt := k.regions.any (fun x => x.1 != i && regValid x.2 && rangesMeet (regVBase e) n (regVBase x.2) (regSize x.2))
  let phys := s.ctxs.any (fun x => x.2.state != .free && x.2.part.toNat == p && x.2.regions.any (fun y =>
      !(x.1 == c && y.1 == i) && regValid y.2 && rangesMeet pa n (regPBase y.2) (regSize y.2) && (regSlot y.2 != regSlot e || regClass y.2 != regClass e)))
  let fw := s.ctxs.any (fun x => x.2.state != .free && x.2.part.toNat == p && x.2.areas.any (fun a => rangesMeet pa n a.1 a.2)) ||
      (partOf s p).snap.areas.any (fun a => rangesMeet pa n a.1 a.2)
  [ ⟨2, pa + n > hbmEnd || sl.any (fun j => !nbit (pSlices (active s) p) j), .denied⟩,
    ⟨2, !own || (bit e rPRIV && (bit e rHOST || bit e rDEBUG)), .denied⟩,
    ⟨2, (partOf s p).charter.isSome && regSealed e && (bit e rHOST || bit e rDEBUG), .denied⟩,
    ⟨5, regClass e == 0 || regClass e == 3, .badDescriptor⟩,
    ⟨5, regSealed e && !(sl.length == 1 && sl.all (fun j => sealedEnable (active s) p j) && pa % 2 ^ 32 + n ≤ dataArea), .badDescriptor⟩,
    ⟨5, regClass e == 2 && metaTouched s p pa n, .badDescriptor⟩,
    ⟨5, regVBase e + n > aliasBase, .badDescriptor⟩,
    ⟨6, regGranules e == 2 ^ 19 - 1 || regGranules e > 393216, .badLength⟩,
    ⟨8, virt || phys || fw, .conflict⟩ ]

/-- REGION_SET (R231, R337): the entry starts with ZOT set and its work queued; VALID = 0 clears it; VALID = 1
without a granule is judged by its index and its reserved fields, and changes nothing. -/
def execRegionSet (r : Req) (body : Bytes) (s : State) : Out := arrives (.regionSet r body) r s fun s =>
  let i := be body 0 2
  let e : BitVec 128 := BitVec.ofNat 128 (be body 2 16)
  let c := r.ctx.toNat
  let valid := bit e 0
  .next (request s r 0x0210 .t (lenIs r body 18)
    (ctxChecks s r ctxUsual ++ [⟨5, i ≥ 1024 || fld e 35 1 != 0, .badDescriptor⟩] ++
     (if valid && regGranules e != 0 then regionChecks s c r.part.toNat i e else []) ++
     [⟨8, !(valid && regGranules e == 0) && i < 1024 && entryNamed s c i, .conflict⟩])
    (fun s =>
      let k := ctxOf s c
      let s : State :=
        if !valid then setCtx s c { k with regions := tdrop (· == i) k.regions }
        else if regGranules e = 0 then s
        else zotStart c i e s
      respond r 0x0210 .ok [] s))

/-- REGION_CLEAR (R231). -/
def execRegionClear (r : Req) (body : Bytes) (s : State) : Out := arrives (.regionClear r body) r s fun s =>
  let i := be body 0 2
  let c := r.ctx.toNat
  .next (request s r 0x0211 .t (lenIs r body 2)
    (ctxChecks s r ctxUsual ++ [⟨5, i ≥ 1024, .badDescriptor⟩, ⟨8, i < 1024 && entryNamed s c i, .conflict⟩])
    (fun s => respond r 0x0211 .ok [] (setCtx s c { ctxOf s c with regions := tdrop (· == i) (ctxOf s c).regions })))

/-! ## Receive windows (R280) -/

/-- WINDOW_SET: the window binds to a live context of the partition at its current generation, and lies in its regions with
the rights of its mode. -/
def execWindowSet (r : Req) (body : Bytes) (s : State) : Out := arrives (.windowSet r body) r s fun s =>
  let i := be body 0 1
  let w : RecvWindow := BitVec.ofNat 256 (be body 1 32)
  let p := r.part.toNat
  let c := winCtx w
  let k := ctxOf s c
  let acc := accessCheck s c [if wReduce w then rATOMIC else rWRITE] (wVBase w) (wSize w)
  let nacc := if wNotify w = 0 then Status.ok else accessCheck s c [rATOMIC] (wNotify w) 64
  let buddy := match (partOf s p).charter with | some ch => chMirror ch.doc | none => false
  .next (request s r 0x0220 .t (lenIs r body 33)
    [ ⟨3, !ctxLive s c p || k.gen.toNat != winGen w, .staleGeneration⟩,
      ⟨4, (ctxUsual k.state).isSome, .fenced⟩,
      ⟨5, i ≥ 64 || fld w 79 0 != 0 || fld w 162 161 ≥ 2 || wVBase w % 64 != 0 || wNotify w % 64 != 0, .badDescriptor⟩,
      ⟨6, fld w 207 179 == 0 || fld w 207 179 == 2 ^ 29 - 1, .badLength⟩,
      ⟨7, isAlias (wVBase w) || acc == .outOfRegion || nacc == .outOfRegion, .outOfRegion⟩,
      ⟨2, ctxLive s c p && (acc == .denied || nacc == .denied), .denied⟩,
      ⟨8, buddy && (i == 62 || i == 63), .conflict⟩ ]
    (fun s => respond r 0x0220 .ok [] (setPart s p { partOf s p with windows := tset (partOf s p).windows i w })))

/-! ## Paths (R269, R278, R422) -/

/-- The lowest PATH of a die without an entry. -/
def freePath (s : State) (die : Nat) : Option Nat := ((List.range 4095).map (· + 1)).find? (fun n => !eValid (entryOf s (pathKey die n)))

/-- PATH_OPEN (R269): the entry is written, the reservation charged, and the handshake starts; answered when it ends. -/
def execPathOpen (r : Req) (body : Bytes) (s : State) : Out := arrives (.pathOpen r body) r s fun s =>
  let die := be body 0 1
  let far := be body 1 8
  let l := be body 9 1
  let hops := be body 10 1
  let j := be body 11 1
  let c := r.ctx.toNat
  let p := r.part.toNat
  let e := resvOf s p j
  let bound := rValid e && rKind e == 0 && rDie e == die
  let path := if bound then some (rPath e) else freePath s die
  let key := pathKey die (path.getD 0)
  let charged := if bound then chargeLink l p (rRate e) s else some s
  .next (request s r 0x0221 .t (lenIs r body 12)
    (ctxChecks s r ctxUsual ++
    [ ⟨5, die > 1 || l ≥ 32 || hops > 3 || path == some 0, .badDescriptor⟩,
      ⟨8, path.isNone || eValid (entryOf s key) || (freeSlot s).isNone || linkClosed s l p (mirrorPathFree s p l key), .conflict⟩,
      ⟨9, !linkUp s l || charged.isNone, .notAdmitted⟩ ])
    (fun s =>
      let s := if bound then (chargeLink l p (rRate e) s).getD s else s
      match freeSlot s with
      | none => s
      | some slot =>
        let q : PathRec := { phase := 1, origin := true, req := some r, slot := slot, links := [l], resv := j, units := if bound then rRate e else 0 }
        let s := setEntry key (mkEntry 0 l (key % 4096) hops p c r.gen.toNat slot 0 j (linkOf s l).d) (setPath s key q)
        let x : PathExtra := {
          far := BitVec.ofNat 64 far, left := hops, part := r.part, ctx := r.ctx, gen := r.gen, rate := q.units, charter := partCharter s p }
        pathOpenSend key x (setBusy r 0x0221 s)))

/-- PATH_CLOSE (R278): at an origin entry PATH_CLOSE goes out and transfers end with LINK_LOST; at a deliver entry the origin
is told that the path is lost. -/
def execPathClose (r : Req) (body : Bytes) (s : State) : Out := arrives (.pathClose r body) r s fun s =>
  let die := be body 0 1
  let path := be body 1 2
  let p := r.part.toNat
  let key := pathKey die path
  let e := entryOf s key
  .next (request s r 0x0222 .t (lenIs r body 3)
    [ ⟨5, die > 1 || path == 0 || path ≥ 4096, .badDescriptor⟩,
      ⟨8, !eValid e || eRole e == 1 || ePart e != p, .conflict⟩ ]
    (fun s =>
      let s := if eRole e = 0 then pathClose key .linkLost s
        else pathFree key (pathState key 2 (rxCut key (sendCtrl (backLink s key) (backFrame 0x24 path 0 []) s)))
      respond r 0x0222 .ok [] s))

/-! ## Bulk windows and transfers (R314-R318) -/

/-- BULK_WINDOW_SET (R315); a dump that waits for window 63 goes out. -/
def execBulkWindowSet (r : Req) (body : Bytes) (s : State) : Out := arrives (.bulkWindowSet r body) r s fun s =>
  let i := be body 0 1
  let w : BulkWindow := BitVec.ofNat 512 (be body 1 64)
  let p := r.part.toNat
  .next (request s r 0x0230 .t (lenIs r body 65) (windowChecks s p w ++ [⟨5, i ≥ 64, .badDescriptor⟩])
    (fun s =>
      let q := sessOf s r.sess
      let s := setSess s r.sess { q with wins := tset q.wins i w }
      let s := if i = 63 then (ctxsOf s p).foldl (fun s c => dumpSend c s) s else s
      respond r 0x0230 .ok [] s))
/-- BULK_WINDOW_CLEAR. -/
def execBulkWindowClear (r : Req) (body : Bytes) (s : State) : Out := arrives (.bulkWindowClear r body) r s fun s =>
  let i := be body 0 1
  .next (request s r 0x0231 .t (lenIs r body 1) [⟨5, i ≥ 64, .badDescriptor⟩]
    (fun s =>
      let q := sessOf s r.sess
      respond r 0x0231 .ok [] (setSess s r.sess { q with wins := tdrop (· == i) q.wins })))
/-- BULK_IN_OPEN (R318). -/
def execBulkInOpen (r : Req) (body : Bytes) (s : State) : Out := arrives (.bulkInOpen r body) r s fun s => .next (bulkOpen false 0x0232 r body s)
/-- BULK_OUT_OPEN (R318, R319). -/
def execBulkOutOpen (r : Req) (body : Bytes) (s : State) : Out := arrives (.bulkOutOpen r body) r s fun s => .next (bulkOpen true 0x0233 r body s)

/-! ## Tenants (R328, R349-R352) -/

/-- PARTITION_ASSIGN (R328): a partition whose scrub must still be run again is not assigned (R352). -/
def execPartitionAssign (r : Req) (body : Bytes) (s : State) : Out := arrives (.partitionAssign r body) r s fun s =>
  let p := be body 0 1
  .next (request s r 0x0100 .f (lenIs r body 65)
    [ ⟨2, s.fuses.lifecycle == .blank, .denied⟩,
      ⟨5, p ≥ 16 || !pEnabled s p, .badDescriptor⟩,
      ⟨8, (partOf s p).state != .unused || s.nvm.scrubPend.any (fun e => e.1 == p), .conflict⟩ ]
    (fun s => respond r 0x0100 .ok [] (ledgerAdd 10 1
      (setPart s p { partOf s p with state := .assigned, key := some (digestOf (slice body 1 64)) }))))

/-- PARTITION_RELEASE (R349, R353): during a reset the scrub waits for its end. -/
def execPartitionRelease (r : Req) (body : Bytes) (s : State) : Out := arrives (.partitionRelease r body) r s fun s =>
  let p := be body 0 1
  .next (request s r 0x0101 .f (lenIs r body 1)
    [ ⟨5, p ≥ 16 || !pEnabled s p, .badDescriptor⟩,
      ⟨8, (partOf s p).state == .unused || (partOf s p).state == .scrubbing || (partOf s p).relReq, .conflict⟩ ]
    (fun s =>
      let s := respond r 0x0101 .ok [] s
      if (partOf s p).state == .resetting then setPart s p { partOf s p with relReq := true } else scrubStart p s))

/-- SCRUB_KEY_PHASE (R349, R352): at 2 ms every key of the partition is zeroised and a fresh partition key made; where a unit
has not confirmed its fence, the device is reset. -/
def execScrubKeyPhase (part : BitVec 4) (s : State) : Out :=
  let p := part.toNat
  let q := partOf s p
  if q.state != .scrubbing || q.scrubPh != 0 then .next s
  else if (ctxsOf s p).any (fun c => (ctxOf s c).state == .fencing) then .next (deviceReset s)
  else
    let s := (ctxsOf s p).foldl (fun s c => zeroKey (0x020 + c) (ctxFree c (tearRest c s))) s
    let s := s.paths.table.foldl (fun s x => if eValid x.2 && ePart x.2 = p && eRole x.2 != 1 then pathClose x.1 .fenced s else s) s
    let s := freshKey (0x010 + p) (zeroCharterKeys p s)
    .next (setPart s p { partOf s p with scrubPh := 1, windows := [], buckets := [], charter := none, step := {}, snap := {}, rest := {} })

/-- SCRUB_LEDGER_COMMIT (R349-R351): every line of the slices has been written and the cores cleared; the record is committed. -/
def execScrubLedgerCommit (part : BitVec 4) (s : State) : Out :=
  let p := part.toNat
  let q := partOf s p
  if q.state != .scrubbing || q.scrubPh != 1 then .next s else
  let s := clearSlices (slicesOf s p) s
  let s := ((List.range 32).filter (fun i => nbit (pCores (active s) p) (i / 2))).foldl (fun s i => clearCore i s) s
  let s := ledgerAdd 11 1 s
  let rec_ := scrubRecord s p
  .next (ledgerCommit (ledgerScrub rec_ (setPart s p { partOf s p with scrubPh := 2, scrubRec := rec_ })))

/-- SCRUB_DONE (R349): SCRUB_DONE carries the record's digest; the partition is UNUSED and its tenant key digest cleared. -/
def execScrubDone (part : BitVec 4) (s : State) : Out :=
  let p := part.toNat
  let q := partOf s p
  if q.state != .scrubbing || q.scrubPh != 2 then .next s else
  let s := postDev 0x0032 (bytesBE 1 p ++ digestBytes (Config.sha512 q.scrubRec)) s
  let s := { s with nvm := { s.nvm with scrubPend := tdrop (· == p) s.nvm.scrubPend } }
  let s := setPart s p { partitionReset with held := q.held, queue := { ({} : EventQueue) with seq := q.queue.seq } }
  -- the last scrub to end lets a new coarsening level come into force
  let more := (List.range 16).any (fun x => (partOf s x).state == .scrubbing)
  .next { s with cfg := { s.cfg with level := if more then s.cfg.level else none } }

/-- SCRUB_RESTART (R352): after READY the firmware runs an interrupted scrub again, from its row of 2 ms, with ESCALATED. -/
def execScrubRestart (part : BitVec 4) (s : State) : Out :=
  let p := part.toNat
  if !isReady s || (partOf s p).state == .scrubbing || !(s.nvm.scrubPend.any (fun e => e.1 == p)) then .next s else
  .next (setPart s p { partOf s p with state := .scrubbing, scrubAt := now s, scrubPh := 0, scrubEsc := true, scrubRec := [] })

/-! ## PEER_LOST (R290, R282) -/

/-- A TM_ACC_READ that waits on a slot of a discarded window ends with LINK_LOST and writes nothing. -/
def cutReads (p : Nat) (s : State) : State :=
  let ws := (partOf s p).windows.filter (fun e => wReduce e.2 && wDiscard e.2)
  (ctxsOf s p).foldl (fun s c =>
    let on (r : MovRun) : MovRun :=
      let a := tSrcAt r.desc r.done
      if r.waitAcc && ws.any (fun e => winCtx e.2 == c && wVBase e.2 ≤ a && a < wVBase e.2 + wSize e.2)
      then { r with waitAcc := false, status := some .linkLost } else r
    ((runningCores s c) ++ (ctxOf s c).saved.map (·.1)).foldl (fun s i => modMover c i 0 on (modMover c i 1 on s)) s) s

/-- PEER_LOST: in every partition of the mask DISCARD is set in the windows of the epoch, and what waits for the peer ends
with LINK_LOST. -/
def execPeerLost (r : Req) (body : Bytes) (s : State) : Out := arrives (.peerLost r body) r s fun s =>
  let serial := be body 0 8
  let epoch := be body 8 4
  let mask := be body 12 2
  .next (request s r 0x0102 .f (lenIs r body 14) []
    (fun s =>
      let ps := (List.range 16).filter (fun p => nbit mask p)
      let s := ps.foldl (fun s p =>
        let q := partOf s p
        cutReads p (setPart s p { q with
            windows := q.windows.map (fun e =>
            (e.1, if wReduce e.2 && wEpoch e.2 == epoch then setBit e.2 160 true else e.2)) })) s
      let s := s.paths.recs.foldl (fun s x =>
        let e := entryOf s x.1
        if eValid e && eRole e == 0 && ps.contains (ePart e) && x.2.extra.far.toNat == serial then transfersDone x.1 .linkLost s else s) s
      respond r 0x0102 .ok [] s))

end Sys2Proof.Machine
end

