-- ==== Sys2Proof/Machine/CfgOps.lean ====
section
/-! DEFINITION. Validation and swap of configuration sets (R284, R330-R334, R422-R424). -/

namespace Sys2Proof.Machine

/-! ## Validation (R331): each failure with its check's order, the section TYPE and the entry concerned -/

structure Flaw where
  order : Nat
  ty    : Nat
  entry : Nat
deriving DecidableEq, Repr

/-- A flaw where a condition holds. -/
def flaw (b : Bool) (order ty entry : Nat) : List Flaw := if b then [⟨order, ty, entry⟩] else []
/-- The flaws of each of n entries. -/
def flaws (n : Nat) (f : Nat → List Flaw) : List Flaw := (List.range n).flatMap f

/-- The LENGTH that R330 requires of a section, where it is fixed. -/
def fixedLen (ty : Nat) : Option Nat :=
  match ty with
  | 1 => some 1024 | 2 => some 1024 | 3 => some 34816 | 6 => some 8 | 7 => some 8 | 8 => some 224 | 9 => some 32 | _ => none
def dirType (m : Mem) (i : Nat) : Nat := setNum m (0x20 + 16 * i) 2
def dirOff (m : Mem) (i : Nat) : Nat := setNum m (0x24 + 16 * i) 4
def dirLen (m : Mem) (i : Nat) : Nat := setNum m (0x28 + 16 * i) 4
/-- Counts of the LINKS section. -/
def fwCount (m : Mem) : Nat := secNum m 4 512 2
def refCount (m : Mem) : Nat := secNum m 4 (514 + 64 * fwCount m) 2
/-- A list count above its limit, or a LENGTH other than R330 requires. -/
def lenBad (m : Mem) (ty len : Nat) : Bool :=
  match fixedLen ty with
  | some n => len != n
  | none =>
    if ty = 4 then len < 516 || fwCount m > 16 || refCount m > 64 || len != 516 + 64 * fwCount m + 8 * refCount m
    else len < 8 || claimCount m > 256 || len != 8 + 8 * claimCount m
/-- A section that stands in the set as R330 asks: its entries can be looked at. -/
def secReads (m : Mem) (ty : Nat) : Bool :=
  (secIndex m ty).isSome && secOff m ty + secLen m ty ≤ setLength m && !lenBad m ty (secLen m ty)

/-- Header and directory. -/
def headFlaws (m : Mem) : List Flaw :=
  flaw (setNum m 0 4 != 0x4B5A4353 || setNum m 4 2 != 1 || setNum m 6 2 != 9 || !(setNum m 0x10 1 == 1 || setNum m 0x10 1 == 2) ||
    !allZero (mread m 0x11 15)) 5 0 0 ++
  flaw (setLength m < 176 || setLength m > 65536) 6 0 0 ++
  flaws 9 (fun i =>
    let ty := dirType m i
    flaw (ty == 0 || ty > 9 || secIndex m ty != some i || setNum m (0x22 + 16 * i) 2 != 0 || setNum m (0x2C + 16 * i) 4 != 0) 5 ty i ++
    flaw (1 ≤ ty && ty ≤ 9 && secIndex m ty == some i && (dirOff m i + dirLen m i > setLength m || lenBad m ty (dirLen m i))) 6 ty i) ++
  flaws 9 (fun i => flaw (secIndex m (i + 1)).isNone 5 (i + 1) 0)

/-- The slices of stacks in service. -/
def sliceIn (s : State) (n : Nat) : Bool := stackIn s (stackOfSlice n)
def others (m : Mem) (p : Nat) (f : Mem → Nat → Nat) : Nat := (List.range p).foldl (fun a q => a ||| (if pEnabledIn m q then f m q else 0)) 0
def totalOf (m : Mem) (f : Mem → Nat → Nat) : Nat := ((List.range 16).map (fun p => if pEnabledIn m p then f m p else 0)).sum
/-- PARTITIONS (R327): a part of the layout that two entries name is charged to the later one. -/
def partFlaws (s : State) (m : Mem) : List Flaw :=
  flaws 16 (fun p =>
    let e := secNum m 1 (64 * p) 64
    flaw (nbits e 79 1 != 0 || (!pEnabledIn m p && e != 0)) 5 1 p ++
    (if !pEnabledIn m p then [] else
     flaw (pCores m p == 0 || pSlices m p == 0 || pEventRate m p == 0 || pQuantum m p == 0 || pSealed m p &&& pSlices m p != pSealed m p ||
       pCores m p &&& others m p pCores != 0 || pSlices m p &&& others m p pSlices != 0) 5 1 p ++
     flaw ((List.range 192).any (fun n => nbit (pSlices m p) n && !sliceIn s n)) 7 1 p)) ++
  flaw ((List.range 192).all (fun n => !sliceIn s n || nbit (others m 16 pSlices) n)) 5 1 0 ++
  flaw (totalOf m pHostShare > 240 || totalOf m pQuota > 256) 5 1 0
/-- A change to the layout of a partition that is not UNUSED. -/
def layoutChange (s : State) (m : Mem) (p : Nat) : Bool :=
  let a := active s
  (partOf s p).state != .unused &&
  (pCores m p != pCores a p || pSlices m p != pSlices a p || pSealed m p != pSealed a p || pEnabledIn m p != pEnabledIn a p)

/-- Shares of a link: partitions and transit. -/
def shareSum (m : Mem) (l : Nat) : Nat := ((List.range 17).map (linkShare m l)).sum
def shareFlaws (m : Mem) : List Flaw := flaws 32 (fun l => flaw (shareSum m l > 256 || secNum m 2 (32 * l + 17) 15 != 0) 5 2 l)

/-- Valid entries of every reservation table, by table × 256 + index. -/
def resvList (m : Mem) : List (Nat × BitVec 64) :=
  (List.range 4352).filterMap (fun n => let e := resvEntry m (n / 256) (n % 256); if rValid e then some (n, e) else none)
/-- A breach of the field rules of R284 and R422. -/
def resvBad (m : Mem) (t : Nat) (e : BitVec 64) : Bool :=
  let k := rKind e
  k > 3 || rRate e == 0 || rRate e > 240 || rDepth e == 0 || fld e 17 0 != 0 || (t == 16 && k != 0) ||
  (k != 0 && fld e 59 46 != 0) || (k != 1 && rStack e != 0) ||
  (k == 1 && (rStack e > 11 || rRate e > 51 || nbits (pSlices m t) (16 * rStack e + 15) (16 * rStack e) == 0)) ||
  (k == 0 && (List.range 16).all (fun i => linkShare m (16 * rDie e + i) t < rRate e))
/-- The totals an entry counts in, each with its cap (R284): the stack and the partition's share of it, or the direction of the
host port and the partition's share of it. -/
def resvTotals (m : Mem) (t : Nat) (e : BitVec 64) : List (Nat × Nat) :=
  let k := rKind e
  if k = 1 then [(rStack e, 245), (1000 + 16 * t + rStack e, 16 * popcount 16 (nbits (pSlices m t) (16 * rStack e + 15) (16 * rStack e)))]
  else if k = 2 || k = 3 then [(100 + k, 240), (2000 + 16 * t + k, pHostShare m t)]
  else []
/-- Entries, in order, at which a total of R284 passes its cap. -/
def overCaps (m : Mem) : List (Nat × BitVec 64) → Tbl Nat → List Flaw
  | [], _ => []
  | (n, e) :: l, sums =>
    let ts := resvTotals m (n / 256) e
    let sums := ts.foldl (fun a x => tmod 0 a x.1 (· + rRate e)) sums
    flaw (ts.any (fun x => tget 0 sums x.1 > x.2)) 5 3 n ++ overCaps m l sums
def resvFlaws (m : Mem) : List Flaw :=
  let l := resvList m
  l.flatMap (fun x => flaw (resvBad m (x.1 / 256) x.2) 5 3 x.1) ++ overCaps m (l.filter (fun x => !resvBad m (x.1 / 256) x.2)) []

/-- LINKS: DEGRADE_SER is a finite FP32 value between the FP32 values nearest to 10^-8 and 10^-4. -/
def linkFlaws (m : Mem) : List Flaw :=
  flaws 32 (fun l =>
    let d := (degradeSer m l).toNat
    flaw (secNum m 4 (16 * l) 1 > 1 || secNum m 4 (16 * l + 1) 3 != 0 || secNum m 4 (16 * l + 8) 8 != 0 || d < 0x322BCC77 || d > 0x38D1B717) 5 4 l)

/-- CLAIMS (R333, R334). -/
def claimBad (m : Mem) (e : BitVec 64) : Bool :=
  let kind := fld e 63 56
  let feature := fld e 47 40
  fld e 38 36 != 0 || fld e 31 1 != 0 ||
  (bit e 0 && (fld e 55 48 > 31 || !((kind == 1 && (feature == 1 || feature == 2)) || (kind == 2 && (feature == 3 || feature == 4))) ||
    (feature == 1 && !bit e 39) || (kind == 2 && bit e 39) || (fld e 35 32 != 0 && (feature == 1 || feature == 3)) ||
    (kind == 1 && bit e 39 && shareSum m (fld e 55 48) != 0)))
def claimClash (a b : BitVec 64) : Bool := bit a 0 && bit b 0 && fld a 63 48 == fld b 63 48 && (bit a 39 || bit b 39)
def claimFlaws (m : Mem) : List Flaw :=
  flaw (secNum m 5 2 6 != 0) 5 5 0 ++
  flaws (claimCount m) (fun i =>
    flaw (claimBad m (claimEntry m i)) 5 5 i ++ flaw ((List.range i).any (fun j => claimClash (claimEntry m j) (claimEntry m i))) 8 5 i)

/-- POWER, TELEMETRY, WATCHDOGS. -/
def plainFlaws (m : Mem) : List Flaw :=
  let p := secNum m 6 0 2
  (if secReads m 6 then flaw (p < 1800 || p > 3600 || p % 10 != 0 || secNum m 6 2 6 != 0) 5 6 0 else []) ++
  (if secReads m 7 then flaw (secNum m 7 0 1 == 0 || secNum m 7 0 1 > 3 || secNum m 7 1 7 != 0) 5 7 0 else []) ++
  (if secReads m 9 then flaws 5 (fun i => flaw (secNum m 9 (4 * i) 4 == 0 || secNum m 9 (4 * i) 4 > 60000) 5 9 i) ++ flaw (secNum m 9 20 12 != 0) 5 9 0 else [])
/-- HOST_PORT (R423). -/
def hostBad (m : Mem) : Bool :=
  let f (o n : Nat) : Nat := secNum m 8 o n
  f 0 1 > 0x0C || nbits (f 1 1) 6 2 != 0 || f 4 2 > 4094 || f 6 2 < 1024 || f 8 2 < 1518 || f 8 2 > 9216 || f 0x0A 2 == 0 || f 0x0A 2 > 600 ||
  (List.range 4).any (fun i => f (0x0C + i) 1 > 7) || f 0x10 1 > 127 || f 0x11 1 > 1 || f 0x12 1 > 4 || f 0x13 1 > 1 || f 0x19 7 != 0 ||
  (if f 0x13 1 = 1 then f 0x18 1 == 0 || f 0x18 1 > 32 else f 0x14 5 != 0) ||
  (List.range 4).any (fun i => if i < f 0x12 1 then f (0x30 + 32 * i) 1 == 0 || f (0x30 + 32 * i) 1 > 128 || f (0x31 + 32 * i) 15 != 0 else f (0x20 + 32 * i) 32 != 0)

/-- Everything wrong with a set. -/
def setFlaws (s : State) (m : Mem) : List Flaw :=
  headFlaws m ++
  (if secReads m 1 then partFlaws s m ++ flaws 16 (fun p => flaw (layoutChange s m p) 8 1 p) else []) ++
  (if secReads m 2 then shareFlaws m else []) ++
  (if secReads m 1 && secReads m 2 && secReads m 3 then resvFlaws m else []) ++
  (if secReads m 4 then linkFlaws m else []) ++
  (if secReads m 2 && secReads m 5 then claimFlaws m else []) ++
  plainFlaws m ++ (if secReads m 8 then flaw (hostBad m) 5 8 0 else []) ++
  flaw (setSeq m ≤ setSeq (active s)) 8 0 0
/-- The first failure in the order of R15. -/
def firstFlaw (l : List Flaw) : Option Flaw :=
  l.foldl (fun (b : Option Flaw) x => match b with | none => some x | some y => if x.order < y.order then some x else b) none
def orderCode (n : Nat) : Status := if n = 5 then .badDescriptor else if n = 6 then .badLength else if n = 7 then .outOfRegion else .conflict
def validate (s : State) (m : Mem) : Option Flaw := firstFlaw (setFlaws s m)

/-! ## The swap (R332) -/

/-- The units that an open path is charged here under a set (R422): the RATE of its reservation, while that still names the path, or at
a transit still covers the path's rate. -/
def unitsUnder (s : State) (m : Mem) (key : Nat) : Nat :=
  let e := entryOf s key
  let r := pathOf s key
  let x := resvEntry m (poolOf e) r.resv
  if r.units = 0 || !rValid x || rKind x ≠ 0 then 0
  else if eRole e = 1 then (if rRate x ≥ r.extra.rate then rRate x else 0)
  else if pathKey (rDie x) (rPath x) = key then rRate x else 0
/-- The charges on a link's direction under a set, by pool. -/
def chargesUnder (s : State) (m : Mem) (l : Nat) : Tbl Nat :=
  s.paths.table.foldl (fun t x =>
    if eValid x.2 && eRole x.2 ≤ 1 && eOutLink x.2 == l && unitsUnder s m x.1 != 0 then tmod 0 t (poolOf x.2) (· + unitsUnder s m x.1) else t) []
/-- The caps that the hardware checks again: the totals of R284, and the charges of every open path against the new shares
(R422). -/
def capsBroken (s : State) (m : Mem) : Bool :=
  !(shareFlaws m).isEmpty || !(resvFlaws m).isEmpty || totalOf m pHostShare > 240 ||
  (List.range 32).any (fun l => ((chargesUnder s m l).map (·.2)).sum > 240 || (chargesUnder s m l).any (fun c => c.2 > linkShare m l c.1))
/-- The charges of open paths follow the set that comes into force. A reservation whose RATE rises, or that is gone, loses CONFIRMED
until its path is opened again (DEDUCED, log entry 136). -/
def swapCharges (m : Mem) (s : State) : State :=
  let t := s.paths.table.foldl (fun (t : State) x =>
    let r := pathOf s x.1
    if !eValid x.2 || eRole x.2 = 2 || r.units = 0 then t else
    let u := unitsUnder s m x.1
    let t := setPath t x.1 { pathOf t x.1 with units := u }
    if u != 0 && u ≤ r.units then t
    else if eRole x.2 = 1 then { t with paths := { t.paths with transit := tmod {} t.paths.transit r.resv (fun b => { b with conf := false }) } }
    else setPart t (ePart x.2) { partOf t (ePart x.2) with buckets := tmod {} (partOf t (ePart x.2)).buckets r.resv (fun b => { b with conf := false }) }) s
  (List.range 32).foldl (fun t l => setLink t l { linkOf t l with charge := chargesUnder s m l }) t
/-- The unbounded credits of a link follow the shares, less what is spent (R275). -/
def swapCredits (old : Nat → Tbl Nat) (s : State) : State :=
  (List.range 32).foldl (fun s l =>
    if linkSt s l != .up then s else
    let k := linkOf s l
    setLink s l { k with creds := (startCredits s l).foldl (fun t x => tmod 0 t x.1 (fun c => c + x.2 - tget 0 (old l) x.1)) k.creds }) s
/-- A set would take a core pair or a slice from a partition that is not UNUSED (R329). -/
def partsMoved (s : State) (m : Mem) (p : Nat) : Bool :=
  let a := active s
  (partOf s p).state != .unused && pEnabledIn a p &&
  (!pEnabledIn m p || pCores m p &&& pCores a p != pCores a p || pSlices m p &&& pSlices a p != pSlices a p)
/-- Why a swap cannot run: DENIED where it would take parts from a partition in use, or break a cap (R329, R332); CONFLICT for another layout
change of a partition in use (R353). -/
def swapRefused (s : State) (m : Mem) : Option Status :=
  if (List.range 16).any (partsMoved s m) || capsBroken s m then some .denied
  else if (List.range 16).any (layoutChange s m) then some .conflict else none

/-- A setting of HOST_PORT whose change takes the port down: HP_MODE, HP_POLARITY, the addresses, VLAN_ID, KHT_PORT (R295). -/
def portKey (m : Mem) : Bytes :=
  let b := secBytes m 8
  slice b 0x00 1 ++ slice b 0x02 6 ++ slice b 0x12 14 ++ slice b 0x20 128
/-- Buckets of entries that the swap leaves unchanged keep their tokens; every other starts full (R292). -/
def swapBuckets (old new : Mem) (s : State) : State :=
  { s with parts := s.parts.map (fun x => (x.1, { x.2 with
      buckets := x.2.buckets.map (fun y =>
      if resvEntry old x.1 y.1 == resvEntry new x.1 y.1 then y else (y.1, { conf := y.2.conf })) })) }
/-- A link that the new set disables is fenced, or taken down before UP: its lanes stay off (R330). One refused by policy may be
tried again (R264). -/
def swapLinks (s : State) : State :=
  (List.range 32).foldl (fun s l =>
    let k := linkOf s l
    let s := if k.polWait then setLink s l { k with polWait := false, retryOk := true } else s
    if linkEnabled (active s) l then s else
    match linkSt s l with
    | .up => fenceLink l 0x15 s
    | .training => linkDown l 0x15 s
    | .hello => linkDown l 0x15 s
    | .attest => linkDown l 0x15 s
    | .keyed => linkDown l 0x15 s
    | _ => s) s
/-- A set is swapped in: it is in force, though a scrub keeps the coarsening level until its end (R350, R407); MR5 is extended, the former active set is the shadow set, and the write to non-volatile
memory is due. -/
def swapSet (m : Mem) (s : State) : State :=
  let old := active s
  let creds := startCredits s
  let scrubs := (List.range 16).any (fun p => (partOf s p).state == .scrubbing)
  let s := { s with cfg := { s.cfg with level := if scrubs then some (telemetryLevel s) else none } }
  let s := activate m (swapCharges m (swapBuckets old m s))
  let s := { s with cfg := { s.cfg with shadow := old, wrote := [(0, 65536)], lock := none, valid := false, armed := none, fresh := true } }
  let s := swapLinks (swapCredits creds (holdPartitions s))
  if portKey old != portKey m then closeSessions (fun _ q => q.port == .host) (hostDown s) else s
/-- An armed set swaps at the step barrier; one that cannot is dropped, and the active set stands (R332, R353). -/
def swapArmed (s : State) : State :=
  match s.cfg.armed with
  | none => s
  | some m => if (swapRefused s m).isSome then { s with cfg := { s.cfg with armed := none } } else swapSet m s

end Sys2Proof.Machine
end

