-- ==== Sys2Proof/Machine/Charter.lean ====
section
/-! DEFINITION. Joint training (chapter 12): charters and shares (R354-R363), steps and mirrors (R371-R376), phase reports
(R368-R370). -/

namespace Sys2Proof.Machine

/-! ## Loading a charter (R354-R356) -/

/-- Bytes of a charter by the formula of R354. -/
def chLength (d : Bytes) : Nat := 0xA50 + 8 * chDevices d + 132 * chOwners d
def chSig (d : Bytes) (n : Nat) : Bytes := slice d (0xA50 + 8 * chDevices d + 132 * n) 132
/-- Entry i of the bank pairs, and the mirror area at 64 (R355). -/
def chEntry (d : Bytes) (i : Nat) : Nat := be d (if i = 64 then 0xA38 else 0x638 + 16 * i) 16
def ceValid (e : Nat) : Bool := nbit e 127
def ceA (e : Nat) : Nat := nbits e 126 100 * 2 ^ 21
def ceB (e : Nat) : Nat := nbits e 99 73 * 2 ^ 21
def ceSize (e : Nat) : Nat := nbits e 72 54 * 2 ^ 21
def ceSlot (e : Nat) : Nat := nbits e 53 35
/-- The valid bank pairs. -/
def chPairs (d : Bytes) : List Nat := ((List.range 64).map (chEntry d)).filter ceValid
/-- Every range of the charter: committed and working banks, mirror banks. -/
def chRanges (d : Bytes) : List (Nat × Nat) :=
  let l := chPairs d ++ (if ceValid (chEntry d 64) then [chEntry d 64] else [])
  l.flatMap (fun e => [(ceA e, ceSize e), (ceB e, ceSize e)])
/-- No two ranges of a list meet. -/
def noneMeet : List (Nat × Nat) → Bool
  | [] => true
  | x :: t => t.all (fun y => !rangesMeet x.1 x.2 y.1 y.2) && noneMeet t
/-- Committed ranges follow one another without gaps. -/
def followOn : List Nat → Bool
  | a :: b :: t => ceA a + ceSize a == ceA b && followOn (b :: t)
  | _ => true

/-- Check 2 of R356: the signatures, and the policy against this device; a field that cannot be read fails. -/
def charterDenied (s : State) (p : Nat) (d : Bytes) : Bool :=
  d.length < 0xA50 || d.length < chLength d || chOwners d > 8 ||
  (List.range (natMin 8 (chOwners d))).any (fun n => !Config.ecdsaVerify (chOwnerKey d n) (ascii "KAZBA-CHARTER-V1" ++ chSigned d) (chSig d n)) ||
  !charterOk d (reportBody s (bytesBE 64 0) p)
/-- Check 5 of R356. -/
def charterMalformed (d : Bytes) : Bool :=
  let k := chOwners d
  let pairs := chPairs d
  let mir := chEntry d 64
  be d 0 4 != 0x4B5A4348 || be d 4 2 != 1 || chFlags d ≥ 8 || !allZero (slice d 0x068 8) || !allZero (slice d 0xA48 8) ||
  k == 0 || k > 8 || chQuorum d == 0 || chQuorum d > k || chFwCount d == 0 || chFwCount d > 4 || chMode d > 1 ||
  (List.range k).any (fun n => !Config.pointOk (chOwnerKey d n) || (List.range n).any (fun m => chOwnerKey d m == chOwnerKey d n)) ||
  !allZero (slice d (0x070 + 133 * k) (133 * (8 - k))) || !allZero (slice d (0x498 + 64 * chFwCount d) (64 * (4 - chFwCount d))) ||
  (List.range 65).any (fun i => nbits (chEntry d i) 34 0 != 0) || ceSlot mir != 0 ||
  (chMirror d && !chBanks d) || (chBanks d == pairs.isEmpty) ||
  (List.range 64).any (fun i => ceValid (chEntry d i) && i ≥ pairs.length) || !followOn pairs ||
  pairs.any (fun e => ceSize e == 0 || ceSlot e == 0) || !noneMeet (chRanges d) || (chRanges d).any (fun r => r.1 + r.2 > aliasBase) ||
  (chMirror d && (!ceValid mir || ceSize mir < (pairs.map ceSize).sum))

/-- CHARTER_LOAD (R356): the charter is PENDING under a fresh provisioning key. -/
def execCharterLoad (r : Req) (body : Bytes) (s : State) : Out := arrives (.charterLoad r body) r s fun s =>
  let p := r.part.toNat
  let q := partOf s p
  .next (request s r 0x0250 .t true
    [ ⟨2, s.fuses.lifecycle == .blank || charterDenied s p body, .denied⟩,
      ⟨5, charterMalformed body, .badDescriptor⟩,
      ⟨6, chDevices body > 4096 || be body 8 4 != chLength body || be body 8 4 != body.length || r.bodyLen.toNat != body.length, .badLength⟩,
      ⟨8, q.state != .assigned || q.charter.isSome || !(ctxsOf s p).isEmpty, .conflict⟩ ]
    (fun s =>
      let (n, s) := draw s
      respond r 0x0250 .ok [] (setPart s p { partOf s p with charter := some { doc := body, prov := n } })))

/-! ## Key shares (R359-R363) -/

/-- The provisioning point. -/
def provPoint (ch : Charter) : Bytes := padTo 133 (Config.pubOf (privBytes ch.prov))
def stateByte (ch : Charter) : Byte := if ch.active then 1 else 0
/-- A KEY_SHARE operation of one kind: during a partition reset it is deferred to the reset's end (R377). `pre` are the checks
that ask for no charter. -/
def keyShare (kind len : Nat) (r : Req) (body : Bytes) (pre : List Check) (checks : Charter → List Check) (act : Charter → State → State)
    (s : State) : State :=
  let p := r.part.toNat
  let q := partOf s p
  let busy := q.state == .resetting
  request s r 0x0251 .t (lenIs r body len)
    ([⟨5, be body 0 1 != kind, .badDescriptor⟩] ++ pre ++
     (if busy then [] else match q.charter with | some ch => checks ch | none => [⟨8, true, .conflict⟩]))
    (fun s =>
      if busy then respondAt r 0x0251 .deferred q.rstEnd [] s
      else match q.charter with | some ch => act ch s | none => s)

/-- KEY_SHARE ATTEST (R359): the report binds the charter and the provisioning point. -/
def execKeyShareAttest (r : Req) (body : Bytes) (s : State) : Out := arrives (.keyShareAttest r body) r s fun s =>
  .next (keyShare 1 65 r body [] (fun _ => []) (fun ch s =>
    match reportWait s with
    | some t => respondAt r 0x0251 .deferred t [] s
    | none =>
      -- the key, and with it the point, is destroyed at activation: an ACTIVE charter shows a free value there
      let (pt, s) := if ch.active then drawBytes 133 s else (provPoint ch, s)
      let nonce := digestBytes (Config.sha512 (ascii "KAZBA-PROV-V1" ++ slice body 1 64 ++ chDigest ch.doc ++ pt))
      let rep := report s nonce r.part.toNat
      respond r 0x0251 .ok (pt ++ rep ++ eventLogBytes s ++ [stateByte ch, ch.present] ++ idCertBytes s) (countReport s)) s)

/-- The plaintext of a share (R360): data key, checkpoint contribution, release contribution. -/
def shareOpen (s : State) (ch : Charter) (idx : Nat) (eph ct : Bytes) (tag : BitVec 128) : Option Bytes :=
  let okm := padTo 44 (Config.hkdf (ascii "KAZBA-SHARE-KEYS") (Config.ecdh (privBytes ch.prov) eph) (chDigest ch.doc ++ serialBytes s ++ bytesBE 1 idx) 44)
  (Config.gcmOpen (okm.take 32) (okm.drop 32) (bytesBE 1 idx) ct tag).map (padTo 96)
/-- The contributions of every owner, in order. -/
def contributions (ch : Charter) (off : Nat) : Bytes := (List.range (chOwners ch.doc)).flatMap (fun n => slice (tget [] ch.shares n) off 32)
/-- Activation (R361). -/
def activateCharter (p : Nat) (ch : Charter) (s : State) : State :=
  let key (salt : String) (off : Nat) : Bytes := padTo 32 (Config.hkdf (ascii salt) (contributions ch off) (chDigest ch.doc) 32)
  let s := (List.range (chOwners ch.doc)).foldl (fun s n => setKey s (charterSlot p n) ((tget [] ch.shares n).take 32)) s
  let s := setKey (setKey s (charterSlot p 8) (key "KAZBA-CHECKPOINT" 32)) (charterSlot p 9) (key "KAZBA-RELEASE" 64)
  postJoint 1 p [] (buddyWindows p (setPart s p { partOf s p with state := .charter, charter := some { ch with active := true, prov := 0, shares := [] } }))

/-- KEY_SHARE SHARE (R360, R361): a share that verifies is kept; the last one activates the charter. -/
def execKeyShareShare (r : Req) (body : Bytes) (s : State) : Out := arrives (.keyShareShare r body) r s fun s =>
  let p := r.part.toNat
  let idx := be body 1 1
  let eph := slice body 5 133
  let ct := slice body 138 96
  let tag : BitVec 128 := BitVec.ofNat 128 (be body 234 16)
  let signed_ (ch : Charter) : Bytes :=
    ascii "KAZBA-SHARE-V1" ++ chDigest ch.doc ++ serialBytes s ++ provPoint ch ++ bytesBE 1 idx ++ eph ++ ct ++ bytesBE 16 tag.toNat
  .next (keyShare 2 382 r body [⟨2, s.fuses.lifecycle == .prodDebug, .denied⟩, ⟨5, be body 2 3 != 0, .badDescriptor⟩] (fun ch =>
    [ ⟨2, !ch.active && idx < chOwners ch.doc && !Config.ecdsaVerify (chOwnerKey ch.doc idx) (signed_ ch) (slice body 250 132), .denied⟩,
      ⟨5, idx ≥ chOwners ch.doc, .badDescriptor⟩,
      ⟨8, ch.active || nbit ch.present.toNat idx, .conflict⟩,
      ⟨10, (shareOpen s ch idx eph ct tag).isNone, .tagFail⟩ ])
    (fun ch s =>
      match shareOpen s ch idx eph ct tag with
      | none => s
      | some b =>
        let ch := { ch with shares := tset ch.shares idx b, present := setBit ch.present idx true }
        let full := (List.range (chOwners ch.doc)).all (fun n => nbit ch.present.toNat n)
        let s := if full then activateCharter p ch s else setPart s p { partOf s p with charter := some ch }
        respond r 0x0251 .ok [ch.present, if full then 1 else 0] s) s)

/-- Distinct owners that have authorised a manifest digest. -/
def authCount (ch : Charter) (d : Digest) : Nat := ((List.range 8).filter (fun n => ch.auths.contains (d, n))).length
/-- KEY_SHARE RESTORE_AUTH (R359, R363). -/
def execKeyShareRestoreAuth (r : Req) (body : Bytes) (s : State) : Out := arrives (.keyShareRestoreAuth r body) r s fun s =>
  let d := digestOf (slice body 1 64)
  let idx := be body 65 1
  .next (keyShare 3 201 r body [⟨5, be body 66 3 != 0, .badDescriptor⟩] (fun ch =>
    [ ⟨2, idx < chOwners ch.doc &&
        !Config.ecdsaVerify (chOwnerKey ch.doc idx) (ascii "KAZBA-RESTORE-V1" ++ chDigest ch.doc ++ digestBytes d) (slice body 69 132), .denied⟩,
      ⟨5, idx ≥ chOwners ch.doc, .badDescriptor⟩,
      ⟨8, !ch.active, .conflict⟩ ])
    (fun ch s =>
      let ch := { ch with auths := if ch.auths.contains (d, idx) then ch.auths else ch.auths ++ [(d, idx)] }
      respond r 0x0251 .ok (bytesBE 1 (authCount ch d)) (setPart s r.part.toNat { partOf s r.part.toNat with charter := some ch })) s)

/-- KEY_SHARE STATUS (R359). -/
def execKeyShareStatus (r : Req) (body : Bytes) (s : State) : Out := arrives (.keyShareStatus r body) r s fun s =>
  .next (keyShare 4 1 r body [] (fun _ => []) (fun ch s => respond r 0x0251 .ok ([stateByte ch, ch.present] ++ chDigest ch.doc) s) s)

/-! ## Steps (R371-R373) -/

/-- The charter that is ACTIVE in a partition. -/
def activeCharter (s : State) (p : Nat) : Option Charter :=
  match (partOf s p).charter with
  | some ch => if ch.active && (partOf s p).state == .charter then some ch else none
  | none => none
/-- A fabric-manager operation that names its partition in its first body byte, and needs its ACTIVE charter. `pre` are the
checks that ask for no charter. -/
def charterOp (op : Nat) (lenOk : Bool) (r : Req) (body : Bytes) (pre : List Check) (checks : Nat → Charter → List Check)
    (act : Nat → Charter → State → State) (s : State) : State :=
  let p := be body 0 1
  request s r op .f lenOk
    ([⟨5, p ≥ 16 || !pEnabled s p, .badDescriptor⟩] ++ pre ++ (match activeCharter s p with | some ch => checks p ch | none => [⟨8, true, .conflict⟩]))
    (fun s => match activeCharter s p with | some ch => act p ch s | none => s)
/-- A decision about the partition's context: FENCED while it fences or is fenced (R377). -/
def decision (op len : Nat) (r : Req) (body : Bytes) (checks : Nat → Charter → Step → List Check) (act : Nat → Charter → State → State) (s : State) : State :=
  charterOp op (lenIs r body len) r body
    [⟨4, (ctxsOf s (be body 0 1)).any (fun c => (ctxUsual (ctxOf s c).state).isSome), .fenced⟩]
    (fun p ch => checks p ch (partOf s p).step) act s

/-- One gate word in the inbox of every grain core of the partition's context (R372). -/
def gateWord (p kind epoch : Nat) (s : State) : State :=
  let w : W64 := BitVec.ofNat 64 (kind * 2 ^ 56 + epoch % 2 ^ 32)
  let on (k : Core) : Core :=
    { k with grains := k.grains.map (fun e => (e.1, if e.2.started && !e.2.stopped && e.2.inbox.length < 4 then { e.2 with inbox := e.2.inbox ++ [(w, 0)] } else e.2)) }
  (ctxsOf s p).foldl (fun s c =>
    let s := (runningCores s c).foldl (fun s i => setCore s i (on (coreOf s i))) s
    setCtx s c { ctxOf s c with saved := (ctxOf s c).saved.map (fun e => (e.1, on e.2)) }) s
/-- STEP_COMMITTED (R373). -/
def stepDone (p epoch action : Nat) (s : State) : State := postJoint 3 p (bytesBE 4 epoch ++ bytesBE 1 action) s

/-- The region entries of a pair, granule by granule: each pair of entries once. -/
def pairEntries (s : State) (c : Nat) (ch : Charter) : List (Nat × Nat) :=
  ((bankPairs ch).flatMap (fun b => (List.range (b.2.2.1 / 2 ^ 21)).filterMap (fun i =>
    match regionAt (ctxOf s c) (b.1 + i * 2 ^ 21), regionAt (ctxOf s c) (b.2.1 + i * 2 ^ 21) with
    | some (x, _), some (y, _) => some (x, y)
    | _, _ => none))).foldl (fun l x => if l.contains x then l else l ++ [x]) []
/-- PBASE of the two regions of each pair is swapped, in every translating unit at once (R373). -/
def swapBanks (p : Nat) (ch : Charter) (s : State) : State :=
  let c := bankCtx s p
  (pairEntries s c ch).foldl (fun s x =>
    let k := ctxOf s c
    let a := tget 0 k.regions x.1
    let b := tget 0 k.regions x.2
    setCtx s c { k with regions := tset (tset k.regions x.1 (setFld a 100 74 (fld b 100 74))) x.2 (setFld b 100 74 (fld a 100 74)) }) s
def setStep (p : Nat) (f : Step → Step) (s : State) : State := setPart s p { partOf s p with step := f (partOf s p).step }

/-- STEP_JOIN (R371). -/
def execStepJoin (r : Req) (body : Bytes) (s : State) : Out := arrives (.stepJoin r body) r s fun s =>
  let idx := be body 1 2
  let count := be body 3 2
  let buddy := be body 5 8
  let die := be body 21 1
  let path := be body 22 2
  .next (charterOp 0x0110 (lenIs r body 24) r body
    [⟨5, idx ≥ count || die > 1 || path ≥ 4096 || (buddy == 0 && (die != 0 || path != 0)), .badDescriptor⟩] (fun _ _ => [])
    (fun p _ s =>
      let s := setStep p (fun v => { v with
        joined := true, index := BitVec.ofNat 16 idx, count := BitVec.ofNat 16 count, buddy := BitVec.ofNat 64 buddy,
        origin := BitVec.ofNat 64 (be body 13 8), path := if buddy = 0 then none else some (die, path) }) s
      respond r 0x0110 .ok [] (buddyWindows p s)) s)

/-- STEP_COMMIT (R373): with banks the PBASE swap makes the candidate the commit; a configuration set armed for a step boundary
swaps before the gate word goes out (R332). Without banks the gate word is all it delivers. -/
def execStepCommit (r : Req) (body : Bytes) (s : State) : Out := arrives (.stepCommit r body) r s fun s =>
  let e := be body 1 4
  .next (decision 0x0111 5 r body (fun _ ch v =>
    [⟨8, v.arrived != some (BitVec.ofNat 32 e) || (chBanks ch.doc && v.banks != .arrived), .conflict⟩])
    (fun p ch s =>
      let mir := chMirror ch.doc
      let s : State :=
        if chBanks ch.doc then
          let s := setStep p (fun v => { v with
            commit := some (BitVec.ofNat 32 e), prevCom := v.commit, banks := if mir then .settled else .opened, wrOk := !mir, arrived := none }) (swapBanks p ch s)
          if mir then mirrorStart p e s else s
        else setStep p (fun v => { v with arrived := none, wrOk := true }) s
      let s := gateWord p 1 e (swapArmed (respond r 0x0111 .ok [] s))
      if chBanks ch.doc then stepDone p e 1 s else s) s)

/-- The epoch a rollback concerns before arrival: of the attempt under way, or, where none is past the commit, the first after it. -/
def attempt (s : State) (p : Nat) (v : Step) (e : Nat) : Bool :=
  let t := ctxEpoch s (bankCtx s p)
  match v.commit with
  | some c => if t > c.toNat then e == t else e == c.toNat + 1
  | none => e == t
/-- STEP_ROLLBACK (R373): what was written of the attempt no longer counts. Without EPOCH_BANKS there is no bank to go back
to (R371). -/
def execStepRollback (r : Req) (body : Bytes) (s : State) : Out := arrives (.stepRollback r body) r s fun s =>
  let e := be body 1 4
  .next (decision 0x0112 5 r body (fun p ch v =>
    [⟨5, !chBanks ch.doc, .badDescriptor⟩, ⟨8, !(match v.arrived with | some a => a.toNat == e | none => attempt s p v e), .conflict⟩])
    (fun p _ s =>
      let s := setStep p (fun v => if v.banks == .settled then { v with arrived := none } else { v with arrived := none, banks := .opened, wrOk := true }) s
      respond r 0x0112 .ok [] (stepDone p e 2 (gateWord p 2 e s))) s)

/-- STEP_UNCOMMIT (R373): the PBASE swap is undone and the mirror abandoned. -/
def execStepUncommit (r : Req) (body : Bytes) (s : State) : Out := arrives (.stepUncommit r body) r s fun s =>
  let e := be body 1 4
  .next (decision 0x0113 5 r body (fun _ ch v =>
    [ ⟨5, !chBanks ch.doc, .badDescriptor⟩, ⟨8, v.banks != .settled || v.commit != some (BitVec.ofNat 32 e), .conflict⟩ ])
    (fun p ch s =>
      let s := setStep p (fun v => { v with
        commit := v.prevCom, prevCom := none, banks := .opened, wrOk := true, arrived := none, mirEpoch := none, mirDone := false }) (swapBanks p ch s)
      respond r 0x0113 .ok [] (stepDone p e 3 (gateWord p 3 e s))) s)

/-- MIRROR_RELEASE (R373): accepted once this device's mirror of e is complete; WRITE opens, unless the next attempt has
already arrived. -/
def execMirrorRelease (r : Req) (body : Bytes) (s : State) : Out := arrives (.mirrorRelease r body) r s fun s =>
  let e := be body 1 4
  .next (decision 0x0114 5 r body (fun _ ch v =>
    [ ⟨5, !chMirror ch.doc, .badDescriptor⟩, ⟨8, v.banks != .settled || v.commit != some (BitVec.ofNat 32 e) || !v.mirDone, .conflict⟩ ])
    (fun p _ s =>
      let s := setStep p (fun v => { v with
        banks := if v.arrived.isSome then .arrived else .opened, wrOk := v.arrived.isNone, prevCom := none }) s
      respond r 0x0114 .ok [] (gateWord p 4 e s)) s)

/-- The latest complete mirror held for the origin (R374). -/
def latestMirror (v : Step) : Option W32 :=
  match v.heldA, v.heldB with
  | some a, some b => some (if a.toNat < b.toNat then b else a)
  | some a, none => some a
  | none, b => b
/-- MIRROR_STATUS (R371). -/
def execMirrorStatus (r : Req) (body : Bytes) (s : State) : Out := arrives (.mirrorStatus r body) r s fun s =>
  let serial := be body 1 8
  .next (charterOp 0x0115 (lenIs r body 9) r body [] (fun _ ch => [⟨5, !chMirror ch.doc, .badDescriptor⟩])
    (fun p _ s =>
      let v := (partOf s p).step
      match (if v.joined && v.origin.toNat == serial then latestMirror v else none) with
      | some e => respond r 0x0115 .ok (bytesBE 4 e.toNat ++ [1]) s
      | none => respond r 0x0115 .ok (bytesBE 4 0 ++ [0]) s) s)

/-- The mirror bank that holds an epoch: 0 A, 1 B. -/
def mirrorHolds (v : Step) (e : Nat) : Option Nat :=
  if v.heldA == some (BitVec.ofNat 32 e) then some 0 else if v.heldB == some (BitVec.ofNat 32 e) then some 1 else none
/-- MIRROR_RESTORE (R375): the bank that holds the epoch goes back over the named path. -/
def execMirrorRestore (r : Req) (body : Bytes) (s : State) : Out := arrives (.mirrorRestore r body) r s fun s =>
  let serial := be body 1 8
  let e := be body 9 4
  let die := be body 13 1
  let path := be body 14 2
  let key := pathKey die path
  .next (charterOp 0x0116 (lenIs r body 16) r body [⟨5, die > 1 || path == 0 || path ≥ 4096, .badDescriptor⟩] (fun p ch =>
    let v := (partOf s p).step
    [ ⟨5, !chMirror ch.doc, .badDescriptor⟩,
      ⟨8, !v.joined || v.origin.toNat != serial || (mirrorHolds v e).isNone || v.sendBack.isSome, .conflict⟩,
      ⟨8, !eValid (entryOf s key) || eRole (entryOf s key) != 0 || ePart (entryOf s key) != p || (pathOf s key).phase != 3, .conflict⟩ ])
    (fun p _ s =>
      respond r 0x0116 .ok [] (setStep p (fun v => { v with sendBack := (mirrorHolds v e).map (fun b => (b, key, 0, BitVec.ofNat 32 e)) }) s)) s)

/-- STEP_ABORT (R373): the gate word alone. -/
def execStepAbort (r : Req) (body : Bytes) (s : State) : Out := arrives (.stepAbort r body) r s fun s =>
  .next (decision 0x0117 1 r body (fun _ _ _ => []) (fun p _ s =>
    respond r 0x0117 .ok [] (gateWord p 5 (ctxEpoch s (bankCtx s p)) s)) s)

/-! ## Phase reports (R368-R370) -/

def mkTime (m : BitVec 256) : Nat := fld m 255 192
def mkEpoch (m : BitVec 256) : Nat := fld m 191 160
def mkOwner (m : BitVec 256) : Byte := BitVec.ofNat 8 (fld m 127 120)
def mkPhase (m : BitVec 256) : Nat := fld m 95 92
/-- A mark joins the coarse record of its epoch and phase. -/
def coarseMark (t : Tbl (Nat × Nat × Byte)) (m : BitVec 256) : Tbl (Nat × Nat × Byte) :=
  tmod (0, 0, 0) t (mkEpoch m * 16 + mkPhase m) (fun x =>
    let n := mkTime m + 1
    if bit m 97 then (x.1, natMax x.2.1 n, x.2.2 ||| mkOwner m) else (if x.1 = 0 then n else natMin x.1 n, x.2.1, x.2.2 ||| mkOwner m))
/-- A mark into the store: a full store loses its oldest epoch. -/
def storeMark (k : Context) (m : BitVec 256) : Context :=
  let k : Context :=
    if k.store.length < 65536 then k else
    let old := (k.store.map mkEpoch).foldl natMin (2 ^ 32)
    { k with store := k.store.filter (fun x => mkEpoch x != old), dropped := natMin (k.dropped + (k.store.filter (fun x => mkEpoch x == old)).length) 0xFFFFFFFF }
  { k with store := k.store ++ [m], coarse := coarseMark k.coarse m }
/-- PHASE_MARK_DRAIN (R368, R369): the ring goes to the store, which keeps the last 16 step epochs. -/
def execPhaseMarkDrain (ctx : BitVec 8) (s : State) : Out :=
  let c := ctx.toNat
  if !fwRuns s || (ctxOf s c).state == .free then .next s else
  let k := (ctxOf s c).marks.foldl storeMark (ctxOf s c)
  let top := (k.store.map mkEpoch).foldl natMax 0
  .next (setCtx s c { k with marks := [], store := k.store.filter (fun x => mkEpoch x + 16 > top), coarse := tdrop (fun i => i / 16 + 16 ≤ top) k.coarse })

/-- Insertion by time. -/
def insertTime (x : Nat × Byte × Bytes) : List (Nat × Byte × Bytes) → List (Nat × Byte × Bytes)
  | [] => [x]
  | y :: t => if x.1 < y.1 then x :: y :: t else y :: insertTime x t
/-- The coarse record in network order (R369), with its time and owner set; none before both edges are known. -/
def coarseRec (c : Nat) (k : Context) (e : Nat × Nat × Nat × Byte) : Option (Nat × Byte × Bytes) :=
  let (i, b, n, o) := e
  if b = 0 || n = 0 then none else
  let t := (b - 1) / 100000 * 100000
  some (t, o, bytesBE 4 (i / 16) ++ bytesBE 1 (i % 16) ++ [0, 0, 0] ++ bytesBE 8 t ++ bytesBE 8 (ceilDiv (n - 1) 100000 * 100000) ++
    [BitVec.ofNat 8 c, k.gen, BitVec.ofNat 8 k.part.toNat] ++ bytesBE 5 0)
/-- PHASE_REPORT_READ (R370). -/
def execPhaseReportRead (r : Req) (body : Bytes) (s : State) : Out := arrives (.phaseReportRead r body) r s fun s =>
  let kind := be body 0 1
  let first := be body 4 4
  let most := be body 8 2
  let c := r.ctx.toNat
  let fabric := isFabric (sessOf s r.sess)
  .next (request s r 0x0242 .tf (lenIs r body 12)
    (ctxChecks s r ctxReads ++
    [ ⟨2, kind == 1 && fabric, .denied⟩, ⟨5, kind == 0 || kind > 2 || be body 1 3 != 0 || be body 10 2 != 0, .badDescriptor⟩, ⟨6, most > 2000, .badLength⟩ ])
    (fun s =>
      let k := ctxOf s c
      let all : List (Nat × Byte × Bytes) :=
        if kind = 1 then k.store.filterMap (fun m => if mkEpoch m ≥ first then some (mkTime m, mkOwner m, bytesBE 32 m.toNat) else none)
        else (k.coarse.filter (fun e => e.1 / 16 ≥ first)).filterMap (coarseRec c k)
      let ok := all.filter (fun x => partAudience s k.part.toNat (if fabric then 5 else 4) x.2.1)
      let out := ((ok.foldl (fun l x => insertTime x l) []).take most).map (fun x => x.2.2)
      respond r 0x0242 .ok (bytesBE 4 k.lostMks ++ bytesBE 4 (all.length - ok.length) ++ bytesBE 4 k.dropped ++ bytesBE 2 out.length ++ [0, 0] ++ out.flatten) s))

end Sys2Proof.Machine
end

