-- ==== Sys2Proof/Machine/Checkpoints.lean ====
section
/-! DEFINITION. Checkpoints (chapter 13): the cut, the copy, the shard record, the manifest, restore (R378-R400). -/

namespace Sys2Proof.Machine

/-! ## Ranges (R380) -/

/-- A range: VBASE, GRANULES, SLOT in 64-byte units, SHUFFLE_WIDTH. -/
abbrev CkRange := Nat × Nat × Nat × Nat
def crBase (r : CkRange) : Nat := r.1
def crLen (r : CkRange) : Nat := r.2.1 * 2 ^ 21
def crSlot (r : CkRange) : Nat := r.2.2.1 * 64
def crWidth (r : CkRange) : Nat := r.2.2.2
/-- An entry of 16 bytes, and back. -/
def rangeOf (b : Bytes) (off : Nat) : CkRange := (be b off 8, be b (off + 8) 4, be b (off + 12) 3, be b (off + 15) 1)
def rangeBytes (r : CkRange) : Bytes := bytesBE 8 r.1 ++ bytesBE 4 r.2.1 ++ bytesBE 3 r.2.2.1 ++ bytesBE 1 r.2.2.2
def rangesOf (b : Bytes) (off n : Nat) : List CkRange := (List.range n).map (fun i => rangeOf b (off + 16 * i))
def plainLength (l : List CkRange) : Nat := (l.map crLen).sum
/-- The committed range of each valid bank pair, in entry order. -/
def committedRanges (ch : Charter) : List CkRange := (bankPairs ch).map (fun b => (b.1, b.2.2.1 / 2 ^ 21, b.2.2.2 / 64, 4))
/-- A range lies wholly inside sealed regions of a context that carry a right. -/
def sealedWith (s : State) (c right va len : Nat) : Bool :=
  accessCheck s c [] va len == .ok && !isAlias va &&
  (List.range ((va + len - 1) / 2 ^ 21 - va / 2 ^ 21 + 1)).all (fun i =>
    match regionAt (ctxOf s c) (if i = 0 then va else (va / 2 ^ 21 + i) * 2 ^ 21) with
    | some (_, e) => regSealed e && bit e right
    | none => false)
/-- The chunks of a range (R389): range number, offset, length. -/
def rangeChunks (i : Nat) (r : CkRange) : List (Nat × Nat × Nat) :=
  (List.range (ceilDiv (crLen r) (2 ^ 22))).map (fun k => (i, k * 2 ^ 22, natMin (2 ^ 22) (crLen r - k * 2 ^ 22)))
/-- Every chunk of a shard, in order. -/
def allChunks (l : List CkRange) : List (Nat × Nat × Nat) := ((List.range l.length).zip l).flatMap (fun x => rangeChunks x.1 x.2)

/-! ## Requests (R378, R379) -/

/-- A checkpoint opcode: refused without an ACTIVE charter, and with CKPT_MODE = 0 (R378). -/
def ckptOp (op : Nat) (lenOk : Bool) (r : Req) (body : Bytes) (pre : List Check) (checks : Nat → Charter → List Check)
    (act : Nat → Charter → State → State) (s : State) : State :=
  let p := be body 0 1
  request s r op .f lenOk
    ([⟨5, p ≥ 16 || !pEnabled s p, .badDescriptor⟩] ++ pre ++
     (match activeCharter s p with
      | some ch => ⟨2, chMode ch.doc == 0, .denied⟩ :: checks p ch
      | none => [⟨8, true, .conflict⟩]))
    (fun s => match activeCharter s p with | some ch => act p ch s | none => s)

/-! ## The cut (R381-R383) -/

/-- The context waits at its gate: a grain core waits in GRECV, and every other that runs does too. -/
def waitsAtGate (s : State) (c : Nat) : Bool :=
  let cores := (runningCores s c).map (coreOf s) ++ (ctxOf s c).saved.map (·.2)
  cores.any (fun k => k.grains.any (fun e => e.2.started && !e.2.stopped && e.2.waiting == .recv)) && cores.all (fun k => k.grains.all (fun e => !e.2.started || e.2.stopped || e.2.waiting == .recv))
/-- First form of R381. -/
def cutAtGate (s : State) (p e : Nat) : Bool :=
  (partOf s p).step.arrived == some (BitVec.ofNat 32 e) && waitsAtGate s (bankCtx s p)
/-- Second form. -/
def cutOnCommit (s : State) (p : Nat) (ch : Charter) (count e : Nat) : Bool :=
  let v := (partOf s p).step
  chBanks ch.doc && count == 0 && ((ctxOf s (bankCtx s p)).state == .active || (ctxOf s (bankCtx s p)).state == .suspended) && (v.banks == .settled || v.banks == .opened) && v.commit == some (BitVec.ofNat 32 e)
/-- The partition has a SNAPSHOT_PUSHAHEAD claim (R334). -/
def pushClaim (s : State) (p : Nat) : Bool :=
  (claimsOf s).any (fun e => fld e 47 40 == 4 && fld e 35 32 == p)
/-- Bytes of the staging area and the push-ahead map (R385). -/
def stagingBytes (granules : Nat) (l : List CkRange) : Nat := granules * 2 ^ 21 + 4 * (plainLength l / 4096)
/-- The latched pieces of a range: granule by granule, translated once (R383). -/
def latchOf (s : State) (c i : Nat) (r : CkRange) : List (Nat × Nat × Nat × Nat) :=
  ((piecesOf s c (crBase r) (crLen r)).foldl (fun (a : List (Nat × Nat × Nat × Nat) × Nat) x => (a.1 ++ [(i, a.2, x.1, x.2)], a.2 + x.2)) ([], 0)).1
/-- The shard key (R390). -/
def shardKey (s : State) (p : Nat) (ch : Charter) (serial epoch nonce : Bytes) : Bytes :=
  padTo 32 (Config.hkdf (ascii "KAZBA-FIRKIN") (keyOf s (charterSlot p 8)) (chDigest ch.doc ++ serial ++ epoch ++ nonce) 32)
/-- The Firkin header (R391). -/
def firkinHeader (s : State) (ch : Charter) (n : Snapshot) : Bytes :=
  bytesBE 4 0x4B5A464B ++ bytesBE 2 1 ++ bytesBE 2 n.ranges.length ++ serialBytes s ++ bytesBE 16 n.ckpt.toNat ++ chDigest ch.doc ++
  bytesBE 4 n.epoch.toNat ++ bytesBE 2 n.index.toNat ++ bytesBE 2 n.count.toNat ++ bytesBE 8 (plainLength n.ranges) ++ n.nonce ++
  bytesBE 4 0x00400000 ++ bytesBE 4 (allChunks n.ranges).length ++ bytesBE 8 0 ++ n.ranges.flatMap rangeBytes
/-- A free transfer ID of a session with bit 31 set (R320). -/
def freeTransfer (s : State) (sess : Nat) : Nat :=
  let used (i : Nat) : Bool :=
    s.bulk.any (fun e => e.1 == bulkKey sess (2 ^ 31 + i)) ||
    (List.range 16).any (fun p => let n := (partOf s p).snap; n.state != .idle && n.sink == sess && n.transfer.toNat == 2 ^ 31 + i)
  match (List.range 4200).find? (fun i => !used i) with | some i => 2 ^ 31 + i | none => 2 ^ 31

/-- CKPT_CUT (R380-R383). -/
def execCkptCut (r : Req) (body : Bytes) (s : State) : Out := arrives (.ckptCut r body) r s fun s =>
  let idx := be body 2 2
  let cnt := be body 4 2
  let e := be body 24 4
  let sink := be body 28 4
  let staging := be body 32 4
  let n := be body 36 1
  let listed := rangesOf body 40 n
  let meet := !noneMeet (listed.map (fun x => (crBase x, crLen x)))
  .next (ckptOp 0x0120 (lenIs r body (40 + 16 * n)) r body
    [ ⟨2, !((sessOf s sink).phase == .opened && isFabric (sessOf s sink)), .denied⟩,
      ⟨5, be body 1 1 != 0 || be body 6 2 != 0 || be body 37 3 != 0 || listed.any (fun x => crBase x ≥ 2 ^ 48), .badDescriptor⟩,
      ⟨5, listed.any (fun x => !(crWidth x == 1 || crWidth x == 2 || crWidth x == 4 || crWidth x == 16) || crSlot x == 0) || meet, .badDescriptor⟩,
      ⟨5, idx ≥ cnt || cnt > 4096, .badDescriptor⟩,
      ⟨6, n > 64 || staging == 0xFFFFFFFF || listed.any (fun x => x.2.1 == 0 || x.2.1 == 0xFFFFFFFF), .badLength⟩ ]
    (fun p ch =>
      [ ⟨4, (ctxsOf s p).any (fun c => (ctxOf s c).state == .fencing || (ctxOf s c).state == .fenced), .fenced⟩,
        ⟨5, n == 0 && !chBanks ch.doc, .badDescriptor⟩,
        ⟨7, listed.any (fun x => !sealedWith s (bankCtx s p) rREAD (crBase x) (crLen x)), .outOfRegion⟩,
        ⟨8, (partOf s p).snap.state != .idle || (ctxsOf s p).isEmpty || !(cutAtGate s p e || cutOnCommit s p ch n e) || !pushClaim s p, .conflict⟩,
        ⟨9, (placeArea s p (stagingBytes staging (if n = 0 then committedRanges ch else listed))).isNone, .notAdmitted⟩ ])
    (fun p ch s =>
      let c := bankCtx s p
      let ranges := if n = 0 then committedRanges ch else listed
      match ranges.filterMap (fun x => zotBlocks s c (crBase x) (crLen x)) with
      | t :: l => respondAt r 0x0120 .deferred (l.foldl natMax t) [] s
      | [] =>
        let (nonce, s) := drawBytes 32 s
        let id := freeTransfer s sink
        let latch := ((List.range ranges.length).zip ranges).flatMap (fun x => latchOf s c x.1 x.2)
        let m : Snapshot := {
          state := .copying, ckpt := BitVec.ofNat 128 (be body 8 16), epoch := BitVec.ofNat 32 e, index := BitVec.ofNat 16 idx,
          count := BitVec.ofNat 16 cnt, sink := sink, transfer := BitVec.ofNat 32 id, ranges := ranges, latch := latch,
          marks := ranges.map (fun _ => 0), nonce := nonce, areas := (placeArea s p (stagingBytes staging ranges)).getD [],
          staging := staging * 512, key := some (shardKey s p ch (serialBytes s) (bytesBE 4 e) nonce), banked := !cutAtGate s p e,
          stallNs := (partOf s p).snap.stallNs }
        let s := m.areas.foldl (fun s a => forget a.1 a.2 s) (setPart s p { partOf s p with snap := { m with bytes := firkinHeader s ch m } })
        let len := bytesBE 8 (plainLength ranges)
        postDev 0x0060 (bytesBE 1 p ++ slice body 8 16 ++ bytesBE 4 e ++ len) (respond r 0x0120 .ok (bytesBE 4 id ++ len) s)) s)

/-! ## The copy (R384-R392) -/

/-- The physical address of an offset in a latched range. -/
def latchPa (n : Snapshot) (i off : Nat) : Nat :=
  match n.latch.find? (fun x => x.1 == i && x.2.1 ≤ off && off < x.2.1 + x.2.2.2) with
  | some x => x.2.2.1 + (off - x.2.1)
  | none => 0
/-- A byte of the shard: of the staging area where its group was pushed ahead, or of the buffer while it has not drained, else of the
range. -/
def snapByte (s : State) (n : Snapshot) (i off : Nat) : Byte :=
  let pa := latchPa n i off
  match tget 0 n.map (pa / 4096) with
  | 0 => mget s.mem pa
  | k + 1 =>
    match n.stage.find? (fun x => x.1 == k) with
    | some (_, b) => b.getD (pa % 4096) 0
    | none => mget s.mem (stagePa n k + pa % 4096)
def snapBytes (s : State) (n : Snapshot) (i off len : Nat) : Bytes := (List.range len).map (fun k => snapByte s n i (off + k))
/-- A poisoned line in part of a range, or in the staging slot that stands for its group (R395). -/
def snapPoison (s : State) (n : Snapshot) (i off len : Nat) : Bool :=
  len != 0 && (List.range ((off + len - 1) / 64 - off / 64 + 1)).any (fun k =>
    let pa := latchPa n i ((off / 64 + k) * 64)
    match tget 0 n.map (pa / 4096) with
    | 0 => poisoned s pa
    | j + 1 => !n.stage.any (fun x => x.1 == j) && poisoned s (stagePa n j + pa % 4096))
/-- The checks of R388 on one slot. -/
def slotStatus (s : State) (p : Nat) (ch : Charter) (n : Snapshot) (i off size : Nat) : Status :=
  let c := bankCtx s p
  let b := snapBytes s n i off 64
  let h : Hdr := BitVec.ofNat 512 (natLE b)
  if snapPoison s n i off 64 then .poison
  else if allZero b then .ok
  else match hdrCheck (some (p, c, (ctxOf s c).gen.toNat)) h with
  | some (_, st) => st
  | none =>
    if footprint (hPayload h) > size then .badLength
    else if hPois h || snapPoison s n i off size then .poison
    else if !audience ch 2 (hOwner h) then .denied
    else if crc32c (snapBytes s n i (off + 64) (hPayload h)) != hPayCrc h then .checksumFail
    else .ok
/-- The slots of a range that start in [off, off + len). -/
def slotStarts (r : CkRange) (off len : Nat) : List Nat :=
  let z := natMax 1 (crSlot r)
  ((List.range (len / z + 2)).map (fun k => (off / z + k) * z)).filter (fun o => off ≤ o && o < off + len && o + z ≤ crLen r)
/-- The 64 header bytes of the slot at o are zero. A slot that begins in front of the chunk at off is judged by what was copied of it,
since its range may have been written behind the watermark. -/
def slotEmpty (s : State) (n : Snapshot) (i o off : Nat) : Bool :=
  allZero (if o < off then slice n.plain (n.plain.length - (off - o)) 64 else snapBytes s n i o 64)
/-- The first slot that fails, or POISON for a poisoned line in the rest of a slot that began in front (R395). -/
def chunkStatus (s : State) (p : Nat) (ch : Charter) (n : Snapshot) (i : Nat) (r : CkRange) (off len : Nat) : Status :=
  let z := natMax 1 (crSlot r)
  let o := off / z * z
  if o < off && o + z ≤ crLen r && !slotEmpty s n i o off && snapPoison s n i off (natMin len (o + z - off)) then .poison else
  match ((slotStarts r off len).map (fun o => slotStatus s p ch n i o (crSlot r))).find? (· != .ok) with
  | some st => st
  | none => .ok
/-- The captures of the slots of a chunk that checks 1-5 refuse: of the first that fails. The snapshot engine has no code of its own
in R74; its captures name core 31 and engine 7, as 0xFFFF does (DESIGN CHOICE, log entry 124). -/
def slotRefused (s : State) (p : Nat) (ch : Charter) (n : Snapshot) (i : Nat) (r : CkRange) (off len : Nat) : State :=
  let c := bankCtx s p
  match (slotStarts r off len).find? (fun o => slotStatus s p ch n i o (crSlot r) != .ok) with
  | none => s
  | some o =>
    let b := snapBytes s n i o 64
    let h : Hdr := BitVec.ofNat 512 (natLE b)
    if snapPoison s n i o 64 || allZero b then s else
    match hdrCheck (some (p, c, (ctxOf s c).gen.toNat)) h with
    | some (k, st) => headerRefused c h k st { addr := latchPa n i o, core := 31, engine := 7 } s
    | none => s
/-- The bytes of a chunk: zeros for an empty slot (R388) and behind the last whole slot (R380). -/
def chunkBytes (s : State) (n : Snapshot) (i : Nat) (r : CkRange) (off len : Nat) : Bytes :=
  let z := natMax 1 (crSlot r)
  padTo len ((List.range ((off + len - 1) / z + 1 - off / z)).flatMap (fun k =>
    let o := (off / z + k) * z
    let lo := natMax off o
    let hi := natMin (off + len) (o + z)
    if o + z > crLen r || slotEmpty s n i o off then List.replicate (hi - lo) 0 else snapBytes s n i lo (hi - lo)))
/-- shuffle of R389, and its inverse. -/
def shuffle (w : Nat) (b : Bytes) : Bytes :=
  let n := b.length / natMax 1 w
  (List.range w).flatMap (fun p => (List.range n).map (fun i => b.getD (i * w + p) 0))
def unshuffle (w : Nat) (b : Bytes) : Bytes :=
  let n := b.length / natMax 1 w
  (List.range n).flatMap (fun i => (List.range w).map (fun p => b.getD (p * n + i) 0))

def headerDigest (hdr : Bytes) : Bytes := digestBytes (Config.sha512 hdr)
def chunkIv (n : Nat) : Bytes := bytesBE 4 0 ++ bytesBE 8 n
def chunkPrefix (n stored : Nat) : Bytes := bytesBE 8 n ++ bytesBE 4 stored ++ bytesBE 4 0
/-- The chunk table of R391. -/
def tableBytes (t : Tbl (Nat × Nat)) (count : Nat) : Bytes :=
  (List.range count).flatMap (fun i => let x := tget (0, 0) t i; bytesBE 8 x.1 ++ bytesBE 4 x.2 ++ bytesBE 4 0)
/-- Bytes 0x00-0x4F of the trailer. -/
def trailerHead (tableOff : Nat) (plainDigest : Bytes) : Bytes := bytesBE 4 0x4B5A4645 ++ bytesBE 4 0 ++ bytesBE 8 tableOff ++ plainDigest
def tableTag (key hdr table trailer : Bytes) : BitVec 128 :=
  (Config.gcmSeal key (bytesBE 4 0 ++ bytesBE 8 (2 ^ 64 - 1)) (headerDigest hdr ++ table ++ trailer) []).2
def headerLen (n : Snapshot) : Nat := 0xA0 + 16 * n.ranges.length

/-- A chunk joins the shard. -/
def addChunk (n : Snapshot) (i off len width : Nat) (plain : Bytes) : Snapshot :=
  let key := n.key.getD []
  let z := Config.zstd (shuffle width plain)
  let pre := chunkPrefix n.chunk (z.length + 16)
  let (x, t) := Config.gcmSeal key (chunkIv n.chunk) (headerDigest (n.bytes.take (headerLen n)) ++ pre) z
  { n with
    bytes := n.bytes ++ (pre ++ x ++ bytesBE 16 t.toNat), table := tset n.table n.chunk (n.bytes.length, z.length + 16), plain := n.plain ++ plain,
    chunk := n.chunk + 1, copied := n.copied + len, marks := (List.range n.marks.length).map (fun k => if k = i then off + len else n.marks.getD k 0) }
/-- After the last chunk: table and trailer. -/
def endShard (n : Snapshot) : Snapshot :=
  let count := (allChunks n.ranges).length
  if n.chunk < count then n else
  let key := n.key.getD []
  let table := tableBytes n.table count
  let head := trailerHead n.bytes.length (digestBytes (Config.sha512 (n.nonce ++ n.plain)))
  { n with bytes := n.bytes ++ (table ++ head ++ bytesBE 16 (tableTag key (n.bytes.take (headerLen n)) table head).toNat) }

/-- The shard goes to the sink in BULK datagrams of WINDOW 0xC0, by segments of 16 MiB (R392), as far as the session's window and
the peer's pauses of the unbounded class let it (R303, R296). -/
def shardSend (p : Nat) : Nat → State → State
  | 0, s => s
  | f + 1, s =>
    let n := (partOf s p).snap
    let q := sessOf s n.sink
    let whole := n.chunk == (allChunks n.ranges).length
    let left := n.bytes.length - n.sent
    let k := natMin (natMin (natMax 64 (chunkSize s q)) (2 ^ 24 - n.sent % 2 ^ 24)) (if whole then left else left / 64 * 64)
    if n.state != .copying || n.sentAll || k = 0 || q.unacked.length ≥ 1024 || !portOpen s q.port || classPaused s 3 then s else
    let upTo_ := n.sent + k
    let all := whole && upTo_ == n.bytes.length
    let sub := mkSub n.transfer.toNat 0xC0 (n.sent / 2 ^ 24) (n.sent % 2 ^ 24) k (all || upTo_ % 2 ^ 24 == 0) all
    let s := setPart s p { partOf s p with snap := { n with sent := upTo_, sentAll := all } }
    shardSend p f (sendChunk n.sink (.shard p n.transfer.toNat) (bulkCipherKey s n.sink true 0) sub (slice n.bytes n.sent k) s)

/-- SNAPSHOT_CHUNK (R384, R388-R392): the engine takes the next chunk; no chunk leaves before its slots have passed. -/
def execSnapshotChunk (part : BitVec 4) (s : State) : Out :=
  let p := part.toNat
  let n := (partOf s p).snap
  if n.state != .copying || n.sentAll then .next s else
  match activeCharter s p, (allChunks n.ranges)[n.chunk]? with
  | some ch, some (i, off, len) =>
    let r := n.ranges.getD i (0, 0, 0, 0)
    (match chunkStatus s p ch n i r off len with
    | .ok =>
      let m := endShard (addChunk n i off len (crWidth r) (chunkBytes s n i r off len))
      .next (shardSend p (m.bytes.length / 64 + 2) (setPart s p { partOf s p with snap := m }))
    | st => .next (snapEnd p st (slotRefused s p ch n i r off len)))
  | some _, none => .next (shardSend p (n.bytes.length / 64 + 2) s)
  | none, _ => .next s

/-! ## Status, the shard record (R379, R393, R395) -/

def snapCode : SnapState → Nat
  | .idle => 0 | .copying => 1 | .sent => 2
/-- CKPT_STATUS (R379). -/
def execCkptStatus (r : Req) (body : Bytes) (s : State) : Out := arrives (.ckptStatus r body) r s fun s =>
  .next (ckptOp 0x0121 (lenIs r body 1) r body [] (fun _ _ => []) (fun p _ s =>
    let n := (partOf s p).snap
    respond r 0x0121 .ok (bytesBE 1 (snapCode n.state) ++ bytesBE 8 n.copied ++ bytesBE 8 n.sent ++ bytesBE 4 n.pushed ++ bytesBE 8 n.stallNs) s) s)

/-- Bytes 0x000-0x14F of a shard record. -/
def shardRecord (s : State) (n : Snapshot) : Bytes :=
  bytesBE 4 0x4B5A5348 ++ bytesBE 2 1 ++ bytesBE 2 0x01D4 ++ slice n.bytes 0x008 8 ++ slice n.bytes 0x010 16 ++ slice n.bytes 0x020 64 ++
  slice n.bytes 0x060 4 ++ slice n.bytes 0x064 2 ++ slice n.bytes 0x066 2 ++ slice n.bytes 0x068 8 ++ bytesBE 8 n.bytes.length ++ bytesBE 8 (now s) ++
  slice n.bytes (n.bytes.length - 80) 64 ++ digestBytes (Config.sha512 n.bytes) ++ digestBytes (Config.sha512 s.boot.manifest) ++
  bytesBE 4 n.banked.toNat ++ bytesBE 12 0
/-- CKPT_STORED (R393): the signed record; a repeated one for the same transfer gets the same record. -/
def execCkptStored (r : Req) (body : Bytes) (s : State) : Out := arrives (.ckptStored r body) r s fun s =>
  let id : W32 := BitVec.ofNat 32 (be body 1 4)
  let len := be body 5 8
  .next (ckptOp 0x0122 (lenIs r body 13) r body [] (fun p _ =>
    let n := (partOf s p).snap
    let again := n.state == .idle && (match n.record with | some (t, _) => t == id | none => false)
    [ ⟨6, (n.state == .sent && len != n.bytes.length) ||
         (again && (match n.record with | some (_, b) => len != be b 0x070 8 | none => false)), .badLength⟩, ⟨8, !again && (n.state != .sent || n.transfer != id), .conflict⟩ ])
    (fun p _ s =>
      let n := (partOf s p).snap
      match n.state, n.record with
      | .idle, some (_, b) => respond r 0x0122 .ok b s
      | _, _ =>
        let b := shardRecord s n
        let b := b ++ identitySign s "KAZBA-SHARD-V1" b
        respond r 0x0122 .ok b (setPart s p { partOf s p with snap := { ({} : Snapshot) with record := some (n.transfer, b), stallNs := n.stallNs } })) s)

/-- CKPT_ABANDON (R395). -/
def execCkptAbandon (r : Req) (body : Bytes) (s : State) : Out := arrives (.ckptAbandon r body) r s fun s =>
  .next (ckptOp 0x0123 (lenIs r body 1) r body [] (fun _ _ => []) (fun p _ s => respond r 0x0123 .ok [] (snapEnd p .ok s)) s)

/-! ## The manifest (R394, R397) -/

def mnCount (m : Bytes) : Nat := be m 6 2
def mnRecord (m : Bytes) (i : Nat) : Bytes := slice m (0x70 + 468 * i) 468
/-- Record i of a manifest is in order and carries the common fields. -/
def recordOk (m : Bytes) (i : Nat) : Bool :=
  let b := mnRecord m i
  be b 0 4 == 0x4B5A5348 && be b 4 2 == 1 && be b 6 2 == 0x01D4 && slice b 0x010 16 == slice m 0x010 16 && slice b 0x020 64 == slice m 0x020 64 &&
  slice b 0x060 4 == slice m 0x060 4 && be b 0x064 2 == i && be b 0x066 2 == mnCount m
/-- What the last fragment's check finds wrong. -/
def manifestBad (ch : Charter) (m : Bytes) : Bool :=
  m.length < 0x70 || be m 0 4 != 0x4B5A4D46 || be m 4 2 != 1 || mnCount m == 0 || mnCount m > 4096 || be m 8 8 != m.length ||
  m.length != 0x70 + 468 * mnCount m || slice m 0x020 64 != chDigest ch.doc || be m 0x064 12 != 0 || (List.range (mnCount m)).any (fun i => !recordOk m i)
/-- CKPT_MANIFEST_LOAD (R397): contiguous fragments; one at offset 0 begins a new load. -/
def execCkptManifestLoad (r : Req) (body : Bytes) (s : State) : Out := arrives (.ckptManifestLoad r body) r s fun s =>
  let last := be body 1 1
  let off := be body 4 8
  let data := body.drop 12
  .next (ckptOp 0x0124 (lenMin r body 12) r body
    [ ⟨5, last > 1 || be body 2 2 != 0, .badDescriptor⟩,
      ⟨5, (let v := (partOf s (be body 0 1)).rest; off != 0 && (v.whole || off != v.manifest.length)), .badDescriptor⟩, ⟨6, data.length > 65488 || off + data.length > 1917040, .badLength⟩ ]
    (fun p ch =>
      let v := (partOf s p).rest
      let m := if off = 0 then data else v.manifest ++ data
      [ ⟨5, last == 1 && manifestBad ch m, .badDescriptor⟩ ])
    (fun p _ s =>
      let v := (partOf s p).rest
      let m := if off = 0 then data else v.manifest ++ data
      respond r 0x0124 .ok (if last = 1 then digestBytes (Config.sha512 m) else [])
        (setPart s p { partOf s p with rest := { v with manifest := m, whole := last == 1 } })) s)

/-! ## Restore (R397, R398) -/

/-- CKPT_RESTORE_OPEN (R397). -/
def execCkptRestoreOpen (r : Req) (body : Bytes) (s : State) : Out := arrives (.ckptRestoreOpen r body) r s fun s =>
  let place := be body 1 1
  let idx := be body 2 2
  let id := be body 5 4
  let base := be body 9 8
  .next (ckptOp 0x0125 (lenIs r body 17) r body
    [⟨5, place > 1 || be body 4 1 != 0 || nbit id 31, .badDescriptor⟩]
    (fun p ch =>
      let v := (partOf s p).rest
      let c := bankCtx s p
      let len := be (mnRecord v.manifest idx) 0x068 8
      let k := ctxOf s c
      [ ⟨2, !v.whole || authCount ch (Config.sha512 v.manifest) < chQuorum ch.doc, .denied⟩,
        ⟨5, idx ≥ mnCount v.manifest, .badDescriptor⟩,
        ⟨7, place == 1 && !(ctxsOf s p).isEmpty && !sealedWith s c rWRITE base len, .outOfRegion⟩,
        ⟨8, (ctxsOf s p).isEmpty || k.state != .creating || !k.loaded || (v.isOpen && (sessOf s v.sess).phase == .opened), .conflict⟩,
        ⟨8, s.bulk.any (fun x => x.1 == bulkKey r.sess id), .conflict⟩ ])
    (fun p ch s =>
      let c := bankCtx s p
      let v := (partOf s p).rest
      let rec_ := mnRecord v.manifest idx
      let named : List (Nat × Nat) :=
        if place = 1 then [(base, be rec_ 0x068 8)] else if chBanks ch.doc then (committedRanges ch).map (fun x => (crBase x, crLen x)) else []
      match named.filterMap (fun x => zotBlocks s c x.1 x.2) with
      | t :: l => respondAt r 0x0125 .deferred (l.foldl natMax t) [] s
      | [] =>
        let s := restEnd p .linkLost s
        let v := (partOf s p).rest
        respond r 0x0125 .ok [] (setPart s p { partOf s p with rest := { ({} : Restore) with
          manifest := v.manifest, whole := v.whole, isOpen := true, shard := idx, transfer := BitVec.ofNat 32 id,
          reloc := if place = 1 then some base else none, sess := r.sess, record := rec_ } })) s)

/-- Where the ranges of a shard go: as recorded, or back to back from the relocation base. -/
def placeRanges (reloc : Option Nat) (l : List CkRange) : List CkRange :=
  match reloc with
  | none => l
  | some b => (l.foldl (fun (a : List CkRange × Nat) x => (a.1 ++ [(a.2, x.2)], a.2 + crLen x)) ([], b)).1

/-- The header's own fields, and those that must match the record (check 1 of R398). -/
def firkinHeaderOk (h rec_ : Bytes) : Bool :=
  let l := rangesOf h 0xA0 (be h 6 2)
  be h 0 4 == 0x4B5A464B && be h 4 2 == 1 && slice h 0x008 8 == slice rec_ 0x008 8 && slice h 0x010 16 == slice rec_ 0x010 16 &&
  slice h 0x020 64 == slice rec_ 0x020 64 && slice h 0x060 4 == slice rec_ 0x060 4 && slice h 0x066 2 == slice rec_ 0x066 2 &&
  slice h 0x068 8 == slice rec_ 0x068 8 && be h 0x068 8 == plainLength l && be h 0x090 4 == 0x00400000 &&
  be h 0x094 4 == (allChunks l).length && be h 0x098 8 == 0 &&
  l.all (fun x => x.2.1 != 0 && crSlot x != 0 && (crWidth x == 1 || crWidth x == 2 || crWidth x == 4 || crWidth x == 16))
/-- The placement condition of R397. -/
def placementOk (s : State) (p : Nat) (ch : Charter) (reloc : Option Nat) (l : List CkRange) : Bool :=
  if reloc.isNone && chBanks ch.doc then l.map (fun x => (x.1, x.2.1)) == (committedRanges ch).map (fun x => (x.1, x.2.1))
  else (placeRanges reloc l).all (fun x => sealedWith s (bankCtx s p) rWRITE (crBase x) (crLen x))

/-- A restore has succeeded (R398). -/
def restoreDone (p : Nat) (ch : Charter) (s : State) : State :=
  let v := (partOf s p).rest
  let c := bankCtx s p
  let e : W32 := BitVec.ofNat 32 (be v.record 0x060 4)
  let s := (runningCores s c).foldl (fun s i => setCore s i { coreOf s i with epoch := e }) s
  let s := if chBanks ch.doc && v.reloc.isNone then
      setStep p (fun x => { x with banks := .settled, commit := some e, wrOk := false, arrived := none }) s else s
  restEnd p .ok s

/-- The end of the stream (checks 4 and 5): the table, the trailer, the digests. -/
def restoreTail (p : Nat) (ch : Charter) (v : Restore) (s : State) : State :=
  let count := be v.hdr 0x094 4
  let table := slice v.bytes v.pos (16 * count)
  let t := slice v.bytes (v.pos + 16 * count) 96
  let plain := (List.range count).flatMap (fun i => tget [] v.plain i)
  if v.bytes.length != v.pos + 16 * count + 96 || table != tableBytes v.got count || be t 0 4 != 0x4B5A4645 || be t 4 4 != 0 || be t 8 8 != v.pos
  then restEnd p .badDescriptor s
  else if be t 0x50 16 != (tableTag (v.key.getD []) v.hdr table (t.take 0x50)).toNat then restEnd p .tagFail s
  else if slice t 0x10 64 != slice v.record 0x080 64 || slice t 0x10 64 != digestBytes (Config.sha512 (slice v.hdr 0x070 32 ++ plain)) ||
    digestBytes (Config.sha512 v.bytes) != slice v.record 0x0C0 64 then restEnd p .checksumFail s
  else restoreDone p ch s

/-- One chunk frame, whole in the stream (checks 2 to 4). -/
def restoreChunk (p : Nat) (v : Restore) (stored : Nat) (s : State) : State :=
  let pre := slice v.bytes v.pos 16
  let i := be pre 0 8
  let l := rangesOf v.hdr 0xA0 (be v.hdr 6 2)
  match Config.gcmOpen (v.key.getD []) (chunkIv i) (headerDigest v.hdr ++ pre) (slice v.bytes (v.pos + 16) (stored - 16))
      (BitVec.ofNat 128 (be v.bytes (v.pos + stored) 16)) with
  | none => restEnd p .tagFail s
  | some z =>
    match Config.unzstd z, (allChunks l)[i]? with
    | some x, some (k, off, len) =>
      if x.length != len || v.got.any (fun e => e.1 == i) || be pre 12 4 != 0 then restEnd p .badDescriptor s else
      let b := unshuffle (crWidth (l.getD k (0, 0, 0, 0))) x
      let va := crBase ((placeRanges v.reloc l).getD k (0, 0, 0, 0)) + off
      let c := bankCtx s p
      (match accessCheck s c [] va len with
      | .ok =>
        let s := setPart s p { partOf s p with rest := { v with
          pos := v.pos + 16 + stored, got := tset v.got i (v.pos, stored), plain := tset v.plain i b, wrote := v.wrote ++ [(va, len)] } }
        (match putVirtual 0x49 c va b s with
        | (s, .ok) => s
        | (s, st) => restEnd p st s)
      | _ => restEnd p .outOfRegion s)
    | _, _ => restEnd p .badDescriptor s

/-- The bytes received so far are checked, one part after another, while a whole part is there. -/
def restoreRun (p : Nat) (ch : Charter) : Nat → State → State
  | 0, s => s
  | f + 1, s =>
    let v := (partOf s p).rest
    let have_ := v.bytes.length - v.pos
    let last := v.ended == some v.bytes.length
    let short (s : State) : State := if last then restEnd p .badDescriptor s else s
    if !v.isOpen then s
    else if v.hdr.isEmpty then
      let n := be v.bytes 6 2
      if have_ < 0xA0 then short s
      else if n = 0 || n > 64 then restEnd p .badDescriptor s
      else if have_ < 0xA0 + 16 * n then short s
      else
        let h := v.bytes.take (0xA0 + 16 * n)
        if !firkinHeaderOk h v.record then restEnd p .badDescriptor s
        else if !placementOk s p ch v.reloc (rangesOf h 0xA0 n) then restEnd p .outOfRegion s
        else
          let key := shardKey s p ch (slice h 0x008 8) (slice h 0x060 4) (slice h 0x070 32)
          restoreRun p ch f (setPart s p { partOf s p with rest := { v with hdr := h, pos := h.length, key := some key } })
    else if v.got.length < be v.hdr 0x094 4 then
      let stored := be v.bytes (v.pos + 8) 4
      if have_ < 16 then short s
      else if stored < 16 then restEnd p .badDescriptor s
      else if have_ < 16 + stored then short s
      else restoreRun p ch f (restoreChunk p v stored s)
    else if have_ < 16 * be v.hdr 0x094 4 + 96 && !last then s
    else restoreTail p ch v s

/-- Pieces that continue the stream join it. -/
def joinHeld : Nat → Restore → Restore
  | 0, v => v
  | f + 1, v =>
    match v.held.find? (fun x => x.1 == v.bytes.length) with
    | some x => joinHeld f { v with bytes := v.bytes ++ x.2, held := v.held.filter (fun y => y.1 != x.1) }
    | none => v
/-- A piece of the stream arrives (R316, R398): a byte range that was received already is ignored. -/
def restorePiece (p off : Nat) (b : Bytes) (last : Bool) (s : State) : State :=
  let v := (partOf s p).rest
  match activeCharter s p with
  | none => s
  | some ch =>
    if b.isEmpty || off < v.bytes.length || v.held.any (fun x => rangesMeet off b.length x.1 x.2.length) then s else
    let v := { v with held := v.held ++ [(off, b)], ended := if last then some (off + b.length) else v.ended }
    let v := joinHeld v.held.length v
    restoreRun p ch (v.bytes.length + 2) (setPart s p { partOf s p with rest := v })
/-- The open restore that a session's transfer ID belongs to. -/
def restoreOf (s : State) (sess id : Nat) : Option Nat :=
  (List.range 16).find? (fun p => let v := (partOf s p).rest; v.isOpen && v.sess == sess && v.transfer.toNat == id)

end Sys2Proof.Machine
end

