-- ==== Sys2Proof/Machine/Bulk.lean ====
section
/-! DEFINITION. Datagrams of bulk transfers and their acknowledgement (R302, R303, R316-R319, R392). -/

namespace Sys2Proof.Machine

/-- The window whose key protects a datagram from the host: the transfer's, or the session's own. -/
def datagramWindow (s : State) (sess : Nat) (sub : BitVec 256) : BulkWindow :=
  match s.bulk.find? (fun x => x.1 == bulkKey sess (subId sub)) with
  | some (_, b) => b.copy
  | none => tget 0 (sessOf s sess).wins (subWindow sub)
def orphan (s : State) : State := { s with host := { s.host with orphans := s.host.orphans + 1 } }

/-- A chunk of a restore's stream (R316, R397). -/
def restoreChunkIn (sess : Nat) (sub : BitVec 256) (chunk : Bytes) (s : State) : State :=
  match restoreOf s sess (subId sub) with
  | some p =>
    if fld sub 149 0 != 0 || chunk.length != subLength sub || chunk.length > 8192 then orphan s
    else restorePiece p (subSlot sub * 2 ^ 24 + subOffset sub) chunk (bit sub 150) s
  | none => orphan s

/-- The place e of the last byte of a chunk in its transfer: each tile before it counts its 64 header bytes and its payload (R318). -/
def placeOf (b : Bulk) (sub : BitVec 256) (n : Nat) : Nat := (subSlot sub - b.first) * (64 + bwPayload b.copy) + 64 + subOffset sub + n
/-- A decrypted chunk of a host-in transfer: written, or held in the receive buffer while its write stalls on push-ahead. -/
def takeChunk (sess : Nat) (sub : BitVec 256) (chunk : Bytes) (s : State) : State :=
  match chunkFits s sess sub chunk.length with
  | none => orphan s
  | some (key, b) =>
    let b := { b with late := natMax b.late (lateness s b (placeOf b sub chunk.length)) }
    match chunkIn key b sub chunk s with
    | (s, true) => s
    | (s, false) => pfcCheck { s with bulk := tset s.bulk key b, host := { s.host with held := s.host.held ++ [(sess, sub, chunk)] } }

/-- The header of a received BULK datagram with its LENGTH as it arrived (R301). -/
def bulkHeader (sess seq len : Nat) (h : BulkHead) : BitVec 256 :=
  BitVec.ofNat 256 (h.head.version.toNat * 2 ^ 248 + 3 * 2 ^ 240 + h.head.flags.toNat * 2 ^ 232 + h.head.rsvHi.toNat * 2 ^ 224 + sess % 2 ^ 32 * 2 ^ 192 +
    seq % 2 ^ 48 * 2 ^ 144 + h.acks.ackSeq % 2 ^ 48 * 2 ^ 96 + h.acks.sack.toNat * 2 ^ 64 +
    (match h.head.len with | some l => l.toNat | none => len) % 2 ^ 16 * 2 ^ 48 + h.head.rsvLo.toNat)
/-- The sub-header at the front of a BULK payload (R316). -/
def subOf (text : Bytes) : BitVec 256 := BitVec.ofNat 256 (be text 0 32)
/-- The plaintext of a BULK datagram. Its window is named inside, so the keys that may protect it are tried in turn: the session's, those of
its windows and of its transfers; the one its sub-header calls for counts (R302, R317; DEDUCED, log entry 160). -/
def openBulk (s : State) (sess seq : Nat) (h : BulkHead) (cipher : Bytes) (tag : BitVec 128) : Option Bytes :=
  let ws : List BulkWindow := 0 :: ((sessOf s sess).wins.map (·.2) ++ (s.bulk.filter (fun e => e.2.sess == sess)).map (·.2.copy))
  ws.findSome? (fun w =>
    let k := bulkCipherKey s sess false w
    (Config.gcmOpen k.1 (k.2 ++ bytesBE 8 seq) (bytesBE 32 (bulkHeader sess seq cipher.length h).toNat) cipher tag).filter
      (fun t => bulkCipherKey s sess false (datagramWindow s sess (subOf t)) == k))

/-- BULK_DATAGRAM (R301-R304, R316-R318, R397): accepted once, within the window, with a tag that verifies. -/
def execBulkDatagram (sess seq : Nat) (head : BulkHead) (cipher : Bytes) (tag : BitVec 128) (s : State) : Out :=
  let text := openBulk s sess seq head cipher tag
  .next (arrivesNow sess seq { head.head with tagBad := head.head.tagBad || text.isNone } head.acks s fun s =>
    let sub := subOf (text.getD [])
    let chunk := (text.getD []).drop 32
    if (text.getD []).length < 32 then orphan s
    else if subWindow sub = 0xC0 then restoreChunkIn sess sub chunk s else takeChunk sess sub chunk s)

/-- The priority of an out transfer is paused by the peer (R296). -/
def outPaused (s : State) (b : Bulk) : Bool := classPaused s (if b.bounded then 2 else 3)
/-- BULK_OUT_CHUNK (R319): the next chunk of a host-out transfer leaves. -/
def execBulkOutChunk (key : Nat) (s : State) : Out :=
  match s.bulk.find? (fun e => e.1 == key) with
  | none => .next s
  | some (_, b) =>
    let q := sessOf s b.sess
    if !b.out || b.sentAll || b.slot ≥ b.count || !hostUp s || q.phase != .opened || outPaused s b || q.unacked.length ≥ 1024 then .next s
    else .next (chunkOut key b s)

/-! ## Acknowledgement (R303) -/

/-- Shards that stream to sessions go on (R392). -/
def shardsOn (s : State) : State :=
  (List.range 16).foldl (fun s p => let n := (partOf s p).snap
    if n.state == .copying then shardSend p (n.bytes.length / 64 + 2) s else s) s
/-- KHT_ACK (R301-R303): its SEQ is zero; what it covers leaves the window, and what waited on that goes on. -/
def execKhtAck (sess ackSeq : Nat) (ack : KhtAck) (s : State) : Out :=
  let port := (sessOf s sess).port
  if portOpen s port && ack.head.seq.getD 0 != 0 then .next (countDrop port s) else
  match refusedDatagram port sess ack.head s with
  | some s => .next s
  | none => .next (shardsOn (ackTake sess ⟨ackSeq, ack.sack⟩ s))

end Sys2Proof.Machine
end

