-- ==== Sys2Proof/Machine/Mgmt.lean ====
section
/-! DEFINITION. Requests of both ports that no partition owns, and the management port (chapter 14): reports, time, telemetry,
configuration, firmware update, title, ledger, second life (R313, R401-R420). -/

namespace Sys2Proof.Machine

/-! ## Requests of either port (R313, R403) -/

/-- ATTEST_REQUEST (R66, R313); in BOOT_HALT the boot ROM answers it on the management port (R56). -/
def execAttestRequest (r : Req) (body : Bytes) (s : State) : Out := arrives (.attestRequest r body) r s fun s =>
  if bootHalted s then
    if r.port != .mgmt then .next s else
    let answer (st : Status) (at_ : Nat) (b : Bytes) : State := emit s (.response .mgmt r.sess 0x8001 r.tag st r.ctx r.gen r.part at_ b)
    .next (if !lenIs r body 64 then answer .badLength 0 [] else
      match reportWait s with
      | some t => answer .deferred t []
      | none => countReport (answer .ok 0 (reportReply s body 0xFF)))
  else
    let part := match (sessOf s r.sess).role with | .tenant p => p.toNat | _ => 0xFF
    .next (request s r 0x0001 .any (lenIs r body 64) [] (fun s =>
      match reportWait s with
      | some t => respondAt r 0x0001 .deferred t [] s
      | none => countReport (respond r 0x0001 .ok (reportReply s body part) s)))

/-- ROM_STATUS (R56): in BOOT_HALT, the failure causes of both slots and MR0. -/
def execRomStatus (r : Req) (body : Bytes) (s : State) : Out := arrives (.romStatus r body) r s fun s =>
  if bootHalted s then
    if r.port != .mgmt then .next s else
    .next (emit s (.response .mgmt r.sess 0x8350 r.tag (if lenIs r body 0 then .ok else .badLength) r.ctx r.gen r.part 0
      (if lenIs r body 0 then [s.boot.causeA, s.boot.causeB] ++ digestBytes (tget 0 s.mrs.mr 0) else [])))
  else .next (refuseOpcode r 0x0350 s)

/-- RECOVERY_WRITE (R56): in BOOT_HALT, an image goes into one slot, unchecked, on an operator's credential. -/
def execRecoveryWrite (r : Req) (slot : BitVec 1) (image chain sig : Bytes) (s : State) : Out :=
  arrives (.recoveryWrite r slot image chain sig) r s fun s =>
  if bootHalted s then
    if r.port != .mgmt then .next s else
    let ok := match Config.certChain chain with
      | some (leaf, root) => Config.sha512 root == s.nvm.title.opRoot && Config.ecdsaVerify leaf image sig
      | none => false
    let st : Status := if !ok then .denied else if image.length > 0x04000000 then .badLength else .ok
    let base := slot.toNat * 0x04000000
    let s := if st == .ok then
        { s with nvm := { s.nvm with flash := mwrite (mzero s.nvm.flash base 0x04000000) base (image.map (· ^^^ 0xFF)) } } else s
    .next (emit s (.response .mgmt r.sess 0x8351 r.tag st r.ctx r.gen r.part 0 []))
  else .next (refuseOpcode r 0x0351 s)

/-- DEVICE_INFO (R313), on the host port only (R403). -/
def execDeviceInfo (r : Req) (body : Bytes) (s : State) : Out := arrives (.deviceInfo r body) r s fun s =>
  .next (request s r 0x0002 .any (lenIs r body 0) [⟨2, r.port == .mgmt, .denied⟩] (fun s =>
    respond r 0x0002 .ok (serialBytes s ++ bytesBE 4 s.boot.fwVersion.toNat ++ [s.host.mode] ++
      (List.range 32).map (fun l => BitVec.ofNat 8 (linkCode (linkSt s l))) ++ bytesBE 2 s.host.lldp.length ++ s.host.lldp) s))

def ptpCode : PtpState → Nat
  | .freeRun => 0 | .acquiring => 1 | .locked => 2 | .holdover => 3
/-- TIME_READ (R313). -/
def execTimeRead (r : Req) (body : Bytes) (s : State) : Out := arrives (.timeRead r body) r s fun s =>
  .next (request s r 0x0003 .any (lenIs r body 0) [] (fun s =>
    respond r 0x0003 .ok (bytesBE 8 (now s) ++ bytesBE 1 (ptpCode s.time.ptp) ++ bytesBE 8 (ofInt 64 s.time.offset) ++ bytesBE 4 s.time.steps) s))

/-- SESSION_CLOSE (R309, R313): the session closes after the response. -/
def execSessionClose (r : Req) (body : Bytes) (s : State) : Out := arrives (.sessionClose r body) r s fun s =>
  .next (request s r 0x0004 .any (lenIs r body 0) [] (fun s => closeSession r.sess (respond r 0x0004 .ok [] s)))

/-! ## Telemetry (R406) -/

/-- The record of a host-port session: 100 ms or 1 s windows, with temperature steps in 1/16 °C. -/
def hostTelemetry (s : State) (w : TelWin) (step : Int) (stat : Nat) : Bytes :=
  bytesBE 8 (now s) ++ bytesBE 2 (roundTo 5000 w.pin / 1000) ++ bytesBE 2 (ofInt 16 (roundToInt step (winHot w 0 60))) ++
    bytesBE 2 (ofInt 16 (roundToInt step (winHot w 60 72))) ++ bytesBE 2 stat
def sessionTelemetry (s : State) (fabric : Bool) : Bytes :=
  match telemetryLevel s with
  | 1 => hostTelemetry s (win100 s) 16 ((win100 s).stat.toNat * 2 ^ 11)
  | 2 => hostTelemetry s (win1k s) 80 ((win1k s).stat.toNat * 2 ^ 11)
  | _ => if fabric then hostTelemetry s (win1k s) 80 0 else bytesBE 8 (now s) ++ List.replicate 6 0xFF ++ [0, 0]
/-- The sensors of die i (DESIGN CHOICE, log entry 6): four Almandine dies, FL0, FL1, the host-port die, Morion. -/
def dieSensors (i : Nat) : Nat × Nat :=
  if i < 4 then (12 * i, 12 * i + 12) else if i = 4 then (48, 52) else if i = 5 then (52, 56) else if i = 6 then (56, 58) else (58, 60)
/-- The management record: the ten registers of R41, then the hottest reading of each die and stack. -/
def mgmtTelemetry (s : State) : Bytes :=
  (List.range 10).flatMap (fun i => bytesBE 2 ((i2cReg s (2 * i)).getD 0).toNat) ++
  (List.range 8).flatMap (fun i => bytesBE 2 (ofInt 16 (winHot (win10 s) (dieSensors i).1 (dieSensors i).2))) ++
  (List.range 12).flatMap (fun k => bytesBE 2 (ofInt 16 (winHot (win10 s) (60 + k) (61 + k))))
/-- TELEMETRY_READ (R313, R403, R406). -/
def execTelemetryRead (r : Req) (body : Bytes) (s : State) : Out := arrives (.telemetryRead r body) r s fun s =>
  let fabric := isFabric (sessOf s r.sess)
  .next (request s r 0x0005 (if r.port == .mgmt then .o else .any) (lenIs r body 0) [] (fun s =>
    respond r 0x0005 .ok (if r.port == .mgmt then mgmtTelemetry s else sessionTelemetry s fabric) s))
/-- TRACE_EXPORT (R333): every 10 ms a link under its exclusive claim sends the counters, as a control frame under the hop
tag (DESIGN CHOICE, log entry 102). -/
def execTraceExport (s : State) : Out :=
  if !fwRuns s then .next s else
  .next ((List.range 32).foldl (fun s l =>
    if linkUp s l && (linkClaim s l 1).isSome then sendCtrl l (ctrlFrame Config.traceType 0 0 (mgmtTelemetry s)) s else s) s)

/-! ## Opcodes of the management port (R403) -/

/-- A management message: on the host port its opcode is not in the message set (R313). -/
def mgmtReq (r : Req) (op : Nat) (act : State → State) (s : State) : Out :=
  if r.port == .mgmt then .next (act s) else .next (refuseOpcode r op s)
/-- UNKNOWN_MAILBOX_OPCODE (R313, R403). -/
def execUnknownMailboxOpcode (r : Req) (op : W16) (s : State) : Out := arrives (.unknownMailboxOpcode r op) r s fun s => .next (refuseOpcode r op.toNat s)

/-! ## Configuration (R331, R332, R403) -/

/-- Another session holds the shadow lock. -/
def lockedOut (s : State) (r : Req) : Bool := match s.cfg.lock with | some n => n != r.sess | none => false

/-- CONFIG_WRITE: bytes into the shadow set; it takes the lock. -/
def execConfigWrite (r : Req) (body : Bytes) (s : State) : Out := arrives (.configWrite r body) r s fun s =>
  let off := be body 0 4
  let data := body.drop 4
  mgmtReq r 0x0300 (fun s => request s r 0x0300 .o (lenMin r body 4)
    [⟨6, off == 0xFFFFFFFF || off + data.length > 65536, .badLength⟩, ⟨8, lockedOut s r, .conflict⟩]
    (fun s => respond r 0x0300 .ok [] (if data.isEmpty then s else
      { s with cfg := { s.cfg with shadow := mwrite s.cfg.shadow off data, wrote := (off, data.length) :: s.cfg.wrote, lock := some r.sess, valid := false } }))) s

/-- CONFIG_VALIDATE: the outcome, with the section and the entry of the first failure; a failure releases the lock. -/
def execConfigValidate (r : Req) (body : Bytes) (s : State) : Out := arrives (.configValidate r body) r s fun s =>
  mgmtReq r 0x0301 (fun s => request s r 0x0301 .o (lenIs r body 0) [⟨8, lockedOut s r, .conflict⟩] (fun s =>
    match validate s (shadowSet s) with
    | none => respond r 0x0301 .ok (bytesBE 6 0) { s with cfg := { s.cfg with valid := true } }
    | some f =>
      respond r 0x0301 .ok (bytesBE 2 (statusCode (orderCode f.order)) ++ bytesBE 2 f.ty ++ bytesBE 2 f.entry)
        { s with cfg := { s.cfg with valid := false, lock := none } })) s

/-- SWAP_MODE of a set: 1 IMMEDIATE, 2 STEP_BOUNDARY. -/
def swapMode (m : Mem) : Nat := setNum m 0x10 1
/-- CONFIG_SWAP (R332). -/
def execConfigSwap (r : Req) (body : Bytes) (s : State) : Out := arrives (.configSwap r body) r s fun s =>
  mgmtReq r 0x0302 (fun s => request s r 0x0302 .o (lenIs r body 0) [⟨8, lockedOut s r || !s.cfg.valid, .conflict⟩] (fun s =>
    if swapMode (shadowSet s) = 2 then respond r 0x0302 .ok [] { s with cfg := { s.cfg with armed := some (shadowSet s), lock := none } }
    else match swapRefused s (shadowSet s) with
    | some st => respond r 0x0302 st [] s
    | none => swapSet (shadowSet s) (respond r 0x0302 .ok [] s))) s

/-- CONFIG_SET_PERSISTED (R332): the write to non-volatile memory completes. -/
def execConfigSetPersisted (s : State) : Out :=
  if fwRuns s && s.cfg.fresh then .next { s with cfg := { s.cfg with fresh := false }, nvm := { s.nvm with committed := some s.cfg.active } } else .next s

/-- CONFIG_READ. A length of zero past the set is refused too (DESIGN CHOICE, log entry 142). -/
def execConfigRead (r : Req) (body : Bytes) (s : State) : Out := arrives (.configRead r body) r s fun s =>
  let off := be body 1 4
  let len := be body 5 4
  mgmtReq r 0x0303 (fun s => request s r 0x0303 .o (lenIs r body 9)
    [⟨5, be body 0 1 > 1, .badDescriptor⟩, ⟨6, off == 0xFFFFFFFF || len > 65504 || off + len > 65536, .badLength⟩]
    (fun s => respond r 0x0303 .ok (mread (if be body 0 1 = 0 then s.cfg.active else shadowSet s) off len) s)) s

/-- The active set with another P_limit, the next SET_SEQ and SWAP_MODE IMMEDIATE (R405). -/
def limitSet (s : State) (watts : Nat) : Mem :=
  let m := active s
  mwrite (mwrite (mwrite m (secOff m 6) (bytesLE 2 watts)) 0x0C (bytesLE 4 (setSeq m + 1))) 0x10 [1]
/-- POWER_LIMIT_SET (R405). -/
def execPowerLimitSet (r : Req) (body : Bytes) (s : State) : Out := arrives (.powerLimitSet r body) r s fun s =>
  let watts := be body 0 2
  let bad := watts < 1800 || watts > 3600 || watts % 10 != 0
  mgmtReq r 0x0304 (fun s =>
    let m := limitSet s watts
    request s r 0x0304 .o (lenIs r body 2)
    ([⟨5, bad, .badDescriptor⟩, ⟨8, lockedOut s r || s.cfg.armed.isSome, .conflict⟩] ++
     (if bad then [] else match validate s m with | some f => [⟨f.order, true, orderCode f.order⟩] | none => []))
    (fun s =>
      match swapRefused s m with
      | some st => respond r 0x0304 st [] s
      | none => respond r 0x0304 .ok (bytesBE 4 (setSeq m)) (swapSet m s))) s

/-! ## Alerts, the fault log, links, the port's settings -/

/-- ALERT_CLEAR (R42, R403). -/
def execAlertClear (r : Req) (body : Bytes) (s : State) : Out := arrives (.alertClear r body) r s fun s =>
  mgmtReq r 0x0305 (fun s => request s r 0x0305 .o (lenIs r body 2) [] (fun s =>
    let s := alertClear (BitVec.ofNat 16 (be body 0 2)) r.recurs s
    respond r 0x0305 .ok (bytesBE 2 s.pkg.alertCause.toNat) s)) s

def faultBytes (e : FaultEntry) : Bytes :=
  bytesBE 4 e.cycle ++ bytesBE 8 e.time.toNat ++ bytesBE 2 e.kind.toNat ++ bytesBE 2 e.unit.toNat ++ bytesBE 2 e.status.toNat ++ [e.part] ++ bytesBE 13 0
/-- FAULT_LOG_READ (R403): index 0 is the oldest entry held. -/
def execFaultLogRead (r : Req) (body : Bytes) (s : State) : Out := arrives (.faultLogRead r body) r s fun s =>
  let first := be body 0 4
  let most := be body 4 2
  mgmtReq r 0x0306 (fun s => request s r 0x0306 .o (lenIs r body 6)
    [⟨5, first ≥ 4096, .badDescriptor⟩, ⟨6, most == 0xFFFF, .badLength⟩]
    (fun s => respond r 0x0306 .ok (((s.nvm.faultLog.drop first).take (natMin most 2047)).flatMap faultBytes) s)) s

/-- LINK_UNRETIRE (R263, R403): a retired link goes to DOWN. -/
def execLinkUnretire (r : Req) (body : Bytes) (s : State) : Out := arrives (.linkUnretire r body) r s fun s =>
  let l := be body 0 1
  mgmtReq r 0x0307 (fun s => request s r 0x0307 .o (lenIs r body 1)
    [⟨5, l ≥ 32, .badDescriptor⟩, ⟨8, linkSt s l != .retired, .conflict⟩]
    (fun s =>
      let s := { s with nvm := { s.nvm with retiredLks := setBit s.nvm.retiredLks l false } }
      respond r 0x0307 .ok [] (linkMove l .down 0 (setLink s l { linkOf s l with state := .retired, retryOk := true })))) s

/-- The management port goes down, and every management session closes. -/
def mgmtDown (s : State) : State :=
  let s := closeSessions (fun _ q => q.port == .mgmt) s
  { s with mgmt := { s.mgmt with up := false, mode := 0 } }
/-- The settings are of R401's values. -/
def netOk (m : MgNet) : Bool :=
  m.mode.toNat ≤ 2 && m.ipv6.length ≤ 2 && m.ipv4.all (fun a => a.2 ≤ 32) && m.vlan ≤ 4094 && 1024 ≤ m.port && m.port ≤ 65535
/-- The port's MAC address: 0x06 and the low 40 bits of the serial (R401). -/
def mgMac (s : State) : BitVec 48 := BitVec.ofNat 48 (0x06 * 2 ^ 40 + s.fuses.serial.toNat % 2 ^ 40)
/-- The settings in force: the recovery responder of BOOT_HALT uses 1000BASE-KX with the defaults (R401). -/
def mgSettings (s : State) : MgNet := if bootHalted s then { mode := 2 } else s.nvm.mgNet
/-- MGMT_NET_SET (R401): the settings apply after the response. -/
def execMgmtNetSet (r : Req) (body : Bytes) (s : State) : Out := arrives (.mgmtNetSet r body) r s fun s =>
  mgmtReq r 0x0308 (fun s => request s r 0x0308 .o (lenMin r body 0) [⟨5, !(Config.netSettings body).any netOk, .badDescriptor⟩]
    (fun s =>
      let s := respond r 0x0308 .ok [] s
      match Config.netSettings body with
      | some m => mgmtDown { s with nvm := { s.nvm with mgNet := m } }
      | none => s)) s

/-- MG_MODE in force. -/
def mgMode (s : State) : Nat := (mgSettings s).mode.toNat
/-- MGMT_PORT_LINK_UP (R401): in mode 1 10GBASE-KR or 2 1000BASE-KX. -/
def execMgmtPortLinkUp (mode : Byte) (s : State) : Out :=
  let m := mode.toNat
  if s.mgmt.up || !(fwRuns s || bootHalted s) || m = 0 || m > 2 || !(mgMode s == 0 || mgMode s == m) then .next s
  else .next { s with mgmt := { s.mgmt with up := true, mode := mode } }
/-- MGMT_PORT_LINK_DOWN (R401): sessions stand until their timeout. -/
def execMgmtPortLinkDown (s : State) : Out :=
  if s.mgmt.up then .next { s with mgmt := { s.mgmt with up := false, mode := 0 } } else .next s

/-! ## Firmware update (R408-R411): flash bytes stand in the state as their complement -/

def slotBase (n : Nat) : Nat := n * 0x04000000
def eraseSlot (n : Nat) (s : State) : State := { s with nvm := { s.nvm with flash := mzero s.nvm.flash (slotBase n) 0x04000000 } }
def flashWrite (a : Nat) (b : Bytes) (s : State) : State := { s with nvm := { s.nvm with flash := mwrite s.nvm.flash a (b.map (· ^^^ 0xFF)) } }
def slotXspi (s : State) (n : Nat) : Bool := if n = 0 then s.pkg.xspiErrA else s.pkg.xspiErrB

/-- FW_STAGE_BEGIN (R408): the slot that did not boot is erased. -/
def execFwStageBegin (r : Req) (body : Bytes) (s : State) : Out := arrives (.fwStageBegin r body) r s fun s =>
  let n := be body 0 1
  let len := be body 1 4
  mgmtReq r 0x0310 (fun s => request s r 0x0310 .o (lenIs r body 5)
    [⟨5, n > 1, .badDescriptor⟩, ⟨6, len > 0x04000000, .badLength⟩, ⟨8, n == s.boot.source.toNat, .conflict⟩]
    (fun s =>
      if len = 0 then respond r 0x0310 .ok [] s else
      let s := eraseSlot n s
      respond r 0x0310 .ok []
        { s with nvm := { s.nvm with stageSlot := some (n, len, 0), staged := if s.nvm.staged == some n then none else s.nvm.staged } })) s

/-- FW_STAGE_DATA (R408): contiguous offsets from 0. -/
def execFwStageData (r : Req) (body : Bytes) (s : State) : Out := arrives (.fwStageData r body) r s fun s =>
  let off := be body 0 4
  let data := body.drop 4
  mgmtReq r 0x0311 (fun s =>
    let g := s.nvm.stageSlot.getD (0, 0, 0)
    request s r 0x0311 .o (lenMin r body 4)
    [ ⟨5, s.nvm.stageSlot.isSome && off != g.2.2, .badDescriptor⟩,
      ⟨6, data.length > 32768 || (s.nvm.stageSlot.isSome && off + data.length > g.2.1), .badLength⟩,
      ⟨8, s.nvm.stageSlot.isNone, .conflict⟩ ]
    (fun s =>
      let s := flashWrite (slotBase g.1 + off) data s
      respond r 0x0311 .ok [] { s with nvm := { s.nvm with stageSlot := some (g.1, g.2.1, g.2.2 + data.length) } })) s

/-- FW_STAGE_END (R408): the slot passes R54 and is STAGED, or it is erased. -/
def execFwStageEnd (r : Req) (body : Bytes) (s : State) : Out := arrives (.fwStageEnd r body) r s fun s =>
  mgmtReq r 0x0312 (fun s => request s r 0x0312 .o (lenIs r body 0) [⟨8, s.nvm.stageSlot.isNone, .conflict⟩] (fun s =>
    match s.nvm.stageSlot with
    | none => s
    | some (n, _, _) =>
      let cause := slotCheck s n (slotXspi s n)
      let m := manifestOf s n
      let s := { s with nvm := { s.nvm with stageSlot := none } }
      let s := if cause = 0 then { s with nvm := { s.nvm with staged := some n } } else eraseSlot n s
      respond r 0x0312 .ok (bytesBE 1 cause ++ bytesBE 4 (mfVersion m) ++ bytesBE 4 (mfSvn m) ++ digestBytes (Config.sha512 m))
        (postMgmt 0x0071 (bytesBE 1 n ++ bytesBE 1 cause) s))) s

/-- FW_ACTIVATE (R409): the booted slot's MAGIC is programmed to zero; a copy of its first 4 KiB is kept. -/
def execFwActivate (r : Req) (body : Bytes) (s : State) : Out := arrives (.fwActivate r body) r s fun s =>
  mgmtReq r 0x0313 (fun s => request s r 0x0313 .o (lenIs r body 0) [⟨8, s.nvm.staged.isNone, .conflict⟩] (fun s =>
    let n := s.boot.source.toNat
    let s : State :=
      if s.nvm.activation.isSome then s
      else if n > 1 then { s with nvm := { s.nvm with activation := some [] } }
      else
        let copy := srcRead s n 0 4096
        flashWrite (slotBase n + 0x200) [0, 0, 0, 0] { s with nvm := { s.nvm with activation := some copy } }
    respond r 0x0313 .ok [] s)) s

/-- FW_ABANDON (R409): the copy is restored. -/
def execFwAbandon (r : Req) (body : Bytes) (s : State) : Out := arrives (.fwAbandon r body) r s fun s =>
  mgmtReq r 0x0314 (fun s => request s r 0x0314 .o (lenIs r body 0) [] (fun s =>
    match s.nvm.activation with
    | none => respond r 0x0314 .ok [] s
    | some copy => respond r 0x0314 .ok [] (flashWrite (slotBase s.boot.source.toNat) copy { s with nvm := { s.nvm with activation := none } }))) s

/-- SVN_COMMIT (R410): an idle slot must still pass R54 at the new count. -/
def execSvnCommit (r : Req) (body : Bytes) (s : State) : Out := arrives (.svnCommit r body) r s fun s =>
  let t := be body 0 1
  mgmtReq r 0x0315 (fun s =>
    let at_ : State := { s with fuses := { s.fuses with svn := t } }
    let idle := [0, 1].filter (fun n => n != s.boot.source.toNat)
    request s r 0x0315 .o (lenIs r body 1)
    [ ⟨5, t < s.fuses.svn || (t != s.fuses.svn && t > s.boot.fwSvn.toNat), .badDescriptor⟩,
      ⟨8, t != s.fuses.svn && idle.all (fun n => slotCheck at_ n (slotXspi s n) != 0), .conflict⟩ ]
    (fun s => respond r 0x0315 .ok (bytesBE 1 t) { s with fuses := { s.fuses with svn := t } })) s

/-- DEVICE_RESET (R57, R411). -/
def execDeviceReset (r : Req) (body : Bytes) (s : State) : Out := arrives (.deviceReset r body) r s fun s =>
  mgmtReq r 0x0316 (fun s => request s r 0x0316 .o (lenIs r body 1)
    [⟨5, be body 0 1 > 1, .badDescriptor⟩, ⟨8, be body 0 1 == 0 && (List.range 16).any (fun p => (partOf s p).state != .unused), .conflict⟩]
    (fun s => deviceReset (respond r 0x0316 .ok [] s))) s

/-! ## Second life (R418) -/

/-- The key and memory steps: every numbered key slot is zeroised, every slice of every stack in service is written. -/
def wipeTenancy (s : State) : State :=
  clearSlices ((List.range 192).filter (fun n => stackIn s (stackOfSlice n))) (zeroKeys (fun k => k < 0x400) s)
/-- SECOND_LIFE: the sequence begins; its array tests end with SECOND_LIFE_TEST_DONE. -/
def execSecondLife (r : Req) (body : Bytes) (s : State) : Out := arrives (.secondLife r body) r s fun s =>
  mgmtReq r 0x0317 (fun s => request s r 0x0317 .o (lenIs r body 0)
    [⟨8, s.fuses.lifecycle != .prod || !allIdle s || s.mgmt.slRun, .conflict⟩]
    (fun s =>
      let s := closeSessions (fun _ q => q.port == .host) (respond r 0x0317 .ok [] s)
      let s := setBoot { s with mgmt := { s.mgmt with slRun := true, slAt := now s } } { s.boot with secondLifeWait := true }
      wipeTenancy { s with nvm := { s.nvm with secondLife := true, slDone := false } })) s
/-- The second-life record (R351, R417); its core pairs are not stated: a free value. -/
def secondLifeRecord (s : State) (cores : Nat) : Bytes :=
  let mask := (((List.range 192).filter (fun n => stackIn s (stackOfSlice n))).map (2 ^ ·)).sum
  bytesLE 4 0x4B5A5352 ++ bytesLE 2 1 ++ [0xFF, 0] ++ bytesLE 8 s.fuses.serial.toNat ++ bytesLE 8 s.mgmt.slAt ++ bytesLE 8 (now s) ++
    bytesLE 24 mask ++ bytesLE 2 cores ++ bytesLE 2 0 ++ bytesLE 4 (tget 0 s.ledger.counters 10) ++ bytesLE 1 s.fuses.ownerEpoch ++ bytesLE 7 0
/-- SECOND_LIFE_TEST_DONE: the lines whose cells failed twice are retired (R176), the record is committed, the fault log emptied, and the device
reset follows. -/
def execSecondLifeTestDone (s : State) : Out :=
  if !fwRuns s || !s.mgmt.slRun then .next s else
  let (n, s) := draw s
  let s := (Config.testFaults n).foldl (fun s x => retireLine x.1.toNat (x.2.1.toNat, x.2.2.1, x.2.2.2.toNat, false) s) s
  let (x, s) := draw s
  let s := ledgerAdd 13 1 (ledgerScrub (secondLifeRecord s x) s)
  .next (deviceReset (ledgerCommit { s with nvm := { s.nvm with faultLog := [], slDone := true } }))

/-! ## The service ledger (R416, R417) -/

def listBytes (total : Nat) (l : List Bytes) : Bytes := bytesBE 4 total ++ bytesBE 2 l.length ++ bytesBE 2 0 ++ l.flatten
/-- The ledger image up to its signature. -/
def ledgerImage (s : State) (nonce : Bytes) : Bytes :=
  let g := s.ledger
  let c (n k : Nat) : Bytes := bytesBE k (tget 0 g.counters n)
  let lists := listBytes g.retTotal g.retirements ++ listBytes g.tripTotal g.trips ++ listBytes g.titleTotal g.titles ++ listBytes g.scrubTotal g.scrubs
  bytesBE 4 0x4B5A4C47 ++ bytesBE 2 1 ++ bytesBE 2 0 ++ bytesBE 4 (0x308 + lists.length + 132) ++ bytesBE 4 g.saturated.toNat ++ serialBytes s ++ padTo 64 nonce ++
  c 0 4 ++ c 1 4 ++ c 2 8 ++ c 3 8 ++ c 4 8 ++ c 5 4 ++ c 6 4 ++ c 7 4 ++ c 8 2 ++ c 9 2 ++ bytesBE 2 (ofInt 16 g.tdiePeak) ++ bytesBE 2 (ofInt 16 g.thbmPeak) ++
  c 10 4 ++ c 11 4 ++ c 12 2 ++ c 13 2 ++ c 14 2 ++ bytesBE 1 s.fuses.ownerEpoch ++ bytesBE 1 s.fuses.svn ++ bytesBE 4 (cellsActive s) ++
  bytesBE 2 (retiredLines s) ++ bytesBE 2 g.stackMask.toNat ++ bytesBE 1 (lifecycleCode s.fuses.lifecycle) ++ bytesBE 3 0 ++
  (List.range 12).flatMap (fun k => c (15 + k) 8) ++
  (List.range 32).flatMap (fun l => bytesBE 8 (tget 0 g.linkSym l) ++ bytesBE 4 (tget 0 g.linkFences l) ++ bytesBE 2 (tget 0 g.linkDegSec l) ++
    bytesBE 1 (bit s.nvm.retiredLks l).toNat ++ [0]) ++ lists
/-- LEDGER_EXPORT (R416); a retired device answers it on both ports (R414). -/
def execLedgerExport (r : Req) (body : Bytes) (s : State) : Out := arrives (.ledgerExport r body) r s fun s =>
  if r.port == .host && s.fuses.lifecycle != .retired then .next (refuseOpcode r 0x0320 s) else
  .next (request s r 0x0320 .any (lenIs r body 64) [] (fun s =>
    let b := ledgerImage s body
    respond r 0x0320 .ok (b ++ identitySign s "KAZBA-LEDGER-V1" b) s))

/-! ## Title (R412-R414) -/

/-- TITLE_CHALLENGE. -/
def execTitleChallenge (r : Req) (body : Bytes) (s : State) : Out := arrives (.titleChallenge r body) r s fun s =>
  mgmtReq r 0x0330 (fun s => request s r 0x0330 .h (lenIs r body 0) [] (fun s =>
    let (n, s) := drawBytes 64 s
    respond r 0x0330 .ok (n ++ bytesBE 1 s.fuses.ownerEpoch) { s with mgmt := { s.mgmt with challenge := some (digestOf n, now s) } })) s
/-- TITLE_NONCE_EXPIRY: 60 s have passed. -/
def execTitleNonceExpiry (s : State) : Out :=
  if s.mgmt.challenge.isSome then .next { s with mgmt := { s.mgmt with challenge := none } } else .next s
/-- The nonce of the latest challenge, while it is valid. -/
def titleNonce (s : State) (n : Bytes) : Bool :=
  match s.mgmt.challenge with
  | some (d, t) => digestBytes d == n && now s ≤ t + 60000000000
  | none => false
/-- A challenge's nonce serves one request. -/
def spendNonce (r : Req) (s t : State) : State :=
  if mailboxOpen s r && holds s r .h then { t with mgmt := { t.mgmt with challenge := none } } else t

/-- The new title record of a TITLE_TRANSFER. -/
def titleOf (body : Bytes) : Title :=
  { holder := Config.sha512 (slice body 0 133), opRoot := digestOf (slice body 133 64), cosign := be body 197 1 == 1,
    cosignKey := digestOf (slice body 198 64) }
/-- An accepted transfer: its pending record is written, and the rows that follow run in their time. -/
def titleMove (r : Req) (body : Bytes) (s : State) : State :=
  setBusy r 0x0331 { s with nvm := { s.nvm with pendTitle := some (titleOf body, s.fuses.ownerEpoch + 1) },
                            mgmt := { s.mgmt with titleRun := some ⟨r, 1, now s⟩ } }
/-- The rows of a transfer that are due at their latest times (DESIGN CHOICE, log entry 141): the fuse at 50 ms, the keys and the
record at 60 ms, the certificate and the ledger at 100 ms, and then the response and the end of every management session. -/
def titleStep (s : State) : State :=
  match s.mgmt.titleRun, s.nvm.pendTitle with
  | some q, some (t, e) =>
    let next (s : State) : State := { s with mgmt := { s.mgmt with titleRun := some { q with done := q.done + 1 } } }
    if q.done = 1 then (if now s < q.at_ + 50000000 then s else next { s with fuses := { s.fuses with ownerEpoch := e } })
    else if q.done = 2 then (if now s < q.at_ + 60000000 then s else next (titleRewrite t s))
    else if now s < q.at_ + 100000000 then s
    else
      let s := titleRecord t e (issueMgmtCert { s with mgmt := { s.mgmt with titleRun := none } })
      closeSessions (fun _ q => q.port == .mgmt) (respondLate q.req 0x0331 .ok (bytesBE 1 e) s)
  | _, _ => s
/-- TITLE_TRANSFER (R412, R413). -/
def execTitleTransfer (r : Req) (body : Bytes) (s : State) : Out := arrives (.titleTransfer r body) r s fun s =>
  let msg (s : State) : Bytes := ascii "KAZBA-TITLE-V1" ++ serialBytes s ++ bytesBE 1 s.fuses.ownerEpoch ++ slice body 262 64 ++ slice body 0 326
  mgmtReq r 0x0331 (fun s =>
    let holder := if s.fuses.ownerEpoch = 0 then Config.titleKeyOf s.fuses.titleKey else (sessOf s r.sess).cred
    spendNonce r s (request s r 0x0331 .h (lenIs r body 590)
    [ ⟨2, s.fuses.lifecycle != .prod || s.fuses.ownerEpoch ≥ 64 || !titleNonce s (slice body 262 64), .denied⟩,
      ⟨2, !Config.ecdsaVerify holder (msg s) (slice body 326 132) || !Config.ecdsaVerify (slice body 0 133) (msg s) (slice body 458 132), .denied⟩,
      ⟨5, be body 197 1 > 1, .badDescriptor⟩,
      ⟨8, !allIdle s || s.nvm.activation.isSome || s.mgmt.titleRun.isSome, .conflict⟩ ]
    (titleMove r body))) s

/-- OPERATOR_ROOT_SET (R413): every operator session closes. -/
def execOperatorRootSet (r : Req) (body : Bytes) (s : State) : Out := arrives (.operatorRootSet r body) r s fun s =>
  mgmtReq r 0x0332 (fun s => request s r 0x0332 .h (lenIs r body 64) [] (fun s =>
    let s := respond r 0x0332 .ok [] s
    closeSessions (fun _ q => q.role == .operator) { s with nvm := { s.nvm with title := { s.nvm.title with opRoot := digestOf body } } })) s

/-- COSIGN_SET (R413, R420). -/
def execCosignSet (r : Req) (body : Bytes) (s : State) : Out := arrives (.cosignSet r body) r s fun s =>
  let req := be body 0 1
  let key := digestOf (slice body 1 64)
  mgmtReq r 0x0333 (fun s => request s r 0x0333 .h (lenIs r body 65)
    [ ⟨5, req > 1, .badDescriptor⟩,
      ⟨8, s.nvm.activation.isSome || (req == 1 && !(s.boot.cosigned && Config.sha512 (srcRead s s.boot.source.toNat 0x85 133) == key)), .conflict⟩ ]
    (fun s => respond r 0x0333 .ok [] { s with nvm := { s.nvm with title := { s.nvm.title with cosign := req == 1, cosignKey := key } } })) s

/-- RETIRE (R68, R414). -/
def execRetire (r : Req) (body : Bytes) (s : State) : Out := arrives (.retire r body) r s fun s =>
  mgmtReq r 0x0334 (fun s =>
    let n := match s.mgmt.challenge with | some (d, _) => digestBytes d | none => []
    let lc := s.fuses.lifecycle
    spendNonce r s (request s r 0x0334 .h (lenIs r body 132)
    [ ⟨2, !(lc == .prod || lc == .prodDebug) || !titleNonce s n ||
        !Config.ecdsaVerify (sessOf s r.sess).cred (ascii "KAZBA-RETIRE-V1" ++ serialBytes s ++ n) body, .denied⟩,
      ⟨8, !allIdle s, .conflict⟩ ]
    (fun s =>
      let s := wipeTenancy (closeSessions (fun _ q => q.port == .host) s)
      let s := ledgerCommit { s with fuses := { s.fuses with lifecycle := .retired }, ledger := { s.ledger with retireSig := body } }
      respond r 0x0334 .ok [] s))) s

/-! ## Debug tokens over the management port (R70, R71) -/

/-- A new challenge replaces the previous nonce. -/
def debugChallenge (s : State) : Bytes × State :=
  let (n, s) := drawBytes 64 s
  (n, { s with jtag := { s.jtag with nonce := some (digestOf n, now s) } })
/-- DEBUG_CHALLENGE. -/
def execDebugChallenge (r : Req) (body : Bytes) (s : State) : Out := arrives (.debugChallenge r body) r s fun s =>
  mgmtReq r 0x0340 (fun s => request s r 0x0340 .o (lenIs r body 0) [] (fun s =>
    let (n, s) := debugChallenge s
    respond r 0x0340 .ok (serialBytes s ++ n) s)) s
/-- DEBUG_TOKEN: the key store verifies it; DEBUG_TOKEN_VERIFIED answers. -/
def execDebugToken (r : Req) (body : Bytes) (s : State) : Out := arrives (.debugToken r body) r s fun s =>
  mgmtReq r 0x0341 (fun s => request s r 0x0341 .o (lenMin r body 0)
    [⟨5, (Config.tokenOf body).isNone, .badDescriptor⟩, ⟨8, s.jtag.tokMgmt.isSome, .conflict⟩]
    (fun s =>
      match Config.tokenOf body with
      | none => s
      | some t => setBusy r 0x0341 { s with jtag := { s.jtag with tokMgmt := some (t, r) } })) s

end Sys2Proof.Machine
end

