-- ==== Sys2Proof/Machine/Debug.lean ====
section
/-! DEFINITION. Reference clocks, the test access port, debug authorisation and lockout, provisioning (R26, R27, R68-R72). -/

namespace Sys2Proof.Machine

/-! ## Reference clocks (R27) -/

/-- REFCLK_LOSS (R27): after 10 µs without edges. -/
def execRefclkLoss (c : Refclk) (s : State) : Out :=
  match c with
  | .sys => .next (powerFail (clockLost 3 s))
  | _ =>
    let s := clockLost (refclkBit c) s
    if s.pkg.supply != .on then .next s else
    let links (lo : Nat) (s : State) : State := (List.range 16).foldl (fun s i => linkCut (lo + i) 0x17 s) s
    match c with
    | .lk0 => .next (links 0 s)
    | .lk1 => .next (links 16 s)
    | _ => .next (closeSessions (fun _ q => q.port == .host) (hostDown s))
/-- REFCLK_RESTORED (R27): its links may train again, and a boot or port that waits for it goes on. -/
def execRefclkRestored (c : Refclk) (s : State) : Out :=
  .next (setPkg s { s.pkg with refclk := setBit s.pkg.refclk (refclkBit c) true, clkLost := setBit s.pkg.clkLost (refclkBit c) false })

/-! ## The test access port (R24, R69) -/

/-- The test access port runs: the device is powered, and TRST_N does not hold it in reset (R21). -/
def tapOn (s : State) : Bool := s.pkg.supply != .off && s.pkg.trstN
def setIr (c : Byte) (s : State) : State := { s with jtag := { s.jtag with ir := c } }
/-- Boundary scan: what the cells capture is not stated, a free value; the cells take the bits shifted in. -/
def boundaryScan (code : Byte) (scan : Nat) (s : State) : State :=
  let (x, s) := draw s
  emit { s with jtag := { s.jtag with ir := code, bscan := scan } } (.jtag Config.scanLength (x % 2 ^ Config.scanLength))
/-- The one-bit bypass register: the bit shifted in comes out. -/
def bypassScan (code : Byte) (tdi : Bool) (s : State) : State := emit (setIr code s) (.jtag 1 tdi.toNat)
/-- EXTEST: only while RESET_N is low, otherwise BYPASS. -/
def execExtest (scan : Nat) (s : State) : Out :=
  if !tapOn s then .next s else if s.pkg.resetN then .next (bypassScan 0xFF (nbit scan 0) s) else .next (boundaryScan 0x00 scan s)
/-- SAMPLE/PRELOAD: only while RESET_N is low, otherwise BYPASS. -/
def execSamplePreload (scan : Nat) (s : State) : Out :=
  if !tapOn s then .next s else if s.pkg.resetN then .next (bypassScan 0xFF (nbit scan 0) s) else .next (boundaryScan 0x02 scan s)
/-- IDCODE. -/
def execIdcode (s : State) : Out :=
  if tapOn s then .next (emit (setIr 0x01 s) (.jtag 32 (Config.stepping % 16 * 2 ^ 28 + 0x04820A53))) else .next s
/-- BYPASS, and every code that R69 does not list. -/
def execBypass (code : Byte) (tdi : Bool) (s : State) : Out :=
  let listed : Bool := [0x00, 0x01, 0x02, 0x20, 0x21, 0x22, 0x30].contains code.toNat
  if tapOn s && !listed then .next (bypassScan code tdi s) else .next s
/-- AUTH_CHALLENGE (R69, R70): the serial and a fresh nonce. -/
def execAuthChallenge (s : State) : Out :=
  if !tapOn s then .next s else
  let (n, s) := debugChallenge s
  .next (emit (setIr 0x20 s) (.jtag 576 (natBE (serialBytes s ++ n))))
/-- AUTH_TOKEN: the key store verifies the token shifted in. -/
def execAuthToken (t : DebugToken) (s : State) : Out :=
  if tapOn s then .next (setIr 0x21 { s with jtag := { s.jtag with tokJtag := some t } }) else .next s
/-- AUTH_STATUS: the status code of the last token. -/
def execAuthStatus (s : State) : Out :=
  if tapOn s then .next (emit (setIr 0x22 s) (.jtag 16 s.jtag.status.toNat)) else .next s

/-- One line of memory through the debug access port (R233, R248): the DEBUG right and READ or WRITE, never the operand caches;
a poisoned line returns no data. -/
def debugMemory (op : DebugOp) (s : State) : State :=
  let c := op.ctx.toNat
  let va := op.va.toNat / 64 * 64
  let right := if op.write then rWRITE else rREAD
  let st : Status :=
    if (ctxOf s c).state == .free then .staleGeneration else if isAlias va then .outOfRegion else accessCheck s c [rDEBUG, right] va 64
  match st with
  | .ok =>
    if op.write then
      match interceptV c va 64 s with
      | (s, false) => s
      | (s, true) =>
        let (s, w) := putVirtual 0x5E c va (bytesLE 64 op.data.toNat) s
        emit s (.debugData w [])
    else if poisonV s c va 64 then emit s (.debugData .poison [])
    else emit s (.debugData .ok (vread s c va 64))
  | st => emit s (.debugData st [])
/-- DEBUG_ACCESS (R69, R71): the Almandine scope reaches memory; what the other scopes reach is not stated, a read gives a free
value. -/
def execDebugAccess (op : DebugOp) (s : State) : Out :=
  let d := op.die.toNat
  if !tapOn s then .next s
  else if !debugOpenAt s d then .next (bypassScan 0xFF (bit op.data 0) s)
  else if d = 1 then .next (debugMemory op (setIr 0x30 s))
  else if op.write then .next (emit (setIr 0x30 s) (.debugData .ok []))
  else
    let (b, s) := drawBytes 64 s
    .next (emit (setIr 0x30 s) (.debugData .ok b))

/-! ## Debug authorisation (R70-R72) -/

/-- A token verifies: serial, nonce of the latest challenge, duration, the vendor's signature, and in PROD the titleholder's. -/
def tokenOk (s : State) (t : DebugToken) : Bool :=
  let lc := s.fuses.lifecycle
  (lc == .dev || lc == .prod) && t.serial == s.fuses.serial && 60 ≤ t.duration && t.duration ≤ 28800 &&
  (match s.jtag.nonce with | some (n, at_) => n == t.nonce && now s ≤ at_ + 60000000000 | none => false) &&
  Config.sha512 t.vendorKey == s.fuses.debugKey && Config.ecdsaVerify t.vendorKey (Config.tokenSigned t) t.vendorSig &&
  (lc == .dev || (Config.sha512 t.titleKey == s.nvm.title.holder && Config.ecdsaVerify t.titleKey (Config.tokenSigned t) t.titleSig))
/-- Every partition loses its charter and its contexts; an unused one its key (R71, R342 cause 5). -/
def unlockPartition (p : Nat) (s : State) : State :=
  let q := partOf s p
  let s := match q.charter with | some _ => setPart s p { q with charter := none } | none => s
  if q.state == .assigned || q.state == .charter then resetPartition p 5 s else if q.state == .unused then freshKey (0x010 + p) s else s
/-- An accepted token in PROD (R71), in its five steps, of which the second leaves the sessions of the management port their keys (DESIGN
CHOICE, log entry 146); MR7 is extended with the token and with the entry to PROD_DEBUG (R59). A second-life sequence is abandoned (R420). -/
def unlock (t : DebugToken) (s : State) : State :=
  let s := mrExtend 7 0x00000040 (Config.tokenBytes t) s
  let s := zeroKeys (fun k => (0x010 ≤ k && k < 0x120) || (0x260 ≤ k && k < 0x400)) s
  let s := (List.range 16).foldl (fun s p => unlockPartition p s) s
  let s := closeSessions (fun _ q => q.port == .host) s
  let s := ledgerAdd 12 1 s
  let s := mrExtend 7 0x00000040 (Config.debugEntry t) s
  let s := { s with fuses := { s.fuses with lifecycle := .prodDebug }, mgmt := { s.mgmt with slRun := false },
                    nvm := { s.nvm with secondLife := false, slDone := false }, boot := { s.boot with secondLifeWait := false } }
  { s with jtag := { s.jtag with scope := t.scope, duration := t.duration } }
/-- The outcome of one token: its nonce is spent. -/
def judgeToken (t : DebugToken) (s : State) : State × Status :=
  let ok := tokenOk s t
  let s := { s with jtag := { s.jtag with nonce := none } }
  if !ok then (s, .denied)
  else if s.fuses.lifecycle == .prod then (unlock t s, .ok)
  else
    let s := mrExtend 7 0x00000040 (Config.tokenBytes t) s
    ({ s with jtag := { s.jtag with scope := t.scope, duration := t.duration } }, .ok)
def setStatus (st : Status) (s : State) : State := { s with jtag := { s.jtag with status := BitVec.ofNat 16 (statusCode st) } }
/-- DEBUG_TOKEN_VERIFIED (R58, R71, R72): verification completes; a reset in the same sample discards it, and of two tokens the
management port's is taken, the other refused with CONFLICT whatever comes of it (DEDUCED, log entry 147). -/
def execDebugTokenVerified (resetToo : Bool) (s : State) : Out :=
  let j := s.jtag.tokJtag
  let m := s.jtag.tokMgmt
  if s.pkg.supply != .on || (j.isNone && m.isNone) then .next s
  else if resetToo then .next (deviceReset s)
  else
    let s := { s with jtag := { s.jtag with tokJtag := none, tokMgmt := none } }
    match m, j with
    | some (t, r), j =>
      let (s, st) := judgeToken t s
      let s := if j.isSome then setStatus .conflict s else setStatus st s
      .next (respondLate r 0x0341 .ok (bytesBE 2 (statusCode st)) s)
    | none, some t =>
      let (s, st) := judgeToken t s
      .next (setStatus st s)
    | none, none => .next s
/-- DEBUG_NONCE_EXPIRY (R70): 60 s have passed. -/
def execDebugNonceExpiry (s : State) : Out :=
  if s.jtag.nonce.isSome then .next { s with jtag := { s.jtag with nonce := none } } else .next s
/-- PROD_DEBUG_EXPIRY (R68): the token's duration has expired. -/
def execProdDebugExpiry (s : State) : Out :=
  if s.fuses.lifecycle == .prodDebug then .next (deviceReset s) else .next s

/-! ## Provisioning (R68) -/

/-- PROVISIONING: the fused secret, the serial, the vendor key hashes, the debug and title key hashes, the identity
certificate. -/
def execProvisioning (serial : W64) (secret : Nat) (keys : Tbl Digest) (debugKey titleKey : Digest) (cert : Bytes) (s : State) : Out :=
  if s.fuses.lifecycle != .blank then .next s else
  .next { s with
    fuses := { s.fuses with lifecycle := .dev, serial := serial, secret := some (secret % 2 ^ 256), vendorKeys := keys, debugKey := debugKey, titleKey := titleKey },
    nvm := { s.nvm with idCert := cert } }
/-- PROD_FUSE_BURN: DEV to PROD; every DEV-era key is zeroised, those of management sessions and half-open ones with the numbered
slots (R402), and debug is locked. The keys that R62 derives from the fused secret
belong to no era: the identity key never changes, the other two at a title transfer. -/
def execProdFuseBurn (s : State) : Out :=
  if s.fuses.lifecycle != .dev then .next s else
  let s := zeroKeys (fun k => k < 0x400) { s with fuses := { s.fuses with lifecycle := .prod } }
  .next { s with jtag := { s.jtag with scope := 0, duration := 0 },
                 sess := s.sess.map (fun e => (e.1, { e.2 with keys := none, eph := 0 })) }

end Sys2Proof.Machine
end

