-- ==== Sys2Proof/Machine/Operands.lean ====
section
/-! DEFINITION. The operand fields of a grain core's instruction word and the register file they name (R213-R215). The fields of the
other operands stand beside the units that read them: tile headers in Tiles.lean, matrix descriptors in MatDesc.lean, vector slots in
VecOps.lean, mover descriptors in MovOps.lean, frames in LinkOps.lean, bulk windows in BulkOps.lean. -/

namespace Sys2Proof.Machine

def progWords : Nat := 16384
def scratchBytes : Nat := 16384

/-! ## Instruction fields (R214) -/

def iOp (w : Nat) : Nat := nbits w 31 26
def iD (w : Nat) : Nat := nbits w 25 22
def iA (w : Nat) : Nat := nbits w 21 18
def iB (w : Nat) : Nat := nbits w 17 14
def iFunc (w : Nat) : Nat := nbits w 13 0
def iImm (w : Nat) : Int := signed 18 (nbits w 17 0)
def iOff22 (w : Nat) : Int := signed 22 (nbits w 21 0)
def iField (w hi lo : Nat) : Nat := nbits w hi lo

/-- The word at a program counter. -/
def fetchWord (x : Grain) (pc : Nat) : Nat := mnum x.prog (4 * pc) 4

/-- X0 reads as zero and ignores writes (R213). -/
def xget (x : Grain) (r : Nat) : W64 := if r = 0 then 0 else tget 0 x.regs r
def xset (x : Grain) (r : Nat) (v : W64) : Grain := if r = 0 then x else { x with regs := tset x.regs r v }

/-- Fields an I-form instruction uses, of XD, XA and IMM (R215). -/
def usesD (op : Nat) : Bool := !(op == 0x30 || op == 0x31 || op == 0x33 || op == 0x34 || op == 0x36 || op == 0x38 || op == 0x3F)
def usesA (op : Nat) : Bool :=
  !(op == 0x09 || op == 0x21 || op == 0x22 || op == 0x23 || op == 0x28 || op == 0x32 || op == 0x34 || op == 0x35 || op == 0x37 || op == 0x38)
def usesImm (op : Nat) : Bool :=
  !(op == 0x23 || op == 0x30 || op == 0x32 || op == 0x33 || op == 0x34 || op == 0x35 || op == 0x36 || op == 0x37 || op == 0x3F)

def knownOp (op : Nat) : Bool :=
  (0x01 ≤ op && op ≤ 0x07) || (0x09 ≤ op && op ≤ 0x0B) || (0x10 ≤ op && op ≤ 0x17) || (0x20 ≤ op && op ≤ 0x23) || op == 0x28 ||
  (0x30 ≤ op && op ≤ 0x38) || op == 0x3F
def formI (op : Nat) : Bool := !(op == 0x01 || (0x10 ≤ op && op ≤ 0x16))

end Sys2Proof.Machine
end

