-- ==== Sys2Proof/Machine/Grain.lean ====
section
/-! DEFINITION. Grain cores (R213-R222): instruction fetch and fields, and one meaning for each instruction row. A row runs
the instruction at the program counter of grain core g; where that instruction is another one, where the grain core does
not run, or where a trap is due, the row changes nothing (DEDUCED, log entry 8). -/

namespace Sys2Proof.Machine

/-- The word is legal (R215, R216): a known OP, FUNC at most 13, no unused field set, an ISSUE target that exists, a PMARK
phase that is not reserved; TRAPRET runs in a handler only (R218). -/
def legalWord (x : Grain) (w : Nat) : Bool :=
  let op := iOp w
  knownOp op && (op != 0x01 || iFunc w ≤ 13) &&
  (!formI op || ((usesD op || iD w == 0) && (usesA op || iA w == 0) && (usesImm op || nbits w 17 0 == 0))) &&
  (op != 0x20 || nbits w 2 0 ≤ 5) &&
  (op != 0x31 || !(nbits w 3 0 == 0 || nbits w 3 0 == 6 || nbits w 3 0 == 7)) &&
  (op != 0x34 || x.inTrap)

/-- A trap waits to be taken at the next instruction boundary. PMARK with SYNC and an ISSUE that stalls are not among the waits that R218
abandons: the boundary comes when they have ended. -/
def trapDue (x : Grain) : Bool :=
  !x.inTrap && x.trapVec != 0 && !x.arriving.isEmpty && x.waiting != .sync && x.waiting != .issue

/-- The grain core runs: its context is ACTIVE, it was started and has not stopped. -/
def grainRuns (s : State) (c g : Nat) : Bool :=
  let x := grainOf (coreOf s c) g
  isReady s && x.started && !x.stopped &&
  (match (coreOf s c).ctx with | some cx => (ctxOf s cx).state == .active | none => false)

/-- Run the instruction at the program counter when its OP is op: `f` gets the word. -/
def grainRow (c g : Nat) (ok : Nat → Bool) (f : Nat → State → State) (s : State) : Out :=
  let x := grainOf (coreOf s c) g
  let w := fetchWord x x.pc
  if grainRuns s c g && !trapDue x && x.pc < progWords && legalWord x w && ok w then .next (f w s) else .next s
def isOp (op : Nat) : Nat → Bool := fun w => iOp w == op

/-- Write XD and go on at the next word. -/
def writeNext (c g : Nat) (w : Nat) (v : W64) (s : State) : State :=
  modGrain c g (fun x => { xset x (iD w) v with pc := x.pc + 1, waiting := .none }) s
def goNext (c g : Nat) (s : State) : State := modGrain c g (fun x => { x with pc := x.pc + 1, waiting := .none }) s
def waitFor (c g : Nat) (k : Waiting) (s : State) : State := modGrain c g (fun x => { x with waiting := k }) s
def faultAt (c g kind w : Nat) (s : State) : State := grainFault c g kind (grainOf (coreOf s c) g).pc w s
def regA (s : State) (c g w : Nat) : W64 := xget (grainOf (coreOf s c) g) (iA w)

/-! ## ALU and immediates -/

/-- XA op XB of the ALU, by FUNC (R215). -/
def aluOp (func : Nat) (a b : W64) : W64 :=
  match func with
  | 0 => a + b
  | 1 => a - b
  | 2 => a &&& b
  | 3 => a ||| b
  | 4 => a ^^^ b
  | 5 => a <<< (b.toNat % 64)
  | 6 => a >>> (b.toNat % 64)
  | 7 => a.sshiftRight (b.toNat % 64)
  | 8 => a * b
  | 9 => BitVec.ofNat 64 (a.toNat * b.toNat / 2 ^ 64)
  | 10 => if a.slt b then 1 else 0
  | 11 => if a.ult b then 1 else 0
  | 12 => if a.slt b then a else b
  | _ => if a.slt b then b else a

def execAlu (core : BitVec 5) (g : BitVec 1) (s : State) : Out :=
  grainRow core.toNat g.toNat (isOp 0x01) (fun w s =>
    let x := grainOf (coreOf s core.toNat) g.toNat
    writeNext core.toNat g.toNat w (aluOp (iFunc w) (xget x (iA w)) (xget x (iB w))) s) s

/-- ADDI to SHRI: the ALU operation on XA and the sign-extended immediate. -/
def immRow (op func : Nat) (core : BitVec 5) (g : BitVec 1) (s : State) : Out :=
  grainRow core.toNat g.toNat (isOp op) (fun w s =>
    writeNext core.toNat g.toNat w (aluOp func (regA s core.toNat g.toNat w) (BitVec.ofInt 64 (iImm w))) s) s
def execAddi (core : BitVec 5) (g : BitVec 1) (s : State) : Out := immRow 0x02 0 core g s
def execAndi (core : BitVec 5) (g : BitVec 1) (s : State) : Out := immRow 0x03 2 core g s
def execOri (core : BitVec 5) (g : BitVec 1) (s : State) : Out := immRow 0x04 3 core g s
def execXori (core : BitVec 5) (g : BitVec 1) (s : State) : Out := immRow 0x05 4 core g s
def execShli (core : BitVec 5) (g : BitVec 1) (s : State) : Out := immRow 0x06 5 core g s
def execShri (core : BitVec 5) (g : BitVec 1) (s : State) : Out := immRow 0x07 6 core g s

/-- LDK: IMM must be even, not negative, and its word pair inside the program store (R215). -/
def execLdk (core : BitVec 5) (g : BitVec 1) (s : State) : Out :=
  grainRow core.toNat g.toNat (isOp 0x09) (fun w s =>
    let i := iImm w
    if i % 2 ≠ 0 then faultAt core.toNat g.toNat 0x02 w s
    else if i < 0 ∨ i + 1 ≥ progWords then faultAt core.toNat g.toNat 0x04 w s
    else writeNext core.toNat g.toNat w (BitVec.ofNat 64 (mnum (grainOf (coreOf s core.toNat) g.toNat).prog (4 * i.toNat) 8)) s) s

/-- The scratch address XA + IMM, or the fault it raises: unaligned, or beyond 16 KiB (R219). -/
def scratchAddr (s : State) (c g w : Nat) : Nat ⊕ Nat :=
  let a := (regA s c g w + BitVec.ofInt 64 (iImm w)).toNat
  if a % 8 ≠ 0 then .inr 0x02 else if a + 8 > scratchBytes then .inr 0x03 else .inl a

def execLd (core : BitVec 5) (g : BitVec 1) (s : State) : Out :=
  grainRow core.toNat g.toNat (isOp 0x0A) (fun w s =>
    match scratchAddr s core.toNat g.toNat w with
    | .inr k => faultAt core.toNat g.toNat k w s
    | .inl a => writeNext core.toNat g.toNat w (BitVec.ofNat 64 (mnum (grainOf (coreOf s core.toNat) g.toNat).scratch a 8)) s) s

def execSt (core : BitVec 5) (g : BitVec 1) (s : State) : Out :=
  grainRow core.toNat g.toNat (isOp 0x0B) (fun w s =>
    match scratchAddr s core.toNat g.toNat w with
    | .inr k => faultAt core.toNat g.toNat k w s
    | .inl a => goNext core.toNat g.toNat (modGrain core.toNat g.toNat (fun x =>
        { x with scratch := mwrite x.scratch a (bytesLE 8 (xget x (iD w)).toNat) }) s)) s

/-! ## Branches and jumps -/

/-- A program counter outside the store faults at its fetch with PC_RANGE (R219); a negative target lies outside. -/
def pcPlus (pc : Nat) (off : Int) : Nat := if (pc : Int) + off < 0 then 2 ^ 64 - 1 else ((pc : Int) + off).toNat

/-- Branch when XA compares with XB as named; in the B form XA lies at [25:22] and XB at [21:18] (R214). -/
def branchRow (op : Nat) (cmp : W64 → W64 → Bool) (core : BitVec 5) (g : BitVec 1) (s : State) : Out :=
  grainRow core.toNat g.toNat (isOp op) (fun w s =>
    modGrain core.toNat g.toNat (fun x =>
      if cmp (xget x (iD w)) (xget x (iA w)) then { x with pc := pcPlus x.pc (iImm w) } else { x with pc := x.pc + 1 }) s) s
def execBeq (core : BitVec 5) (g : BitVec 1) (s : State) : Out := branchRow 0x10 (fun a b => a == b) core g s
def execBne (core : BitVec 5) (g : BitVec 1) (s : State) : Out := branchRow 0x11 (fun a b => a != b) core g s
def execBlt (core : BitVec 5) (g : BitVec 1) (s : State) : Out := branchRow 0x12 (fun a b => a.slt b) core g s
def execBge (core : BitVec 5) (g : BitVec 1) (s : State) : Out := branchRow 0x13 (fun a b => !a.slt b) core g s
def execBltu (core : BitVec 5) (g : BitVec 1) (s : State) : Out := branchRow 0x14 (fun a b => a.ult b) core g s
def execBgeu (core : BitVec 5) (g : BitVec 1) (s : State) : Out := branchRow 0x15 (fun a b => !a.ult b) core g s

def execJal (core : BitVec 5) (g : BitVec 1) (s : State) : Out :=
  grainRow core.toNat g.toNat (isOp 0x16) (fun w s =>
    modGrain core.toNat g.toNat (fun x => { xset x (iD w) (BitVec.ofNat 64 (x.pc + 1)) with pc := pcPlus x.pc (iOff22 w) }) s) s
/-- JR: XA is read before XD is written. -/
def execJr (core : BitVec 5) (g : BitVec 1) (s : State) : Out :=
  grainRow core.toNat g.toNat (isOp 0x17) (fun w s =>
    modGrain core.toNat g.toNat (fun x =>
      { xset x (iD w) (BitVec.ofNat 64 (x.pc + 1)) with pc := (xget x (iA w) + BitVec.ofInt 64 (iImm w)).toNat }) s) s

/-! ## ISSUE (R216) -/

/-- The n bytes ISSUE copies from scratch address XA, or the fault: not 64-byte aligned, or beyond 16 KiB. -/
def issueBytes (s : State) (c g w n : Nat) : Bytes ⊕ Nat :=
  let a := (regA s c g w).toNat
  if a % 64 ≠ 0 then .inr 0x02 else if a + n > scratchBytes then .inr 0x03
  else .inl (mread (grainOf (coreOf s c) g).scratch a n)

def isIssue (t : Nat → Bool) : Nat → Bool := fun w => iOp w == 0x20 && t (nbits w 2 0)

def tagIdle (s : State) (c g tag : Nat) : Bool := tget TagState.idle (grainOf (coreOf s c) g).tags tag == .idle
def tagIssue (c g tag : Nat) (s : State) : State := modGrain c g (fun x => { x with tags := tset x.tags tag .outstanding }) s

/-- The descriptor enters its queue with XD := 0; a tag that is not IDLE gives XD := CONFLICT; a full queue stalls. -/
def issueTo (c g w tag : Nat) (full : Bool) (put : State → State) (s : State) : State :=
  if !tagIdle s c g tag then writeNext c g w 0x0601 s
  else if full then waitFor c g .issue s
  else writeNext c g w 0 (tagIssue c g tag (put s))

def execIssueMatrix (core : BitVec 5) (g : BitVec 1) (s : State) : Out :=
  grainRow core.toNat g.toNat (isIssue (· == 0)) (fun w s =>
    match issueBytes s core.toNat g.toNat w 64 with
    | .inr k => faultAt core.toNat g.toNat k w s
    | .inl b =>
      let d := descOf b
      let q := tget [] (coreOf s core.toNat).arr.queue g.toNat
      issueTo core.toNat g.toNat w (dTag d) (q.length ≥ 16) (fun s =>
        let k := coreOf s core.toNat
        setCore s core.toNat { k with arr := { k.arr with queue := tset k.arr.queue g.toNat (q ++ [d]) } }) s) s

/-- The summary registers a chain names (R202): of its 16 instruction slots, those of opcode SUMM. -/
def summRegs (d : VDesc) : List Nat :=
  if dOp d.hdr = 0x40 then
    (d.code.take (fld d.hdr 104 100)).filterMap (fun w => if fld w 63 56 = 0x41 then some (fld w 3 0) else none)
  else if dOp d.hdr = 0x41 && bit d.hdr 80 then [fld d.hdr 79 76] else []

/-- ISSUE of a chain latches its views (R208) and clears VALID in each summary register it names (R202). -/
def execIssueVector (core : BitVec 5) (g : BitVec 1) (s : State) : Out :=
  grainRow core.toNat g.toNat (isIssue (· == 1)) (fun w s =>
    match issueBytes s core.toNat g.toNat w 64 with
    | .inr k => faultAt core.toNat g.toNat k w s
    | .inl b =>
      let n := if dOp (descOf b) = 0x40 then 192 else 64
      match issueBytes s core.toNat g.toNat w n with
      | .inr k => faultAt core.toNat g.toNat k w s
      | .inl b =>
        let k := coreOf s core.toNat
        let d : VDesc := { hdr := descOf (b.take 64), views := k.views,
                           code := if n = 192 then (List.range 16).map (fun i => BitVec.ofNat 64 (le b (64 + 8 * i) 8)) else [] }
        let q := tget [] k.vec.queue g.toNat
        let named := (q ++ (k.vec.runs.filter (fun e => e.2.grain == g.toNat)).map (·.2.d)).flatMap summRegs
        let d := { d with clash := (summRegs d).any (fun r => named.contains r) }
        issueTo core.toNat g.toNat w (dTag d.hdr) (q.length ≥ 16) (fun s =>
          let k := coreOf s core.toNat
          let s := setCore s core.toNat { k with vec := { k.vec with queue := tset k.vec.queue g.toNat (q ++ [d]) } }
          modGrain core.toNat g.toNat (fun x =>
            { x with sums := (summRegs d).foldl (fun t r => tset t r (setBit (tget 0 t r) 85 false)) x.sums }) s) s) s

def execIssueTileMover (core : BitVec 5) (g : BitVec 1) (s : State) : Out :=
  grainRow core.toNat g.toNat (isIssue (fun t => t == 2 || t == 3)) (fun w s =>
    match issueBytes s core.toNat g.toNat w 64 with
    | .inr k => faultAt core.toNat g.toNat k w s
    | .inl b =>
      let d := descOf b
      let m := nbits w 2 0 - 2
      let q := (tget {} (coreOf s core.toNat).movers m).queue
      issueTo core.toNat g.toNat w (dTag d) (q.length ≥ 512) (fun s =>
        let k := coreOf s core.toNat
        setCore s core.toNat { k with movers := tmod {} k.movers m (fun v => { v with queue := v.queue ++ [(d, g.toNat)] }) }) s) s

/-- A slot or view write takes effect at once and sets XD := 0. -/
def execIssueOutCfg (core : BitVec 5) (g : BitVec 1) (s : State) : Out :=
  grainRow core.toNat g.toNat (isIssue (· == 4)) (fun w s =>
    match issueBytes s core.toNat g.toNat w 64 with
    | .inr k => faultAt core.toNat g.toNat k w s
    | .inl b =>
      let k := coreOf s core.toNat
      writeNext core.toNat g.toNat w 0 (setCore s core.toNat { k with outCfg := tset k.outCfg (nbits w 8 3) (descOf b) })) s
def execIssueView (core : BitVec 5) (g : BitVec 1) (s : State) : Out :=
  grainRow core.toNat g.toNat (isIssue (· == 5)) (fun w s =>
    match issueBytes s core.toNat g.toNat w 64 with
    | .inr k => faultAt core.toNat g.toNat k w s
    | .inl b =>
      let k := coreOf s core.toNat
      writeNext core.toNat g.toNat w 0 (setCore s core.toNat { k with views := tset k.views (nbits w 8 3) (descOf b) })) s

/-! ## Waiting (R215, R216) -/

/-- A tag becomes IDLE. -/
def tagFree (x : Grain) (tag : Nat) : Grain :=
  { x with tags := tset x.tags tag .idle, doneOrder := x.doneOrder.filter (· != tag) }

/-- WAIT and POLL on a tag: IDLE answers BAD_DESCRIPTOR, DONE its status; an outstanding tag waits, or reads all-ones. -/
def waitRow (op : Nat) (poll : Bool) (core : BitVec 5) (g : BitVec 1) (s : State) : Out :=
  grainRow core.toNat g.toNat (isOp op) (fun w s =>
    let tag := nbits w 7 0
    match tget TagState.idle (grainOf (coreOf s core.toNat) g.toNat).tags tag with
    | .idle => writeNext core.toNat g.toNat w 0x0203 s
    | .done st => writeNext core.toNat g.toNat w (st.setWidth 64) (modGrain core.toNat g.toNat (fun x => tagFree x tag) s)
    | .outstanding => if poll then writeNext core.toNat g.toNat w (BitVec.allOnes 64) s else waitFor core.toNat g.toNat .tag s) s
def execWait (core : BitVec 5) (g : BitVec 1) (s : State) : Out := waitRow 0x21 false core g s
def execPoll (core : BitVec 5) (g : BitVec 1) (s : State) : Out := waitRow 0x22 true core g s

def anyOutstanding (x : Grain) : Bool := x.tags.any (fun e => e.2 == .outstanding)

/-- WAITALL: XD := the first non-OK status in completion order among the DONE tags; they all become IDLE. -/
def execWaitall (core : BitVec 5) (g : BitVec 1) (s : State) : Out :=
  grainRow core.toNat g.toNat (isOp 0x23) (fun w s =>
    let x := grainOf (coreOf s core.toNat) g.toNat
    if anyOutstanding x then waitFor core.toNat g.toNat .all s else
    let stOf : Nat → W16 := fun t => match tget TagState.idle x.tags t with | .done st => st | _ => 0
    let v := ((x.doneOrder.map stOf).find? (· != 0)).getD 0
    writeNext core.toNat g.toNat w (v.setWidth 64) (modGrain core.toNat g.toNat (fun x => { x with tags := [], doneOrder := [] }) s)) s

/-- RDSUM waits until VALID; it ORs the register's OWNER_SET into the program owner set in both forms (R217). -/
def execRdsum (core : BitVec 5) (g : BitVec 1) (s : State) : Out :=
  grainRow core.toNat g.toNat (isOp 0x28) (fun w s =>
    let v := tget 0 (grainOf (coreOf s core.toNat) g.toNat).sums (nbits w 3 0)
    if !bit v 85 then waitFor core.toNat g.toNat .sum s else
    let r := if nbit w 4 then fld v 84 77 * 2 ^ 13 + fld v 76 64 else fld v 63 0
    writeNext core.toNat g.toNat w (BitVec.ofNat 64 r)
      (modGrain core.toNat g.toNat (fun x => { x with owner := x.owner ||| BitVec.ofNat 8 (fld v 84 77) }) s)) s

/-! ## Epoch, marks, time, traps, inbox, barrier, halt -/

/-- EPOCH (R220, R93). -/
def execEpoch (core : BitVec 5) (g : BitVec 1) (s : State) : Out :=
  grainRow core.toNat g.toNat (isOp 0x30) (fun w s =>
    let k := coreOf s core.toNat
    let v := (regA s core.toNat g.toNat w).toNat
    let e := k.epoch.toNat
    if v = 0xFFFFFFFF then faultAt core.toNat g.toNat 0x06 w s
    else if v = e + 1 then goNext core.toNat g.toNat (setCore s core.toNat { k with epoch := BitVec.ofNat 32 v })
    else if v = e then goNext core.toNat g.toNat s
    else faultAt core.toNat g.toNat 0x05 w s) s

/-- PMARK (R221): a 32-byte record in the context's mark ring; a full ring drops the mark and counts it. -/
def execPmark (core : BitVec 5) (g : BitVec 1) (s : State) : Out :=
  grainRow core.toNat g.toNat (isOp 0x31) (fun w s =>
    let k := coreOf s core.toNat
    let x := grainOf k g.toNat
    if nbit w 5 && anyOutstanding x then waitFor core.toNat g.toNat .sync s else
    match k.ctx with
    | none => s
    | some c =>
      let cx := ctxOf s c
      let rec' : BitVec 256 := BitVec.ofNat 256 (now s * 2 ^ 192 + k.epoch.toNat * 2 ^ 160 + fld (xget x (iA w)) 31 0 * 2 ^ 128 +
        x.owner.toNat * 2 ^ 120 + c * 2 ^ 112 + cx.gen.toNat * 2 ^ 104 + core.toNat * 2 ^ 99 + g.toNat * 2 ^ 98 +
        nbits w 4 4 * 2 ^ 97 + nbits w 5 5 * 2 ^ 96 + nbits w 3 0 * 2 ^ 92)
      let cx := if cx.marks.length < 4096 then { cx with marks := cx.marks ++ [rec'] }
                else { cx with lostMks := natMin (cx.lostMks + 1) 0xFFFFFFFF }
      goNext core.toNat g.toNat (setCtx s c cx)) s

def execRdtime (core : BitVec 5) (g : BitVec 1) (s : State) : Out :=
  grainRow core.toNat g.toNat (isOp 0x32) (fun w s => writeNext core.toNat g.toNat w s.time.base s) s

/-- SETTRAP: 0 disables traps, and every trap that waits is then discarded (R218). -/
def execSettrap (core : BitVec 5) (g : BitVec 1) (s : State) : Out :=
  grainRow core.toNat g.toNat (isOp 0x33) (fun w s =>
    goNext core.toNat g.toNat (modGrain core.toNat g.toNat (fun x =>
      let v := xget x (iA w)
      if v = 0 then { x with trapVec := 0, arriving := [], trapQueue := [] } else { x with trapVec := v }) s)) s

/-- TRAPRET resumes at the saved address and admits the next queued trap (R218). -/
def execTrapret (core : BitVec 5) (g : BitVec 1) (s : State) : Out :=
  grainRow core.toNat g.toNat (isOp 0x34) (fun _ s =>
    modGrain core.toNat g.toNat (fun x =>
      { x with inTrap := false, pc := x.trapRet, arriving := x.trapQueue.take 1, trapQueue := x.trapQueue.drop 1, waiting := .none }) s) s

def execRdtrap (core : BitVec 5) (g : BitVec 1) (s : State) : Out :=
  grainRow core.toNat g.toNat (isOp 0x35) (fun w s =>
    let x := grainOf (coreOf s core.toNat) g.toNat
    writeNext core.toNat g.toNat w (BitVec.ofNat 64 (x.trapsLost * 2 ^ 48 + x.trapCause.toNat * 256 + x.trapTag.toNat)) s) s

/-- GSEND: into the other grain core's inbox of four, with the sender's program owner set latched (R217). -/
def execGsend (core : BitVec 5) (g : BitVec 1) (s : State) : Out :=
  grainRow core.toNat g.toNat (isOp 0x36) (fun w s =>
    let o := 1 - g.toNat
    let x := grainOf (coreOf s core.toNat) g.toNat
    if (grainOf (coreOf s core.toNat) o).inbox.length ≥ 4 then waitFor core.toNat g.toNat .send s else
    goNext core.toNat g.toNat (modGrain core.toNat o (fun y => { y with inbox := y.inbox ++ [(xget x (iA w), x.owner)] }) s)) s

def execGrecv (core : BitVec 5) (g : BitVec 1) (s : State) : Out :=
  grainRow core.toNat g.toNat (isOp 0x37) (fun w s =>
    match (grainOf (coreOf s core.toNat) g.toNat).inbox with
    | [] => waitFor core.toNat g.toNat .recv s
    | (v, o) :: t => writeNext core.toNat g.toNat w v (modGrain core.toNat g.toNat (fun x => { x with inbox := t, owner := x.owner ||| o }) s)) s

/-- Grain cores of a context that count for its barriers: started, and not halted (R222). -/
def barrierMembers (s : State) (c : Nat) : List (Nat × Nat) :=
  (ctxCores (ctxOf s c)).flatMap (fun i => [(i, 0), (i, 1)]) |>.filter (fun m =>
    let x := grainOf (coreOf s m.1) m.2
    x.started && !x.stopped)

/-- Release a barrier on which every member has arrived: each member's waiting, or abandoned, BARRIER completes when it
runs again (R222). The last arrival of BARRIER 0xFE is the context's arrival at the end of its attempt (R372). -/
def barrierRelease (c : Nat) (s : State) : State :=
  let ms := barrierMembers s c
  match ms with
  | [] => s
  | m0 :: _ =>
    let id := (grainOf (coreOf s m0.1) m0.2).barrier
    if id == none || !ms.all (fun m => (grainOf (coreOf s m.1) m.2).barrier == id) then s else
    let s := ms.foldl (fun s m => modGrain m.1 m.2 (fun x =>
      { x with barrier := none, arrivedIn := false,
               released := x.released || !x.arrivedIn, releasedT := x.inTrap && x.waiting == .barrier }) s) s
    if id == some 0xFE then stepArrive c s else s

/-- Another member waits on a different identifier. -/
def barrierOther (s : State) (c : Nat) (id : Byte) : Bool :=
  (barrierMembers s c).any (fun m => match (grainOf (coreOf s m.1) m.2).barrier with | some b => b != id | none => false)

/-- BARRIER (R222). -/
def execBarrier (core : BitVec 5) (g : BitVec 1) (s : State) : Out :=
  grainRow core.toNat g.toNat (isOp 0x38) (fun w s =>
    let cn := core.toNat
    let gn := g.toNat
    let id : Byte := BitVec.ofNat 8 (nbits w 7 0)
    let x := grainOf (coreOf s cn) gn
    match (coreOf s cn).ctx with
    | none => s
    | some c =>
      if x.inTrap && x.waiting == .barrier && x.releasedT then goNext cn gn (modGrain cn gn (fun x => { x with releasedT := false }) s)
      else if !x.inTrap && x.released then goNext cn gn (modGrain cn gn (fun x => { x with released := false }) s)
      else if barrierOther s c id then faultAt cn gn 0x07 w s
      else if x.barrier != none then waitFor cn gn .barrier s
      else
        let s := waitFor cn gn .barrier (modGrain cn gn (fun x => { x with barrier := some id, arrivedIn := x.inTrap, releasedT := false }) s)
        let s := barrierRelease c s
        let y := grainOf (coreOf s cn) gn
        if y.barrier == none then
          goNext cn gn (modGrain cn gn (fun x => if x.inTrap then { x with releasedT := false } else { x with released := false }) s)
        else s) s

/-- HALT stops the grain core with XA as exit code; a barrier that waited for it alone is released (R215, R222). -/
def execHalt (core : BitVec 5) (g : BitVec 1) (s : State) : Out :=
  grainRow core.toNat g.toNat (isOp 0x3F) (fun w s =>
    let v := regA s core.toNat g.toNat w
    let s := modGrain core.toNat g.toNat (fun x => { x with stopped := true, exit := v, barrier := none, waiting := .none }) s
    match (coreOf s core.toNat).ctx with | some c => barrierRelease c s | none => s) s

/-- TRAP_TAKE (R218): at an instruction boundary; a waiting instruction is abandoned and runs again after the return. -/
def execTrapTake (core : BitVec 5) (g : BitVec 1) (s : State) : Out :=
  let c := core.toNat
  let x := grainOf (coreOf s c) g.toNat
  match x.arriving with
  | [] => .next s
  | (cause, tag) :: rest =>
    if !grainRuns s c g.toNat || !trapDue x then .next s else
    let q := x.trapQueue ++ rest
    .next (modGrain c g.toNat (fun x =>
      { x with inTrap := true, trapRet := x.pc, trapCause := cause, trapTag := tag, arriving := [], trapQueue := q.take 8,
               trapsLost := natMin (x.trapsLost + (q.length - 8)) 0xFFFF, pc := x.trapVec.toNat, waiting := .none, releasedT := false }) s)

/-- ILLEGAL_INSTRUCTION (R215, R219): the fetch finds a word that is not legal, or a program counter beyond the store. -/
def execIllegalInstruction (core : BitVec 5) (g : BitVec 1) (s : State) : Out :=
  let x := grainOf (coreOf s core.toNat) g.toNat
  if !grainRuns s core.toNat g.toNat || trapDue x then .next s
  else if x.pc ≥ progWords then .next (faultAt core.toNat g.toNat 0x04 0 s)
  else if legalWord x (fetchWord x x.pc) then .next s
  else .next (faultAt core.toNat g.toNat 0x01 (fetchWord x x.pc) s)

end Sys2Proof.Machine
end

