-- ==== Sys2Proof/Machine/Memory.lean ====
section
/-! DEFINITION. The memory commands (chapter 8): rows HBM_READ to PUSHAHEAD_DRAIN. What a read's check finds is an operand:
the outcome of the ECC, tag and tree checks on the bits that HBM returns. -/

namespace Sys2Proof.Machine

/-- WRITE is withdrawn from a working range between arrival and the decision (R372). -/
def withdrawn (s : State) (pa : Nat) : Bool :=
  match entryAt s pa with
  | some (c, e) => isWorking s (ctxOf s c).part.toNat (regVBase e + (pa - regPBase e))
  | none => false

/-- HBM_READ (R241, R246, R248): no byte reaches the master before every check has passed. A control window answers without the data
that the manual does not lay out (DESIGN CHOICE, log entry 132). -/
def execHbmRead (m : Master) (pa : W64) (find : HbmFind) (s : State) : Out :=
  if s.pkg.supply != .on then .next s else
  let a := lineOf pa.toNat
  match masterCheck s m rREAD a with
  | .ok =>
    if ctrlWindow a then .next (answer m .ok [] s)
    else if !isHbm s a || isMeta s a then .next (answer m .ok (bytesLE 64 (lineOut s a).toNat) s)
    else if findHits s a find then
      let s := findEffect m a find true s
      .next (answer m (if poisoned s a then .poison else .tagFail) [] s)
    else
      let s := cacheFetch a s
      if poisoned s a then .next (answer m .poison [] s) else .next (answer m .ok (bytesLE 64 (lineOut s a).toNat) s)
  | st => .next (answer m st [] s)

/-- What a write of a bus master meets first: WRITE withdrawn, or its admission. -/
def writeCheck (s : State) (m a : Nat) : Status := if withdrawn s a && m != 0x5F then .denied else masterCheck s m rWRITE a
/-- A bus write to a group under re-encryption waits for its end, and its answer with it (R243, R260). -/
def waitOn (w : LineWait) (s : State) : State :=
  let k := ctrGroup s (w.pa / 4096)
  setGroup (w.pa / 4096) { k with waiting := k.waiting ++ [w] } s
/-- The answer to a bus write that was carried out: the write that calls for a re-encryption is answered when it is done (R243). -/
def written (m a : Nat) (r : State × Status) : State :=
  let k := ctrGroup r.1 (a / 4096)
  if r.2 == .ok && groupBusy r.1 a then setGroup (a / 4096) { k with trig := k.trig.map (fun w => { w with reply := true }) } r.1
  else answer m r.2 [] r.1
/-- Outside HBM a bus write reaches an operand cache; a control window takes it without an effect that the manual lays out. -/
def offHbmWrite (a off : Nat) (b : Bytes) (s : State) : State := if isAlias a then { s with mem := mwrite s.mem (a + off) b } else s

/-- HBM_WRITE (R242, R248): a full line; a writer that meets a full push-ahead buffer or staging area stalls (R387), and its master
presents the write again. -/
def execHbmWrite (m : Master) (pa : W64) (line : WriteLine) (s : State) : Out :=
  if s.pkg.supply != .on then .next s else
  let a := lineOf pa.toNat
  match writeCheck s m a with
  | .ok =>
    if !isHbm s a then .next (answer m .ok [] (offHbmWrite a 0 (bytesLE 64 line.data.toNat) s)) else
    (match intercept a 64 (pushFind m a line.find s) with
    | (s, false) => .next s
    | (s, true) =>
      match writeCheck s m a with
      | .ok =>
        if groupBusy s a then .next (waitOn { pa := a, data := line.data, master := m, reply := true } s)
        else .next (written m a (lineWrite m a line.data s))
      | st => .next (answer m st [] s))
  | st => .next (answer m st [] s)

/-- PARTIAL_WRITE (R247): read, verify, merge, write. The new bytes are the low ones of `data`. -/
def execPartialWrite (m : Master) (pa : W64) (len : BitVec 7) (data : BitVec 512) (find : HbmFind) (s : State) : Out :=
  if s.pkg.supply != .on then .next s else
  let a := lineOf pa.toNat
  let o := pa.toNat % 64
  let n := len.toNat
  if n = 0 then .next (answer m .ok [] s)
  else if o + n > 64 then .next (answer m .badLength [] s) else
  match writeCheck s m a with
  | .ok =>
    if !isHbm s a then .next (answer m .ok [] (offHbmWrite a o (bytesLE n data.toNat) s)) else
    let s := pushFind m a find s
    if writeCheck s m a != .ok then .next (answer m (writeCheck s m a) [] s)
    else if !groupBusy s a && poisoned s a then .next (answer m .poison [] s)
    else if findHits s a find then
      .next (answer m .tagFail [] (memRespond a (memCapture 0x21 m a 0 .tagFail (findEffect m a find false s))))
    else
      (match intercept a 64 s with
      | (s, false) => .next s
      | (s, true) =>
        if groupBusy s a then .next (waitOn { pa := a, off := o, len := n, data := data, master := m, reply := true } s)
        else .next (written m a (lineWrite m a (mergeInto (lineData s a) o n data) (cacheFetch a s))))
  | st => .next (answer m st [] s)

/-- LINE_ADD (R258): the channel's adder completes the line add at the head of its queue; one to a group under re-encryption waits
there (R260). -/
def execLineAdd (stack : BitVec 4) (ch : BitVec 5) (find : HbmFind) (s : State) : Out :=
  let q := stack.toNat * 32 + ch.toNat
  if s.pkg.supply != .on then .next s else
  match tget [] s.hbm.atomQ q with
  | [] => .next s
  | a :: _ =>
    let pa := linePa s (contribOf s a.id) a.line
    if groupBusy s pa then .next s else
    (match intercept pa 64 (pushFind (contribOf s a.id).master pa find s) with
    | (s, false) => .next s
    | (s, true) =>
      match lineAdd q find s with
      | none => .next s
      | some (_, s) => .next (settleAdds (refill s)))

/-- Writes that waited on a group go on, in order (R243): a partial write meets the line as it stands (R247, R248). -/
def drainWaiting : Nat → Nat → State → State
  | 0, _, s => s
  | n + 1, g, s =>
    let k := ctrGroup s g
    if k.busy then s else
    match k.waiting with
    | [] => s
    | w :: t =>
      let s := setGroup g { k with waiting := t } s
      let (s, st) := if w.len < 64 && poisoned s w.pa then (s, .poison)
        else lineWrite w.master w.pa (mergeInto (lineData s w.pa) w.off w.len w.data) s
      drainWaiting n g (if w.reply then written w.master w.pa (s, st) else s)

/-- GROUP_REENCRYPT_DONE (R243): the leaf holds MAJOR + 1 with every minor at 0, the write that needed minor 128 goes in as its line,
and waiting writes and contributions proceed. `bad` names the lines that failed verification: they are poisoned. -/
def execGroupReencryptDone (group : W64) (bad : W64) (s : State) : Out :=
  let g := group.toNat
  let k := ctrGroup s g
  if !k.busy then .next s else
  let line (i : Nat) : Nat := g * 4096 + 64 * i
  let s := (List.range 64).foldl (fun s i =>
      if !bit bad i || k.trig.any (fun w => w.pa == line i) || poisoned s (line i) then s
      else memRespond (line i) (memCapture 0x20 0x5F (line i) 0 .tagFail (poisonLine (line i) s))) s
  if !(ctrGroup s g).busy then .next s else
  let s := setGroup g { k with major := k.major + 1, minors := [], busy := false, trig := none } s
  let s := match k.trig with
    | some w => let s := putLine w.pa w.data s; if w.reply then answer w.master .ok [] s else s
    | none => s
  let s := (List.range 64).foldl (fun s i => countLine (line i) s) s
  let s := driveLine (line 63) ((k.major + 1) * 128) (lineData s (line 63)) (markDirty (lineOf (tagPa (line 63))) (markDirty (leafPa (line 0)) s))
  let s := drainWaiting (k.waiting.length + 1) g (majorNotice g s)
  .next (s.hbm.contribs.foldl (fun s e => contribSettle e.1 s) s)

/-- A node or root counter of the line's slice would reach its end: the owning partition is reset with COUNTER_EXHAUSTED (R242). -/
def counterSpent (pa : Nat) (s : State) : State := match partOfSlice s (sliceOf pa) with | some p => resetPartition p 3 s | none => s
/-- METADATA_WRITEBACK (R242): the line leaves the counter cache; the parent counter of a leaf or node advances, and its MAC is formed
anew under it. -/
def execMetadataWriteback (line : W64) (s : State) : Out :=
  let pa := lineOf line.toNat
  if !isDirty s pa then .next s else
  let s := { s with hbm := { s.hbm with dirty := s.hbm.dirty.filter (· != pa) } }
  match parentOf pa with
  | none => .next (driveMeta pa s)
  | some (some k, _) =>
    let n := tget 0 s.hbm.nodes k + 1
    if n ≥ counterEnd then .next (counterSpent pa s) else
    .next (driveMeta pa (markDirty (k / 8) { s with hbm := { s.hbm with nodes := tset s.hbm.nodes k n } }))
  | some (none, r) =>
    let n := tget 0 s.hbm.roots r + 1
    if n ≥ counterEnd then .next (counterSpent pa s) else .next (driveMeta pa { s with hbm := { s.hbm with roots := tset s.hbm.roots r n } })

/-- The queue without the first piece of work of an entry. -/
def zotTake (c i : Nat) : List ZotWork → List ZotWork
  | [] => []
  | w :: t => if zotOf c i w then t else w :: zotTake c i t
/-- The path above the leaves of a sealed piece of work is rewritten; it lies in one slice (R231). -/
def zotPath (w : ZotWork) (s : State) : State :=
  if !w.isSealed || w.len = 0 then s else
  let lo := w.base % 2 ^ 32 / 4096
  let hi := (w.base % 2 ^ 32 + w.len - 1) / 4096
  if pathEnds s (sliceOf w.base) lo hi then counterSpent w.base s else rewritePath (sliceOf w.base) lo hi s
/-- The stacks on which the work runs end it now. -/
def zotEnded (w : ZotWork) (s : State) : Tbl Nat :=
  ((List.range 12).filter (fun k => zotWork k w != 0)).foldl (fun t k => tset t k (now s)) s.hbm.zotFree

/-- ZOT_WORK_DONE (R249): the work of a region completes, and ZOT clears when none of it is left. -/
def execZotWorkDone (ctx : BitVec 8) (entry : BitVec 10) (s : State) : Out :=
  let c := ctx.toNat
  let i := entry.toNat
  match s.hbm.zotQ.find? (zotOf c i) with
  | none => .next s
  | some w =>
    let q := zotTake c i s.hbm.zotQ
    let s := zotPath w { s with hbm := { s.hbm with zotQ := q, zotFree := zotEnded w s } }
    if q.any (zotOf c i) then .next s else
    let k := ctxOf s c
    let e := tget 0 k.regions i
    if !regValid e then .next s else .next (setCtx s c { k with regions := tset k.regions i (setBit e 42 false) })

/-- The cores whose spill channels the partition's SNAPSHOT_PUSHAHEAD claims name, in order (R334). -/
def pushCores (s : State) (p : Nat) : List Nat :=
  (claimsOf s).filterMap (fun e => if fld e 63 56 == 2 && fld e 47 40 == 4 && fld e 35 32 == p then some (fld e 55 48) else none)
/-- The context whose save uses the core's spill channel now (R335). -/
def savingOn (s : State) (core : Nat) : Option Nat :=
  (s.ctxs.find? (fun e => ((e.2.state == .active && e.2.switching) || (e.2.state == .fencing && e.2.saveReq)) && (runningCores s e.1).contains core)).map (·.1)
/-- A burst of ns leaves the channel to the save: push-ahead may delay one save by 40 µs in all (R335). -/
def channelOpen (s : State) (ns core : Nat) : Bool :=
  match savingOn s core with | some c => (ctxOf s c).pushDelay + ns ≤ 40000 | none => true
/-- The next claimed channel, in turn, that takes a burst: its place among the claims, and its core. -/
def pushChannel (s : State) (p ns : Nat) : Option (Nat × Nat) :=
  let l := pushCores s p
  let k := (partOf s p).snap.turn % natMax 1 l.length
  let places := (List.range l.length).map (fun i => (k + i) % natMax 1 l.length)
  (places.map (fun i => (i, l.getD i 0))).find? (fun x => channelOpen s ns x.2)
/-- One group goes from its die's buffer to its staging slot. -/
def drainGroup (p : Nat) (s : State) (g : Nat) : State :=
  let q := partOf s p
  let k := tget 0 q.snap.map g - 1
  (putBytes 0x52 (stagePa q.snap k) (padTo 4096 (tget [] q.snap.stage k))
    (setPart s p { q with snap := { q.snap with stage := tdrop (· == k) q.snap.stage, pbuf := q.snap.pbuf.filter (· != g) } })).1
/-- PUSHAHEAD_DRAIN (R386): a burst of at most 64 KiB, 16 groups of the die whose buffer holds the oldest, goes to the staging area over the
next claimed spill channel that no save holds (R335). -/
def execPushaheadDrain (part : BitVec 4) (s : State) : Out :=
  let p := part.toNat
  let n := (partOf s p).snap
  match n.pbuf with
  | [] => .next s
  | g :: _ =>
    let burst := (n.pbuf.filter (fun x => stackOf (x * 4096) / 3 == stackOf (g * 4096) / 3)).take 16
    let ns := burst.length * 32
    match pushChannel s p ns with
    | none => .next s
    | some (i, core) =>
      let s := setPart s p { partOf s p with snap := { n with turn := i + 1 } }
      let s := match savingOn s core with
        | some c => setCtx s c { ctxOf s c with pushDelay := (ctxOf s c).pushDelay + ns }
        | none => s
      .next (burst.foldl (drainGroup p) s)

end Sys2Proof.Machine
end

