-- ==== Sys2Proof/Machine/VecOps.lean ====
section
/-! DEFINITION. The vector engine's operations (R187-R212): views, validation, loading and storing elements, lane
arithmetic, reductions and summaries, rows and blocks. The rows of the table stand in Vector.lean. -/

namespace Sys2Proof.Machine

/-! ## Places in a view (R189) -/

/-- Logical element at an iteration point. -/
def vwElem (v : View) (i : List Nat) : Int :=
  vwOrigin v + ((List.range 5).map (fun a => (((i[a]?).getD 0 : Nat) : Int) * vwStride v a)).sum
/-- Smallest and largest logical element over extents that are not zero. -/
def vwMin (v : View) (exts : List Nat) : Int :=
  vwOrigin v + ((List.range 5).map (fun a => let t := vwStride v a * ((((exts[a]?).getD 1 : Nat) : Int) - 1); if t < 0 then t else 0)).sum
def vwMax (v : View) (exts : List Nat) : Int :=
  vwOrigin v + ((List.range 5).map (fun a => let t := vwStride v a * ((((exts[a]?).getD 1 : Nat) : Int) - 1); if t < 0 then 0 else t)).sum
def vwInRange (v : View) (exts : List Nat) : Bool :=
  0 ≤ vwMin v exts && vwMax v exts < (vwSlabs v * vwRows v * vwCols v : Nat)

/-- Where an element lies: tile number in the grid, row and column in the tile. -/
def vwPlace (v : View) (e : Int) : Nat × Nat × Nat :=
  let e := e.toNat
  let rc := vwRows v * vwCols v
  let row := e % rc / vwCols v
  let col := e % vwCols v
  ((e / rc * vwGr v + row / vwTRows v) * vwGc v + col / vwTCols v, row % vwTRows v, col % vwTCols v)
def vwAddr (core : Nat) (v : View) (t : Nat) : Nat := unitAddr core (vwBase v + t * vwSlot v)
/-- Slab, tile row and tile column of tile t. -/
def vwCoord (v : View) (t : Nat) : Nat × Nat × Nat := (t / (vwGr v * vwGc v), t / vwGc v % vwGr v, t % vwGc v)
/-- Slab, ROW_ORIGIN and COL_ORIGIN of tile t. -/
def vwOrg (v : View) (t : Nat) : Nat × Nat × Nat :=
  let c := vwCoord v t
  (c.1, c.2.1 * vwTRows v, c.2.2 * vwTCols v)

/-- Every iteration point of extents, axis 0 fastest. -/
def points : List Nat → List (List Nat)
  | [] => [[]]
  | x :: t => (points t).flatMap (fun p => (List.range x).map (fun i => i :: p))
/-- The tiles a use of a view can reach (R191). -/
def vwReach (v : View) (u : VUse) : List Nat :=
  if u.all then List.range (vwTiles v) else
  (points u.exts).foldl (fun l i => let t := (vwPlace v (vwElem v i)).1; if l.contains t then l else l ++ [t]) []

/-! ## Validation (R205) -/

/-- Register operands an instruction reads, and the register it writes (R195). -/
def xSrcs (w : W64) : List Nat :=
  match xOp w with
  | 0x02 => [xA w] | 0x10 => [xA w, xB w] | 0x11 => [xA w, xB w] | 0x12 => [xA w, xB w] | 0x13 => [xA w, xB w, xC w]
  | 0x14 => [xA w, xB w] | 0x15 => [xA w] | 0x16 => [xA w, xB w] | 0x17 => [xA w, xB w] | 0x18 => [xA w] | 0x19 => [xA w]
  | 0x1A => [xA w] | 0x20 => [xA w, xB w] | 0x21 => [xA w, xB w, xC w] | 0x22 => [xA w]
  | 0x23 => if xSub w = 3 then [xA w] else [xA w, xB w]
  | 0x30 => [xA w, xB w] | 0x31 => [xB w] | 0x40 => [xA w] | 0x41 => [xA w] | 0x50 => [xA w, xB w] | 0x51 => [xB w, xC w]
  | 0x60 => [xA w, xB w] | _ => []
def xDsts (w : W64) : List Nat :=
  if xOp w = 0x02 || xOp w = 0x41 || xOp w = 0x50 then [] else [xD w]
/-- Registers that must be multiples of 4: the operands of type W96 (R196). -/
def xWide (w : W64) : List Nat :=
  match xOp w with
  | 0x01 => if xType w = 3 then [xD w] else []
  | 0x02 => if xType w = 3 then [xA w] else []
  | 0x21 => if xType w = 3 then [xA w, xC w, xD w] else []
  | 0x22 => (if xType w = 3 then [xD w] else []) ++ (if xSub w % 4 = 3 then [xA w] else [])
  | 0x31 => if xType w = 3 then [xD w] else []
  | 0x60 => [xA w, xB w, xD w]
  | _ => []
/-- A register operand with the registers it covers: four where it is of type W96. -/
def xCover (w : W64) (l : List Nat) : List Nat := l.flatMap (fun r => if (xWide w).contains r then [r, r + 1, r + 2, r + 3] else [r])
/-- The types an opcode allows, and its sub-operations and constant indices (R195). -/
def xAllowed (w : W64) : Bool :=
  let t := xType w
  match xOp w with
  | 0x01 => true | 0x02 => true
  | 0x03 => t != 3 && xImm w < 8
  | 0x10 => t != 3 | 0x11 => t != 3 | 0x12 => t != 3
  | 0x13 => t < 2
  | 0x14 => t == 0 | 0x15 => t == 0
  | 0x16 => t != 3 | 0x17 => t != 3 | 0x18 => t != 3 | 0x19 => t != 3
  | 0x1A => t < 2 && xSub w ≤ 8
  | 0x20 => (t == 0 || t == 2) && xSub w ≤ 4
  | 0x21 => true
  | 0x22 => xSub w % 4 != 1
  | 0x23 => t == 2 && xSub w ≤ 3
  | 0x30 => t == 0 || t == 2
  | 0x31 => t != 1
  | 0x32 => t == 2
  | 0x40 => (t == 0 || t == 2) && xSub w ≤ 4
  | 0x41 => (t == 0 || t == 2) && xSub w ≤ 7 && xImm w < 16
  | 0x50 => t == 0 || t == 2 | 0x51 => t == 0 || t == 2
  | 0x60 => t == 3
  | _ => false
def xPackOk (pack : Bool) (w : W64) : Bool :=
  if pack then xType w == 1 && [0x01, 0x02, 0x03, 0x10, 0x11, 0x12, 0x13, 0x16, 0x17, 0x18, 0x19, 0x1A].contains (xOp w)
  else xType w != 1
/-- An instruction with a fault of check 5. -/
def xBad (d : VDesc) (w : W64) : Bool :=
  !xAllowed w || !xPackOk (vPack d) w || fld w 15 8 != 0 || xIdx w == 3 ||
  (xWide w).any (fun r => r % 4 != 0) ||
  (xPass w == 0 && (xCover w (xSrcs w)).any (fun r => (redRegs d).contains r)) ||
  ((xOp w == 0x50 || xOp w == 0x51) && vMask d &&& 0x3F != 0)

/-- The view's own fields (R205). -/
def viewBad (v : View) : Bool :=
  vwTRows v == 0 || vwTCols v == 0 || vwSlabs v == 0 || vwRows v == 0 || vwCols v == 0 || fld v 101 0 != 0 ||
  !formatOk (vwFmt v) (vwMode v) (vwSf v) (vwZp v)
/-- A destination stride of 0 on an axis whose extent exceeds 1 (R190). -/
def strideBad (v : View) (exts : List Nat) : Bool :=
  (List.range 5).any (fun a => (exts[a]?).getD 1 > 1 && vwStride v a == 0)
/-- Whole-row coverage of a destination with scales along the row (R199). -/
def coverBad (v : View) (exts : List Nat) : Bool :=
  (vwMode v == 1 || vwMode v == 3) &&
  !(vwStride v 0 == 1 && vwOrigin v % vwCols v == 0 && (exts[0]?).getD 0 == vwCols v)
def vwPayload (v : View) : Nat :=
  let g := geometry (vwFmt v) false (vwMode v) (vwSf v) (vwTRows v) (vwTCols v)
  g.1 + g.2.1 + g.2.2

/-- FP32 parameters of an update. -/
def updNum (d : VDesc) (hi : Nat) : Nat := fld d.hdr hi (hi - 31)
def f32Finite (x : Nat) : Bool := isFinite (decode32 x).1
/-- R210 and R211, each value after a subnormal is flushed (DESIGN CHOICE, log entry 149). -/
def updateBad (d : VDesc) : Bool :=
  let v := fun hi => viewOf d (fld d.hdr hi (hi - 5))
  let plain := fun (w : View) => vwMode w == 0
  let block := fun (w : View) => vwMode w == 3 && vwSf w == 0x10
  let mom := fun (w : View) => (vwFmt w == 0x04 || vwFmt w == 0x09) && block w
  let sec := fun (w : View) => (vwFmt w == 0x04 || vwFmt w == 0x05) && block w
  let copy := v 101
  !((vwFmt (v 143) == 0x0A || vwFmt (v 143) == 0x0B) && plain (v 143)) ||
  !(vwFmt (v 137) == 0x0A && plain (v 137)) || !(vwFmt (v 119) == 0x0A && plain (v 119)) ||
  !mom (v 131) || !mom (v 113) || !sec (v 125) || !sec (v 107) ||
  (bit d.hdr 85 && !((vwFmt copy == 0x07 && plain copy) || ((vwFmt copy == 0x04 || vwFmt copy == 0x05) && (vwMode copy == 1 || vwMode copy == 3)))) ||
  coverBad (v 131) (vExts d) || coverBad (v 125) (vExts d) ||
  [511, 479].any (fun hi => let b := (decode32 (updNum d hi)).1; !(vlt vzero b && vlt b vone)) ||
  [447, 415, 383, 351, 319, 287].any (fun hi => !f32Finite (updNum d hi)) ||
  (bit d.hdr 84 && !(f32Finite (updNum d 255) && vlt vzero (decode32 (updNum d 255)).1)) ||
  (bit d.hdr 82 && updNum d 223 == 0)

/-- Reserved fields of the header and of the unused instruction slots. -/
def vReserved (d : VDesc) : Bool :=
  if isUpdate d then fld d.hdr 75 16 != 0
  else fld d.hdr 391 384 != 0 || fld d.hdr 99 96 != 0 || fld d.hdr 83 16 != 0 || (d.code.drop (vCount d)).any (· != 0)
def usesPos (d : VDesc) : Bool := (vCode d).any (fun w => xOp w == 0x32)

/-- Two views' grids. -/
def vwSpan (v : View) : Nat × Nat := (vwBase v, vwTiles v * vwSlot v)
/-- A no-op (R205). -/
def vNoop (d : VDesc) : Bool := (vExts d).any (· == 0) || (!isUpdate d && vCount d == 0)
/-- The checks that a no-op undergoes too: reserved fields, codes, counts of all ones, a summary register in use (R12, R13, R202). -/
def vFieldChecks (d : VDesc) : List Check :=
  [ ⟨5, !(dOp d.hdr == 0x40 || dOp d.hdr == 0x41) || vReserved d || vMask d == 0, .badDescriptor⟩,
    ⟨5, !isUpdate d && fld d.hdr 107 105 > 4, .badDescriptor⟩,
    ⟨5, (vCode d).any (xBad d), .badDescriptor⟩,
    ⟨6, (vExts d).any (· == 2 ^ 24 - 1) || (!isUpdate d && vCount d > 16), .badLength⟩,
    ⟨8, d.clash, .conflict⟩ ]
/-- The checks of R205. -/
def vChecks (s : State) (core : Nat) (d : VDesc) : List Check :=
  let us := vUses d
  let src := us.filter (fun u => !u.dst)
  let dst := us.filter (·.dst)
  let vw := fun (u : VUse) => viewOf d u.view
  vFieldChecks d ++ if vNoop d then [] else
  [ ⟨5, us.any (fun u => viewBad (vw u)) || dst.any (fun u => strideBad (vw u) u.exts || coverBad (vw u) u.exts), .badDescriptor⟩,
    ⟨5, isUpdate d && updateBad d, .badDescriptor⟩,
    ⟨6, us.any (fun u => let v := vw u; vwTRows v > 4096 || vwTCols v > 4096 || vwPayload v > maxPayload ||
        vwSlot v * 64 < footprint (vwPayload v)), .badLength⟩,
    ⟨6, usesPos d && fld d.hdr 127 108 + ((vExts d)[fld d.hdr 107 105]?).getD 0 > 1048576, .badLength⟩,
    ⟨7, us.any (fun u => !vwInRange (vw u) u.exts || (vwSpan (vw u)).1 + (vwSpan (vw u)).2 > allocUnits s core), .outOfRegion⟩,
    ⟨7, dst.any (fun u => src.any (fun w => vw u != vw w && overlaps (vwSpan (vw u)).1 (vwSpan (vw u)).2 (vwSpan (vw w)).1 (vwSpan (vw w)).2)), .outOfRegion⟩ ]

/-! ## Rows and blocks (R194) -/

def blockSize (d : VDesc) : Nat := if vPack d then 128 else 64
def nRows (d : VDesc) : Nat := ((vExts d).drop 1).foldl (· * ·) 1
/-- The channels of the mask, ascending. -/
def vChans (d : VDesc) : List Nat := (List.range 8).filter (fun c => nbit (vMask d) c)
/-- Indices on axes 1-4 of a row, axis 1 fastest. -/
def rowPoint (d : VDesc) (row : Nat) : List Nat :=
  let e := vExts d
  let x := fun a => (e[a]?).getD 1
  [row % x 1, row / x 1 % x 2, row / (x 1 * x 2) % x 3, row / (x 1 * x 2 * x 3) % x 4]
/-- A second-pass instruction that runs once per row: an ST whose VA is a reduction register, and one whose every register operand, its
destination included, is a reduction register. -/
def perRow (d : VDesc) (w : W64) : Bool :=
  let ops := xCover w (xSrcs w ++ xDsts w)
  xPass w == 1 && ((xOp w == 0x02 && (redRegs d).contains (xA w)) || (!ops.isEmpty && ops.all (fun r => (redRegs d).contains r)))
def instrs (d : VDesc) (p : W64 → Bool) : List Nat := (List.range (vCode d).length).filter (fun n => p (vInstr d n))
/-- The order within a row: (phase, block, instruction); phase 2 holds the instructions that run once per row. -/
def rowProgram (d : VDesc) : List (Nat × Nat × Nat) :=
  let nb := ceilDiv ((vExts d)[0]?.getD 0) (blockSize d)
  (List.range nb).flatMap (fun b => (instrs d (fun w => xPass w == 0)).map (fun n => (0, b, n))) ++
  (List.range nb).flatMap (fun b => (instrs d (fun w => xPass w == 1 && !perRow d w)).map (fun n => (1, b, n))) ++
  (instrs d (perRow d)).map (fun n => (2, 0, n))
/-- The chain runs twice: it stores to a view with one scale per column (R194, R199). -/
def twoRuns (d : VDesc) : Bool := (vUses d).any (fun u => u.dst && vwMode (viewOf d u.view) == 2)

/-- The place an instruction runs at. -/
structure VX where
  core : Nat
  ch   : Nat        -- channel
  key  : Nat        -- the run's lowest channel
  d    : VDesc
  n    : Nat        -- instruction
  w    : W64
  row  : Nat
  blk  : Nat
  phase : Nat

def chanOf (s : State) (core ch : Nat) : Chan := tget {} (coreOf s core).vec.chans ch
def modChan (core ch : Nat) (f : Chan → Chan) (s : State) : State :=
  let k := coreOf s core
  setCore s core { k with vec := { k.vec with chans := tmod {} k.vec.chans ch f } }
def runOf (s : State) (core key : Nat) : VecRun := tget {} (coreOf s core).vec.runs key
def modRun (core key : Nat) (f : VecRun → VecRun) (s : State) : State :=
  let k := coreOf s core
  setCore s core { k with vec := { k.vec with runs := tmod {} k.vec.runs key f } }
/-- The first of two runs of a chain with column scales: it writes and counts nothing (R194). -/
def dryRun (s : State) (x : VX) : Bool := twoRuns x.d && (runOf s x.core x.key).scale == 0

/-- Elements of the block below EXTENT0. -/
def vLen (x : VX) : Nat := natMin (blockSize x.d) ((vExts x.d)[0]?.getD 0 - x.blk * blockSize x.d)
/-- Active lanes of the block. -/
def vLanes (x : VX) : Nat := if x.phase = 2 then 1 else if vPack x.d then ceilDiv (vLen x) 2 else vLen x
/-- The iteration point of element k of the block. -/
def vPoint (x : VX) (k : Nat) : List Nat := (if x.phase = 2 then 0 else x.blk * blockSize x.d + k) :: rowPoint x.d x.row

/-! ## Registers -/

def rget (c : Chan) (r l : Nat) : W32 := tget 0 c.regs (r * 64 + l)
def rsetAll (c : Chan) (ws : List (Nat × Nat × W32)) : Chan :=
  { c with regs := ws.foldl (fun t e => tset t (e.1 * 64 + e.2.1) e.2.2) c.regs }
/-- A W96 value in four registers. -/
def rgetW (c : Chan) (r l : Nat) : Nat :=
  (rget c r l).toNat + (rget c (r + 1) l).toNat * 2 ^ 32 + (rget c (r + 2) l).toNat * 2 ^ 64 + (rget c (r + 3) l).toNat * 2 ^ 96
def wideRegs (r : Nat) (g : Nat) : List (Nat × W32) :=
  (List.range 4).map (fun i => (r + i, BitVec.ofNat 32 (g / 2 ^ (32 * i))))
/-- A W96 element as the engine consumes it: a malformed one raises INVALID (R183), a NaN NAN_IN, an infinity INF. -/
def readVec (x : Nat) : Group × Exc :=
  let (g, fl) := readW96 x 2
  (g, if fl != 0 then fl else if gNan g then fNAN_IN else if gPinf g || gNinf g then fINF else 0)
/-- The flags that reading a value for a conversion raises: a NaN passing through raises none of its own (R115). -/
def passFlags (f : Exc) : Exc := f &&& ~~~ fNAN_IN
/-- A lane's value as FP32, INT32 or W96. -/
def rval (c : Chan) (ty r l : Nat) : Val × Exc :=
  match ty with
  | 0 => decode32 (rget c r l).toNat
  | 2 => (vint (rget c r l).toInt, 0)
  | 3 => let (g, x) := readVec (rgetW c r l); (groupVal g, x ||| if gShed g then fSHED else 0)
  | _ => decodeFloat 0x07 ((rget c r l).toNat % 2 ^ 16)

/-! ## Flags, events, captures (R206, R207) -/

/-- The place of an event in the logical order of R207. -/
def evKey (x : VX) (l : Nat) : Nat := ((x.row * 2 ^ 24 + x.blk + (if x.phase = 2 then 2 ^ 20 else 0)) * 64 + l) * 32 + x.n
/-- The destination tile of a lane: the first destination the chain names. -/
def destAt (x : VX) (l : Nat) : Option (Nat × Nat × Nat × Nat) :=
  match (vUses x.d).find? (·.dst) with
  | none => none
  | some u =>
    let v := viewOf x.d u.view
    let p := vwPlace v (vwElem v (if u.exts == vExts x.d then vPoint x (if vPack x.d then 2 * l else l) else 0 :: rowPoint x.d x.row))
    some (vwAddr x.core v p.1, vwTensor v, p.2.1, p.2.2)
/-- An event of a run at a place of the logical order, with the destination tile it names: its address, TENSOR_ID, row, column. -/
def vecEventAt (x : VX) (cause key idx : Nat) (at_ : Nat × Nat × Nat × Nat) (s : State) : State :=
  let r := runOf s x.core x.key
  let (a, t, row, col) := at_
  let op := if isUpdate x.d then 0x41 else xOp x.w
  let n := if isUpdate x.d then 31 else x.n
  let rec' := capRecord s (coreCtx s x.core) cause {
    status := if cause = 0x11 && xIdx x.w = 2 then .outOfRegion else .ok,
    tensor := t, addr := a, tag := dTag x.d.hdr, core := x.core, engine := 3,
    detail := x.ch * 2 ^ 93 + n * 2 ^ 88 + op * 2 ^ 80 + row * 2 ^ 68 + col * 2 ^ 56 + idx % 2 ^ 32 * 2 ^ 24 }
  let better := ((r.capt.find? (fun e => e.1 == cause)).map (fun e => decide (key < e.2.1))).getD true
  let s : State := if better then modRun x.core x.key (fun r => { r with capt := tset r.capt cause (key, rec') }) s else s
  if cause = 0x10 && vTrap x.d && !r.trapped then
    trapRaise x.core r.grain 2 (dTag x.d.hdr) (modRun x.core x.key (fun r => { r with trapped := true }) s)
  else s
def vecEvent (x : VX) (cause l idx : Nat) (s : State) : State := vecEventAt x cause (evKey x l) idx ((destAt x l).getD (0, 0, 0, 0)) s
/-- Flags that an instruction raises in a lane are counted, and INVALID is an invalid event. -/
def laneRaise (x : VX) (l : Nat) (fl : Exc) (s : State) : State :=
  if fl = 0 then s else
  let s := countFlags (coreCtx s x.core) fl s
  if fl &&& fINVALID != 0 then vecEvent x 0x10 l 0 s else s
/-- The same, but for the first of two runs (R194). -/
def laneFlags (x : VX) (l : Nat) (fl : Exc) (s : State) : State := if dryRun s x then s else laneRaise x l fl s

/-! ## Skip tiles (R80) -/

/-- The element of a view at a point lies in a SKIP_TILE. -/
def elemSkip (s : State) (x : VX) (v : View) (i : List Nat) : Bool :=
  let r := runOf s x.core x.key
  !r.skips.isEmpty && r.skips.contains (vwAddr x.core v (vwPlace v (vwElem v i)).1)
/-- A point has no result: a source that an LD, or the parameter update, reads there lies in a SKIP_TILE, or the element that a GATHER,
EXPAND or PERM has taken for it did (DESIGN CHOICE, log entry 151). -/
def pointSkip (s : State) (x : VX) (i : List Nat) : Bool :=
  let vs := if isUpdate x.d then [143, 137, 131, 125].map (fun hi => fld x.d.hdr hi (hi - 5))
            else (vCode x.d).filterMap (fun w => if xOp w = 0x01 then some (xView w) else none)
  vs.any (fun n => elemSkip s x (viewOf x.d n) i) || (chanOf s x.core x.ch).dead.contains ((i.head?).getD 0)
/-- Elements of the block lose their result. -/
def laneKill (x : VX) (ls : List Nat) (s : State) : State :=
  if ls.isEmpty then s else modChan x.core x.ch (fun c => { c with dead := c.dead ++ ls.map (fun l => ((vPoint x l).head?).getD 0) }) s
/-- The elements a lane holds. -/
def laneElems (x : VX) (l : Nat) : List Nat := if vPack x.d then (if 2 * l + 1 < vLen x then [2 * l, 2 * l + 1] else [2 * l]) else [l]
/-- A lane has no result: every element it holds is skipped; in a per-row instruction, every element of the row. -/
def laneOff (s : State) (x : VX) (l : Nat) : Bool :=
  if x.phase = 2 then (List.range ((vExts x.d)[0]?.getD 0)).all (fun k => pointSkip s x (k :: rowPoint x.d x.row))
  else (laneElems x l).all (fun k => pointSkip s x (vPoint x k))
/-- The lanes that compute. -/
def lanesOn (s : State) (x : VX) : List Nat := (List.range (vLanes x)).filter (fun l => !laneOff s x l)

/-- Run a lane function over the active lanes: it answers the registers written, and the flags of each element it computes, which
count one by one. All lanes read before any lane is written. -/
def laneStep (x : VX) (f : Chan → Nat → List (Nat × W32) × List Exc) (s : State) : State :=
  let c := chanOf s x.core x.ch
  let res := (lanesOn s x).map (fun l => (l, f c l))
  let word := fun (l : List Exc) => l.foldl (fun a b => a ||| b) (0 : Exc)
  let s := modChan x.core x.ch (fun c =>
    let c := rsetAll c (res.flatMap (fun e => e.2.1.map (fun w => (w.1, e.1, w.2))))
    { c with flags := res.foldl (fun t e => if word e.2.2 = 0 then t else tmod 0 t e.1 (· ||| word e.2.2)) c.flags }) s
  res.foldl (fun s e => e.2.2.foldl (fun s fl => laneFlags x e.1 fl s) s) s

/-! ## Lane arithmetic (R197) -/

/-- An FP32 operation: flushed operands, one rounding. -/
def f32op (f : Val → Val → Val → Val × Exc) (a b c : W32) : W32 × Exc :=
  let (x, fa) := decode32 a.toNat
  let (y, fb) := decode32 b.toNat
  let (z, fc) := decode32 c.toNat
  let (r, fo) := f x y z
  let (code, fr) := round32 r
  (BitVec.ofNat 32 code, fa ||| fb ||| fc ||| fo ||| fr)
def bfop (f : Val → Val → Val → Val × Exc) (a b c : Nat) : Nat × Exc :=
  let (x, fa) := decodeFloat 0x07 a
  let (y, fb) := decodeFloat 0x07 b
  let (z, fc) := decodeFloat 0x07 c
  let (r, fo) := f x y z
  let (code, fr) := roundFloat 0x07 0 0 r
  (code, fa ||| fb ||| fc ||| fo ||| fr)
/-- An INT32 operation, saturating. -/
def i32op (f : Int → Int → Int) (a b : W32) : W32 × Exc :=
  let (code, fl) := roundInt 0x0C 0 (vint (f a.toInt b.toInt))
  (BitVec.ofNat 32 code, fl)
/-- The operation with the flags that count: what the instruction raises, and FLUSH once more for each further value flushed (R110,
R206, DESIGN CHOICE, log entry 128). -/
def f32ops (f : Val → Val → Val → Val × Exc) (a b c : W32) : W32 × List Exc :=
  let r := f32op f a b c
  let out := (round32 (f (decode32 a.toNat).1 (decode32 b.toNat).1 (decode32 c.toNat).1).1).2 &&& fFLUSH != 0
  let n := ([a, b, c].filter (fun x => fp32Sub x.toNat)).length + out.toNat
  (r.1, r.2 :: List.replicate (n - 1) fFLUSH)
/-- Both BF16 values of a lane, each with its flags; an inactive element keeps its half. -/
def packOp (f : Nat → Nat → Nat → Nat × Exc) (both : Bool) (old a b c : W32) : W32 × List Exc :=
  let (lo, x) := f (fld a 15 0) (fld b 15 0) (fld c 15 0)
  if both then
    let (hi, y) := f (fld a 31 16) (fld b 31 16) (fld c 31 16)
    (BitVec.ofNat 32 (lo + hi * 2 ^ 16), addFlags [x, y])
  else (BitVec.ofNat 32 (lo + fld old 31 16 * 2 ^ 16), [x])

/-- A fused multiply-add: one rounding follows. -/
def vFma (a b c : Val) : Val × Exc :=
  match a, b, c with
  | .nan k, _, _ => (.nan k, fNAN_IN)
  | _, .nan k, _ => (.nan k, fNAN_IN)
  | _, _, .nan k => (.nan k, fNAN_IN)
  | _, _, _ =>
    let (p, x) := vMul a b
    if isNan p then (p, x) else let (r, y) := vAdd p c; (r, x ||| y)
def vSub (a b : Val) : Val × Exc := match b with | .nan k => (match a with | .nan j => (.nan j, fNAN_IN) | _ => (.nan k, fNAN_IN)) | _ => vAdd a (vneg b)

/-- ADD to FUNC: FP32, BF16X2 or INT32 on the one to three registers the instruction reads. -/
def aluStep (x : VX) (f : Val → Val → Val → Val × Exc) (g : Int → Int → Int) (s : State) : State :=
  let n := (xSrcs x.w).length
  laneStep x (fun c l =>
    let a := rget c (xA x.w) l
    let b := if 2 ≤ n then rget c (xB x.w) l else 0
    let e := if 3 ≤ n then rget c (xC x.w) l else 0
    let (v, fl) :=
      match xType x.w with
      | 0 => f32ops f a b e
      | 1 => packOp (bfop f) (2 * l + 1 < vLen x) (rget c (xD x.w) l) a b e
      | _ => let (y, fl) := i32op g a b; (y, [fl])
    ([(xD x.w, v)], fl)) s

/-- The result of a comparison (R195). -/
def cmpVal (sub : Nat) (a b : Val) : Bool :=
  let un := isNan a || isNan b
  match sub with
  | 0 => veq a b
  | 1 => !veq a b
  | 2 => !un && vlt a b
  | 3 => !un && !vlt b a
  | _ => un

/-! ## Loading (R198) -/

/-- A decoded value below 2^-126 is flushed on its way to FP32. -/
def loadFlush (v : Val) : Val × Exc :=
  match v with
  | .fin s n d e => if n != 0 && vlt (.fin false n d e) (.fin false 1 1 (-126)) then (.fin s 0 1 0, fFLUSH) else (v, 0)
  | _ => (v, 0)
/-- A value that enters a register of a type, rounded to nearest even; W96 has four words. -/
def toReg (ty : Nat) (v : Val) : Nat × Exc :=
  match ty with
  | 0 => round32 v
  | 1 => roundFloat 0x07 0 0 v
  | 2 => roundInt 0x0C 0 v
  | _ => ((canonW96 (toW96 v)).toNat, 0)
/-- The element of a view at a point, converted to a register type: its bits, and its flags. -/
def loadElem (s : State) (x : VX) (v : View) (i : List Nat) (ty : Nat) : Nat × Exc :=
  let (t, r, c) := vwPlace v (vwElem v i)
  let a := vwAddr x.core v t
  let h := tileHdr s.mem a
  match elemCode s.mem a h r c with
  | none => (0, 0)
  | some code =>
    if hFormat h = 0x0B then
      let (g, fl) := readVec code
      if ty = 3 then (g.toNat, fl)
      else let (y, fr) := toReg ty (groupVal g); (y, fl ||| fr ||| if gShed g then fSHED else 0)
    else
      let (u, fl) := if ty = 2 && (hFormat h == 0x08 || hFormat h == 0x09) then decodeElem (hFormat h) (hZero h) code else decodeAt s.mem a h r c code
      let (u, ff) := if ty = 0 && fmtFloat (hFormat h) || ty = 0 && hMode h != 0 then loadFlush u else (u, 0)
      let (y, fr) := toReg ty u
      (y, fl ||| ff ||| fr)
/-- The registers a loaded value fills. -/
def loadRegs (ty vd y : Nat) : List (Nat × W32) := if ty = 3 then wideRegs vd y else [(vd, BitVec.ofNat 32 y)]

/-! ## Storing (R190, R198, R199) -/

/-- The tile a destination view describes. -/
def vecTile (s : State) (core key : Nat) (v : View) (t : Nat) : TileOut :=
  let r := runOf s core key
  let (sl, ro, co) := vwOrg v t
  let cx := coreCtx s core
  { fmt := vwFmt v, sf := vwSf v, mode := vwMode v, zp := if vwMode v = 0 then vwZp v else 0, ctx := cx,
    gen := (ctxOf s cx).gen.toNat, part := (ctxOf s cx).part.toNat, owner := r.owner, inh := r.inh, tensor := vwTensor v,
    epoch := r.epoch.toNat, rowOrg := ro, colOrg := co, slab := sl, rows := vwTRows v, cols := vwTCols v,
    vrows := natMin (vwTRows v) (vwRows v - ro), vcols := natMin (vwTCols v) (vwCols v - co),
    unit := core * 2 ^ 11 + 3 * 2 ^ 8 + key }
/-- A PAYLOAD_CRC failure of an input at the vector engine (R191). -/
def vecCrcBad (core key a : Nat) (h : Hdr) (s : State) : State :=
  let r := runOf s core key
  capture (coreCtx s core) 0x04 {
    status := .checksumFail, tensor := hTensor h, addr := a, tag := dTag r.d.hdr, core := core, engine := 3, detail := (payloadCrc s.mem a h).toNat * 2 ^ 64 } (modRun core key (fun r => { r with crcBad := true }) s)
/-- A tile becomes an input of the run: owner set, exception fields, poison (R89, R92, R94). -/
def vecInput (core key a : Nat) (h : Hdr) (s : State) : State :=
  let s := modRun core key (fun r => { r with owner := r.owner ||| hOwner h, inh := r.inh ||| hInherit h, pois := r.pois || hPois h }) s
  if hPois h then countPoison (coreCtx s core) 1 s
  else if payloadOk s.mem a h then s else vecCrcBad core key a h s
/-- The distinct source tiles: view and tile. -/
def sourceTiles (d : VDesc) : List (Nat × Nat) :=
  (vUses d).foldl (fun l u => if u.dst then l else
    (vwReach (viewOf d u.view) u).foldl (fun l t => if l.contains (u.view, t) then l else l ++ [(u.view, t)]) l) []

/-- A payload of +0 (R190): in an integer format the code that decodes to 0 under the zero point. -/
def fillZero (m : Mem) (a : Nat) (o : TileOut) : Mem :=
  let m := mzero m (a + 64) o.payload
  if zeroCode o.fmt o.zp = 0 then m
  else (List.range o.rows).foldl (fun m r => (List.range o.cols).foldl (fun m c => putElem m a o r c (zeroCode o.fmt o.zp)) m) m
/-- The first write to a destination tile: the tile already there is an input where its header passes, else the payload is
filled with +0; the header is begun (R190, R83). -/
def touch (core key view t : Nat) (s : State) : State :=
  let r := runOf s core key
  let v := viewOf r.d view
  let a := vwAddr core v t
  if r.dests.any (fun e => e.1 == a) then s else
  let h := tileHdr s.mem a
  let ok := hdrCheck (coreConsumer s core) h == none
  let source := (sourceTiles r.d).any (fun e => vwAddr core (viewOf r.d e.1) e.2 == a)   -- an input already
  let s := if ok && !source then vecInput core key a h s else s
  let s := if ok && !hNone h then s else { s with mem := fillZero s.mem a (vecTile s core key v t) }
  let s := modRun core key (fun r => { r with dests := r.dests ++ [(a, view, t)] }) s
  { s with mem := tileBegin s.mem a (vecTile s core key v t) }
/-- A skipped element would have gone to a point of a view: the tile there is touched, and is a SKIP_TILE unless an element of it is
written (R80). -/
def touchSkip (x : VX) (view : Nat) (i : List Nat) (s : State) : State :=
  if dryRun s x then s else
  let w := viewOf x.d view
  let t := (vwPlace w (vwElem w i)).1
  modRun x.core x.key (fun r => { r with skipTo := r.skipTo ++ [vwAddr x.core w t] }) (touch x.core x.key view t s)
/-- Write an element, or a scale group with its scale, named by an element of it. Where the same instruction has written it before, its
view's strides reach it more than once, and a free value decides which of the two stands (R190); over what another instruction wrote
the later one stands (R194). -/
def putOnce (x : VX) (a r c : Nat) (f : State → State) (s : State) : State :=
  let key := ((a * 2 ^ 12 + r) * 2 ^ 12 + c) * 2 ^ 5 + x.n
  let q := runOf s x.core x.key
  let s' := f (modRun x.core x.key (fun q => { q with live := if q.live.contains a then q.live else q.live ++ [a] }) s)
  if q.written.contains key then
    let (n, s'') := draw s'
    if n % 2 = 0 then s'' else { s'' with mem := s.mem }
  else modRun x.core x.key (fun q => { q with written := q.written ++ [key] }) s'

/-- 16 random bits for an element under a stochastic mode (R113). -/
def drawRnd (x : VX) (mode : Nat) (s : State) : Nat × State := if nbit mode 1 then rndChan x.core x.ch s else (0, s)

/-- OR flags into a lane's flag word. -/
def laneOr (x : VX) (l : Nat) (fl : Exc) (s : State) : State :=
  if fl = 0 then s else modChan x.core x.ch (fun c => { c with flags := tmod 0 c.flags l (· ||| fl) }) s
/-- Flags of a stored element: the lane's word, and what the store raises (counted once), go into the tile's EXC_LOCAL. -/
def storeFlags (x : VX) (a l : Nat) (lane raised : Exc) (s : State) : State :=
  laneFlags x l raised (laneOr x l raised (modRun x.core x.key (fun r => { r with exc := tmod 0 r.exc a (· ||| lane ||| raised) }) s))

/-- The key of a column's amax: tile address and column. -/
def amaxKey (a c : Nat) : Nat := a * 4096 + c
/-- The largest finite magnitude so far of a scale group. -/
def amaxAdd (t : Tbl Val) (k : Nat) (v : Val) : Tbl Val :=
  if !isFinite v then t else
  match t.find? (fun e => e.1 == k) with
  | some (_, u) => if vlt u (vabs v) then tset t k (vabs v) else t
  | none => tset t k (vabs v)
def amaxGet (t : Tbl Val) (k : Nat) : Option Val := (t.find? (fun e => e.1 == k)).map (·.2)

/-- Write one element of a view under a scale, converting once; `held` has its INF counted when it was read. A column's new scale waits for
the final header: a chain that runs in place still decodes with the old one. -/
def putScaled (x : VX) (view t r c l : Nat) (lane fl : Exc) (held : Bool) (amax : Option Val) (v : Val) (s : State) : State :=
  let w := viewOf x.d view
  let a := vwAddr x.core w t
  let o := vecTile s x.core x.key w t
  let (sc, sv) := flyScale (vwSf w) (vwFmt w) amax
  let (rnd, s) := drawRnd x (vRound x.d) s
  let q := if isFinite v then finDiv v sv else v
  let (code, cv) := encodeElem (vwFmt w) (vRound x.d) rnd 0 q
  let s := if vwMode w = 2 then modRun x.core x.key (fun q => { q with colSc := tset q.colSc (amaxKey a c) sc }) { s with mem := putElem s.mem a o r c code }
    else { s with mem := putElem (putScale s.mem a o r c sc) a o r c code }
  storeFlags x a l lane (fl ||| if held then cv &&& ~~~ fINF else cv) s

/-- Store a value (with its lane's word, and the flags its reading raised) to a view at a point. `raw` is the W96 element where
the register is W96. Which write an element reached more than once keeps is a free value (DESIGN CHOICE, log entry 139). -/
def storeElem (x : VX) (n view : Nat) (i : List Nat) (l : Nat) (lane fl : Exc) (v : Val) (raw : Group) (s : State) : State :=
  let x := { x with n := n }
  let w := viewOf x.d view
  let (t, r, c) := vwPlace w (vwElem w i)
  let a := vwAddr x.core w t
  if dryRun s x then
    if vwMode w = 2 then modRun x.core x.key (fun q => { q with amax := amaxAdd q.amax (amaxKey a c) v }) s else s
  else
    let s := touch x.core x.key view t s
    let o := vecTile s x.core x.key w t
    if vwMode w = 1 || vwMode w = 3 then
      modChan x.core x.ch (fun q => { q with hold := tset q.hold (n * 2 ^ 24 + (i[0]?).getD 0) v }) (storeFlags x a l lane fl s)
    else if vwMode w = 2 then putOnce x a r c (putScaled x view t r c l lane fl false (amaxGet (runOf s x.core x.key).amax (amaxKey a c)) v) s
    else if vwFmt w = 0x0B then
      putOnce x a r c (fun s => storeFlags x a l lane fl { s with mem := putElem s.mem a o r c (canonW96 raw).toNat }) s
    else
      let (rnd, s) := drawRnd x (vRound x.d) s
      let mode := if vwFmt w = 0x0A then 0 else vRound x.d   -- R111: narrower formats only
      let (code, cv) := encodeElem (vwFmt w) mode rnd (signed 8 (vwZp w)) v
      putOnce x a r c (fun s => storeFlags x a l lane (fl ||| cv) { s with mem := putElem s.mem a o r c code }) s

/-- The scale groups of the held elements are known: write them (R118). The group of an element is its tile's row, or its
block of 32 within it; its block of the row places an event of its conversion (R207). -/
def flushHold (x : VX) (view n : Nat) (s : State) : State :=
  let c := chanOf s x.core x.ch
  let w := viewOf x.d view
  let x := { x with n := n }
  let els := (c.hold.filter (fun e => e.1 / 2 ^ 24 == n)).map (fun e =>
    let i0 := e.1 % 2 ^ 24
    (vwPlace w (vwElem w (i0 :: rowPoint x.d x.row)), e.2, (if vPack x.d then i0 % 128 / 2 else i0 % 64), i0 / blockSize x.d))
  let grp := fun (p : Nat × Nat × Nat) => if vwMode w = 1 then (p.1, p.2.1, 0) else (p.1, p.2.1, p.2.2 / 32)
  let grps := els.foldl (fun l e => if l.contains (grp e.1) then l else l ++ [grp e.1]) []
  let s := grps.foldl (fun s g =>
    let ours := els.filter (fun e => grp e.1 == g)
    putOnce x (vwAddr x.core w g.1) g.2.1 (if vwMode w = 1 then 0 else 32 * g.2.2) (fun s => ours.foldl (fun s e =>
      let (t, r, cc) := e.1
      putScaled { x with blk := if x.phase = 2 then 0 else e.2.2.2 } view t r cc e.2.2.1 0 0 (!isUpdate x.d) (amaxOf (ours.map (·.2.1))) e.2.1 s) s) s) s
  modChan x.core x.ch (fun c => { c with hold := c.hold.filter (fun e => e.1 / 2 ^ 24 != n) }) s

/-! ## Reductions (R201, R202) -/

/-- One running reduction: exact sum, extreme, integer. -/
structure RedAcc where
  acc : Group := 0
  ext : Option (Nat × Val) := none
  int : Int := 0

/-- Take one value into a reduction: SUB 0 SUM to 7 NONFINITE; the flags it raises. -/
def redTake (sub ty row : Nat) (a : RedAcc) (v : Val) : RedAcc × Exc :=
  match sub with
  | 0 => if ty = 0 then let (g, ev) := groupAdd a.acc v 2; ({ a with acc := g }, if ev then fINVALID else 0)
         else ({ a with int := a.int + roundAway v }, 0)
  | 1 | 2 | 3 =>
    let u := if sub = 3 then vabs v else v
    match a.ext with
    | none => ({ a with ext := some (row, u) }, 0)
    | some (r, e) =>
      let m := (if sub = 2 then vMin e u else vMax e u).1
      ({ a with ext := some (if isNan e then r else row, m) }, 0)
  | 4 | 5 => ({ a with int := a.int + if isZero v then 0 else 1 }, 0)
  | 6 => ({ a with int := a.int + if isZero v then 1 else 0 }, 0)
  | _ => ({ a with int := a.int + if isFinite v then 0 else 1 }, 0)
/-- The result of a reduction: its bits, flags, and whether they are an INT32 result (to be sign-extended). -/
def redResult (sub ty : Nat) (a : RedAcc) : Nat × Exc :=
  match sub with
  | 0 =>
    if ty = 0 then let (y, fl) := round32 (groupVal a.acc); (y, fl ||| if gShed a.acc then fSHED else 0)
    else roundInt 0x0C 0 (vint a.int)
  | 1 | 2 | 3 =>
    let v := match a.ext with | some (_, v) => v | none => vzero
    if ty = 0 then round32 v else roundInt 0x0C 0 v
  | 5 => (if a.int = 0 then 0 else 1, 0)
  | 6 => (if a.int = 0 then 1 else 0, 0)
  | _ => (a.int.toNat, 0)

def redOf (c : Chan) (n : Nat) : RedAcc :=
  { acc := tget 0 c.redAcc n, ext := (c.redVal.find? (fun e => e.1 == n)).map (fun e => (0, e.2)), int := tget 0 c.redInt n }
def setRed (c : Chan) (n : Nat) (a : RedAcc) : Chan :=
  { c with redAcc := tset c.redAcc n a.acc, redInt := tset c.redInt n a.int,
           redVal := match a.ext with | some (_, v) => tset c.redVal n v | none => c.redVal }
/-- The channel partial of SUMM instruction n: index n × 8 + channel. -/
def summOf (r : VecRun) (k : Nat) : RedAcc :=
  { acc := tget 0 r.smW96 k, ext := (r.smVal.find? (fun e => e.1 == k)).map (·.2), int := tget 0 r.smInt k }
def setSumm (r : VecRun) (k : Nat) (a : RedAcc) : VecRun :=
  { r with smW96 := tset r.smW96 k a.acc, smInt := tset r.smInt k a.int,
           smVal := match a.ext with | some v => tset r.smVal k v | none => r.smVal }

/-- The end of a phase of a row: reductions become results, packed rows are filled, held elements are written. -/
def phaseEnd (x : VX) (s : State) : State :=
  (instrs x.d (fun w => if x.phase = 2 then perRow x.d w else xPass w == x.phase && !perRow x.d w)).foldl (fun s n =>
    let w := vInstr x.d n
    let x := { x with n := n, w := w }
    match xOp w with
    | 0x40 =>
      let c := chanOf s x.core x.ch
      let (y, fl) := redResult (xSub w) (xType w) (redOf c n)
      let lanes := c.flags.foldl (fun a e => a ||| e.2) 0
      laneFlags x 0 fl (modChan x.core x.ch (fun c =>
        let c := rsetAll c ((List.range 64).map (fun l => (xD w, l, BitVec.ofNat 32 y)))
        { c with redFlag := tmod 0 c.redFlag (xD w) (fun o => o ||| lanes ||| fl) }) s)
    | 0x02 => flushHold x (xView w) n s
    | 0x50 =>
      let a := tget 0 (chanOf s x.core x.ch).packed n
      let s := (List.range ((vExts x.d)[0]?.getD 0 - a)).foldl (fun s j =>
        storeElem x n (xView w) ((a + j) :: rowPoint x.d x.row) 0 0 0 vzero 0 s) s
      flushHold x (xView w) n s
    | _ => s) s

/-- The channel's state at the start of a row. -/
def rowStart (c : Chan) (row : Nat) : Chan :=
  { c with row := row, pc := 0, regs := [], flags := [], redAcc := [], redVal := [], redInt := [], redFlag := [], packed := [], dead := [], hold := [] }

/-- Row n goes to the (n mod popcount)-th channel of the mask: the first row of a channel. -/
def firstRow (d : VDesc) (ch : Nat) : Nat := (vChans d).idxOf ch
/-- Start every channel of a run at its first row. -/
def chansStart (core key grain : Nat) (d : VDesc) (s : State) : State :=
  let _ := key
  (vChans d).foldl (fun s ch => modChan core ch (fun _ =>
    rowStart { busy := true, grain := grain, done := decide (firstRow d ch ≥ nRows d) } (firstRow d ch)) s) s

/-- The channel goes on to its next instruction, block, phase or row; the first run of a chain with column scales is
followed by the second. -/
def advance (x : VX) (s : State) : State :=
  let prog := rowProgram x.d
  let c := chanOf s x.core x.ch
  let next := (prog[c.pc + 1]?).map (·.1)
  let s := if next == some x.phase then s else phaseEnd x s
  match next with
  | some _ => modChan x.core x.ch (fun c => { c with pc := c.pc + 1 }) s
  | none =>
    let row := c.row + (vChans x.d).length
    if row < nRows x.d then modChan x.core x.ch (fun c => rowStart c row) s
    else
      let s := modChan x.core x.ch (fun c => { c with done := true }) s
      if dryRun s x && (vChans x.d).all (fun ch => (chanOf s x.core ch).done) then
        chansStart x.core x.key (runOf s x.core x.key).grain x.d (modRun x.core x.key (fun r => { r with scale := 1 }) s)
      else s

/-- A destination of the descriptor lies in a slot a matrix or tile-mover descriptor retains: its writes stall (R136, R252). -/
def vecStalled (s : State) (core : Nat) (d : VDesc) : Bool :=
  (vUses d).any (fun u => u.dst && (matRetains s core (vwSpan (viewOf d u.view)).1 (vwSpan (viewOf d u.view)).2 ||
    movRetains s core (vwSpan (viewOf d u.view)).1 (vwSpan (viewOf d u.view)).2))

/-- The descriptor stops with a status: no channel of it runs on. -/
def vecStop (core key : Nat) (st : Status) (s : State) : State :=
  let r := runOf s core key
  (vChans r.d).foldl (fun s ch => modChan core ch (fun c => { c with done := true }) s)
    (modRun core key (fun r => { r with status := st }) s)

/-- The run a channel serves: its lowest channel. -/
def runKey (s : State) (core ch : Nat) : Option Nat :=
  ((coreOf s core).vec.runs.find? (fun e => (vChans e.2.d).contains ch)).map (·.1)

/-- Run the channel's current instruction where it is one of opcode op, and go on. -/
def vecRow (op : Nat) (core : BitVec 5) (ch : BitVec 3) (f : VX → State → State) (s : State) : Host.Outcome State Fault Refusal :=
  let c := chanOf s core.toNat ch.toNat
  match runKey s core.toNat ch.toNat with
  | none => .next s
  | some key =>
    let d := (runOf s core.toNat key).d
    match (rowProgram d)[c.pc]? with
    | none => .next s
    | some (phase, blk, n) =>
      let x : VX := ⟨core.toNat, ch.toNat, key, d, n, vInstr d n, c.row, blk, phase⟩
      if coreLive s core.toNat && c.busy && !c.done && xOp x.w == op && !vecStalled s core.toNat d then
        let s := f x s
        .next (if (chanOf s core.toNat ch.toNat).done then s else advance x s)
      else .next s

/-! ## Start and completion (R187, R190, R191) -/

/-- The summary registers of a descriptor with nothing to do: VALID with the reduction of no lanes, a free value where that is
an extreme of none (R202). -/
def summNoop (core grain : Nat) (d : VDesc) (s : State) : State :=
  let put := fun (reg y : Nat) (s : State) =>
    modGrain core grain (fun g => { g with sums := tset g.sums reg (BitVec.ofNat 86 (2 ^ 85 + g.owner.toNat * 2 ^ 77 + y)) }) s
  if isUpdate d then (if bit d.hdr 80 then put (fld d.hdr 79 76) 0 s else s)
  else (instrs d (fun w => xOp w == 0x41)).foldl (fun s n =>
    let w := vInstr d n
    let (y, s) := if 1 ≤ xSub w && xSub w ≤ 3 then let (n, s) := draw s; (n % 2 ^ 64, s) else ((redResult (xSub w) (xType w) {}).1, s)
    put (xImm w % 16) y s) s

/-- A source tile of a view, with the check it fails: R85 1-5, then conformance. -/
def sourceFail (s : State) (core : Nat) (v : View) (t : Nat) : Option (Nat × Status) :=
  let h := tileHdr s.mem (vwAddr core v t)
  match hdrCheck (coreConsumer s core) h with
  | some f => some f
  | none =>
    if hFormat h != vwFmt v || hScaleFmt h != vwSf v || hMode h != vwMode v || hZero h != vwZp v || hTensor h != vwTensor v then some (4, .badDescriptor)
    else if hRows h != vwTRows v || hCols h != vwTCols v then some (5, .badLength) else none
/-- The channels are free. -/
def chansFree (k : Core) (d : VDesc) : Bool := (vChans d).all (fun ch => !(tget ({} : Chan) k.vec.chans ch).busy)

/-- Take the head of grain core g's vector queue. -/
def vecPop (core g : Nat) (s : State) : State :=
  let k := coreOf s core
  setCore s core { k with vec := { k.vec with queue := tset k.vec.queue g ((tget [] k.vec.queue g).drop 1) } }

/-- The descriptor ends before it ran, with a status. -/
def vecRefuse (core g : Nat) (d : VDesc) (st : Status) (s : State) : State :=
  let s := if st == .ok then s else summFail core g d 0 s
  tagDone core g (dTag d.hdr) st s

/-- Start a validated descriptor: inputs, epoch, channels. -/
def vecBegin (core g : Nat) (d : VDesc) (s : State) : State :=
  let k := coreOf s core
  let key := ((vChans d).head?).getD 0
  let run : VecRun := { d := d, grain := g, epoch := k.epoch, owner := (grainOf k g).owner }
  let s := setCore s core { k with vec := { k.vec with runs := tset k.vec.runs key run } }
  let addrs := (sourceTiles d).foldl (fun l e => let a := vwAddr core (viewOf d e.1) e.2; if l.contains a then l else l ++ [a]) ([] : List Nat)
  let s := modRun core key (fun r => { r with skips := addrs.filter (fun a => hSkip (tileHdr s.mem a)) }) s
  let s := addrs.foldl (fun s a => vecInput core key a (tileHdr s.mem a) s) s
  chansStart core key g d s

/-- The head of a queue that the engine could start now. -/
def vecHead (s : State) (core g : Nat) : Option VDesc :=
  match tget [] (coreOf s core).vec.queue g with
  | d :: _ => if chansFree (coreOf s core) d then some d else none
  | [] => none
/-- Grain core g's head starts now: where both heads could start and share a channel, the turn decides. -/
def vecTurn (s : State) (core g : Nat) : Bool × Bool :=
  match vecHead s core g, vecHead s core (1 - g) with
  | some d, some e => if vMask d &&& vMask e != 0 then ((coreOf s core).vec.turn.toNat == g, true) else (true, false)
  | some _, none => (true, false)
  | _, _ => (false, false)

/-- Validate and start the head of a queue of the kind; `run` goes on with a started one. -/
def vecStart (op : Nat) (core : BitVec 5) (g : BitVec 1) (run : Nat → State → State) (s : State) : Host.Outcome State Fault Refusal :=
  let c := core.toNat
  match vecHead s c g.toNat with
  | none => .next s
  | some d =>
    let (go, contested) := vecTurn s c g.toNat
    let kind := if isUpdate d then 0x41 else 0x40
    if !coreLive s c || !go || kind != op || (isUpdate d && vecStalled s c d) then .next s else
    let k := coreOf s c
    let s := if contested then setCore s c { k with vec := { k.vec with turn := 1 - g } } else s
    let s := vecPop c g.toNat s
    match firstFailure (vChecks s c d) with
    | some st => .next (vecRefuse c g.toNat d st s)
    | none =>
      if vNoop d then .next (tagDone c g.toNat (dTag d.hdr) .ok (summNoop c g.toNat d s)) else
      match (sourceTiles d).findSome? (fun e => (sourceFail s c (viewOf d e.1) e.2).map (fun f => (e, f))) with
      | some (e, order, st) =>
        let a := vwAddr c (viewOf d e.1) e.2
        let h := tileHdr s.mem a
        let w : Where := { status := st, tensor := hTensor h, addr := a, tag := dTag d.hdr, core := c, engine := 3 }
        let s := if hVersion h = 0 then capture (coreCtx s c) 0x02 w s else s
        let s := capture (coreCtx s c) 0x12 { w with detail := order * 2 ^ 88 } s
        .next (vecRefuse c g.toNat d st s)
      | none => .next (run (((vChans d).head?).getD 0) (vecBegin c g.toNat d s))

/-- The final header of one destination tile, and the column scales formed for it (R190, R199, R80, R86, R94). -/
def vecFinish (core key : Nat) (e : Nat × Nat × Nat) (s : State) : State :=
  let r := runOf s core key
  let v := viewOf r.d e.2.1
  let o := { vecTile s core key v e.2.2 with exc := tget 0 r.exc e.1 }
  let s := { s with mem := (r.colSc.filter (fun q : Nat × Nat => q.1 / 4096 == e.1)).foldl (fun (m : Mem) (q : Nat × Nat) => putScale m e.1 o 0 (q.1 % 4096) q.2) s.mem }
  if r.pois || r.crcBad then
    let o := { o with pois := true }
    { s with mem := tileEnd (mzero s.mem (e.1 + 64) o.payload) e.1 o }
  else if r.skipTo.contains e.1 && !r.live.contains e.1 then { s with mem := tileEnd s.mem e.1 { o with skip := true } }
  else { s with mem := tileEnd (putPadding s.mem e.1 o) e.1 o }

/-- The value of a summary register at completion, and the flags that its combination and rounding raise (R202). -/
def summValue (s : State) (core key n : Nat) : Nat × Exc :=
  let r := runOf s core key
  let w := vInstr r.d n
  let parts := (vChans r.d).map (fun ch => summOf r (n * 8 + ch))
  let ext := parts.foldl (fun (b : Option (Nat × Val)) p =>
    match b, p.ext with
    | none, e => e
    | b, none => b
    | some (i, u), some (j, v) =>
      if isNan u then (if isNan v && j < i then some (j, v) else some (i, u))
      else some (j, (if xSub w = 2 then vMin u v else vMax u v).1)) none
  let acc := parts.foldl (fun (a : Group × Bool) p => let (g, ev) := addW96 a.1 p.acc 2; (g, a.2 || ev)) (0, false)
  let (y, fl) := redResult (xSub w) (xType w) { acc := acc.1, ext := ext, int := (parts.map (·.int)).sum }
  let y := if xType w = 2 && xSub w ≤ 3 then (BitVec.ofInt 64 (signed 32 y)).toNat else y % 2 ^ 64
  (y, fl ||| if acc.2 then fINVALID else 0)
/-- An extreme over no lane at all: every lane was skipped. -/
def summNone (s : State) (core key n : Nat) : Bool :=
  let r := runOf s core key
  let w := vInstr r.d n
  1 ≤ xSub w && xSub w ≤ 3 && (vChans r.d).all (fun ch => (summOf r (n * 8 + ch)).ext.isNone)

/-- Write the summary registers: VALID, OWNER_SET, EXC, VALUE. What the combination raises counts, an invalid event after every event
of a lane. A summary over a poisoned input, and an extreme of no lane, have no stated value. -/
def summWrite (core key : Nat) (s : State) : State :=
  let r := runOf s core key
  let put := fun (reg : Nat) (y : Nat) (open_ : Bool) (fl : Exc) (s : State) =>
    let (y, s) := if r.pois || open_ then let (n, s) := draw s; (n % 2 ^ 64, s) else (y, s)
    let v : BitVec 86 := BitVec.ofNat 86 (2 ^ 85 + r.owner.toNat * 2 ^ 77 + fl.toNat * 2 ^ 64 + y)
    modGrain core r.grain (fun g => { g with sums := tset g.sums reg v }) s
  if isUpdate r.d then
    if bit r.d.hdr 80 then put (fld r.d.hdr 79 76) r.nonfin false (tget 0 r.smExc 0) s else s
  else (instrs r.d (fun w => xOp w == 0x41)).foldl (fun s n =>
    let (y, fl) := summValue s core key n
    let x : VX := ⟨core, key, key, r.d, n, vInstr r.d n, nRows r.d, 0, 0⟩
    let s := countFlags (coreCtx s core) fl s
    let s := if fl &&& fINVALID != 0 then vecEventAt x 0x10 (evKey x 0) 0 (0, 0, 0, 0) s else s
    put (xImm (vInstr r.d n) % 16) y (summNone s core key n) (fl ||| tget 0 r.smExc n) s) s

/-- A run whose channels are done completes: headers, summaries, captures, status (R190, R202, R206). -/
def vecComplete (core key : Nat) (s : State) : State :=
  let s := modRun core key (fun r => { r with owner := r.owner ||| (grainOf (coreOf s core) r.grain).owner }) s
  let r := runOf s core key
  let st := if r.status != .ok then r.status else if r.crcBad then .checksumFail else .ok
  let s := if r.status != .ok then s else r.dests.foldl (fun s e => vecFinish core key e s) s
  let s := if st == .ok then summWrite core key s else summFail core r.grain r.d r.owner s
  let s := (runOf s core key).capt.foldl (fun s e => captureRec (coreCtx s core) e.1 e.2.2 s) s
  let k := coreOf s core
  let s := setCore s core { k with vec := { k.vec with runs := tdrop (· == key) k.vec.runs, chans := tdrop ((vChans r.d).contains ·) k.vec.chans } }
  tagDone core r.grain (dTag r.d.hdr) st s

end Sys2Proof.Machine
end

