-- ==== Sys2Proof/Machine/Vector.lean ====
section
/-! DEFINITION. The vector engine's rows (R187-R212): the start of a chain and of a parameter update, one meaning for each
chain instruction on the channel whose turn it is, and the completion. -/

namespace Sys2Proof.Machine

/-- VCHAIN starts the head of grain core g's queue, where it is a chain (or of no known OPCODE). -/
def execVchain (core : BitVec 5) (g : BitVec 1) (s : State) : Out := vecStart 0x40 core g (fun _ s => s) s

/-! ## Loads, stores, constants -/

/-- LD (R198): FP32, INT32 and W96 by lane, BF16 two elements a lane. -/
def execVecLd (core : BitVec 5) (ch : BitVec 3) (s : State) : Out :=
  vecRow 0x01 core ch (fun x s =>
    let v := viewOf x.d (xView x.w)
    let ty := xType x.w
    laneStep x (fun c l =>
      if ty = 1 then
        let (lo, fa) := loadElem s x v (vPoint x (2 * l)) 1
        if 2 * l + 1 < vLen x then
          let (hi, fb) := loadElem s x v (vPoint x (2 * l + 1)) 1
          ([(xD x.w, BitVec.ofNat 32 (lo + hi * 2 ^ 16))], addFlags [fa, fb])
        else ([(xD x.w, BitVec.ofNat 32 (lo + fld (rget c (xD x.w) l) 31 16 * 2 ^ 16))], [fa])
      else
        let (y, fl) := loadElem s x v (vPoint x l) ty
        (loadRegs ty (xD x.w) y, [fl])) s) s

/-- ST (R198): a reduction register writes one element, at i0 = 0, with the flags of its row and of the per-row instructions before it
(R206). An element that R80 skips is not written. -/
def execVecSt (core : BitVec 5) (ch : BitVec 3) (s : State) : Out :=
  vecRow 0x02 core ch (fun x s =>
    let c := chanOf s x.core x.ch
    let w := x.w
    if xType w = 1 then
      (List.range (vLen x)).foldl (fun s k =>
        if pointSkip s x (vPoint x k) then touchSkip x (xView w) (vPoint x k) s else
        let (v, fl) := decodeFloat 0x07 (if k % 2 = 0 then fld (rget c (xA w) (k / 2)) 15 0 else fld (rget c (xA w) (k / 2)) 31 16)
        storeElem x x.n (xView w) (vPoint x k) (k / 2) (tget 0 c.flags (k / 2)) (passFlags fl) v (toW96 v) s) s
    else
      (List.range (vLanes x)).foldl (fun s l =>
        if laneOff s x l then touchSkip x (xView w) (vPoint x l) s else
        let (v, fl) := rval c (xType w) (xA w) l
        let raw := if xType w = 3 then (readVec (rgetW c (xA w) l)).1 else toW96 v
        let fl := if xType w = 3 && vwFmt (viewOf x.d (xView w)) = 0x0B then fl &&& ~~~ fSHED else fl
        let lane := tget 0 c.flags l ||| if x.phase = 2 then tget 0 c.redFlag (xA w) else 0
        storeElem x x.n (xView w) (vPoint x l) l lane (passFlags fl) v raw s) s) s

/-- LDC: a constant in every lane. -/
def execVecLdc (core : BitVec 5) (ch : BitVec 3) (s : State) : Out :=
  vecRow 0x03 core ch (fun x s =>
    laneStep x (fun _ _ => ([(xD x.w, BitVec.ofNat 32 (fld x.d.hdr (159 + 32 * xImm x.w) (128 + 32 * xImm x.w)))], [])) s) s

/-! ## Arithmetic (R197) -/

def execVecAdd (core : BitVec 5) (ch : BitVec 3) (s : State) : Out :=
  vecRow 0x10 core ch (fun x s => aluStep x (fun a b _ => vAdd a b) (· + ·) s) s
def execVecSub (core : BitVec 5) (ch : BitVec 3) (s : State) : Out :=
  vecRow 0x11 core ch (fun x s => aluStep x (fun a b _ => vSub a b) (· - ·) s) s
def execVecMul (core : BitVec 5) (ch : BitVec 3) (s : State) : Out :=
  vecRow 0x12 core ch (fun x s => aluStep x (fun a b _ => vMul a b) (· * ·) s) s
def execVecFma (core : BitVec 5) (ch : BitVec 3) (s : State) : Out :=
  vecRow 0x13 core ch (fun x s => aluStep x vFma (fun a _ => a) s) s
def execVecDiv (core : BitVec 5) (ch : BitVec 3) (s : State) : Out :=
  vecRow 0x14 core ch (fun x s => aluStep x (fun a b _ => vDiv a b) (fun a _ => a) s) s
def execVecSqrt (core : BitVec 5) (ch : BitVec 3) (s : State) : Out :=
  vecRow 0x15 core ch (fun x s => aluStep x (fun a _ _ => vSqrt a) (fun a _ => a) s) s
def execVecMax (core : BitVec 5) (ch : BitVec 3) (s : State) : Out :=
  vecRow 0x16 core ch (fun x s => aluStep x (fun a b _ => Machine.vMax a b) (fun a b => if a < b then b else a) s) s
def execVecMin (core : BitVec 5) (ch : BitVec 3) (s : State) : Out :=
  vecRow 0x17 core ch (fun x s => aluStep x (fun a b _ => Machine.vMin a b) (fun a b => if b < a then b else a) s) s
def execVecAbs (core : BitVec 5) (ch : BitVec 3) (s : State) : Out :=
  vecRow 0x18 core ch (fun x s => aluStep x (fun a _ _ => (vabs a, 0)) (fun a _ => (a.natAbs : Int)) s) s
def execVecNeg (core : BitVec 5) (ch : BitVec 3) (s : State) : Out :=
  vecRow 0x19 core ch (fun x s => aluStep x (fun a _ _ => (vneg a, 0)) (fun a _ => -a) s) s
def execVecFunc (core : BitVec 5) (ch : BitVec 3) (s : State) : Out :=
  vecRow 0x1A core ch (fun x s => aluStep x (fun a _ _ => vFunc (xSub x.w) a) (fun a _ => a) s) s

/-- CMP: 1 or 0 in each lane. -/
def execVecCmp (core : BitVec 5) (ch : BitVec 3) (s : State) : Out :=
  vecRow 0x20 core ch (fun x s =>
    laneStep x (fun c l =>
      let (a, fa) := rval c (xType x.w) (xA x.w) l
      let (b, fb) := rval c (xType x.w) (xB x.w) l
      ([(xD x.w, if cmpVal (xSub x.w) a b then 1 else 0)], addFlags [fa, fb])) s) s

/-- SEL: the bits of VA or VC. -/
def execSel (core : BitVec 5) (ch : BitVec 3) (s : State) : Out :=
  vecRow 0x21 core ch (fun x s =>
    laneStep x (fun c l =>
      let r := if rget c (xB x.w) l = 0 then xC x.w else xA x.w
      (if xType x.w = 3 then (List.range 4).map (fun i => (xD x.w + i, rget c (r + i) l)) else [(xD x.w, rget c r l)], [])) s) s

/-- CVT: from the type in SUB[1:0] to TYPE (R198). -/
def execCvt (core : BitVec 5) (ch : BitVec 3) (s : State) : Out :=
  vecRow 0x22 core ch (fun x s =>
    let src := xSub x.w % 4
    laneStep x (fun c l =>
      if src = 3 && xType x.w = 3 then
        let (g, fl) := readVec (rgetW c (xA x.w) l)
        (wideRegs (xD x.w) g.toNat, [passFlags fl])
      else
        let (v, fa) := rval c src (xA x.w) l
        let (y, fb) := toReg (xType x.w) v
        (loadRegs (xType x.w) (xD x.w) y, [passFlags fa ||| fb])) s) s

def execLogic (core : BitVec 5) (ch : BitVec 3) (s : State) : Out :=
  vecRow 0x23 core ch (fun x s =>
    laneStep x (fun c l =>
      let a := rget c (xA x.w) l
      let b := rget c (xB x.w) l
      ([(xD x.w, match xSub x.w with | 0 => a &&& b | 1 => a ||| b | 2 => a ^^^ b | _ => ~~~ a)], [])) s) s

/-! ## Permutation, gathering, positions (R200, R204) -/

/-- The index a lane reads under IDX_MODE, of n valid ones: none for a zero result; and whether it was out of range. -/
def settleIndex (mode n : Nat) (i : Int) : Option Nat × Bool :=
  if 0 ≤ i && i < n then (some i.toNat, false)
  else if mode = 1 then (some (if i < 0 then 0 else n - 1), true) else (none, true)

/-- The out-of-range indices of a block: their captures; under IDX_MODE 10 the chain stops with OUT_OF_REGION, and in a chain with
column scales that happens in its first run. -/
def indexEvents (x : VX) (n : Nat) (c : Chan) (s : State) : State :=
  let bad := (lanesOn s x).filter (fun l => (settleIndex 0 n (rget c (xB x.w) l).toInt).2)
  let stop := xIdx x.w = 2 && !bad.isEmpty
  let s := bad.foldl (fun s l => if dryRun s x && !stop then s else vecEvent x 0x11 l (rget c (xB x.w) l).toNat s) s
  if stop then bad.foldl (fun s l => laneRaise x l fINDEX s) (vecStop x.core x.key .outOfRegion s) else s

def execPerm (core : BitVec 5) (ch : BitVec 3) (s : State) : Out :=
  vecRow 0x30 core ch (fun x s =>
    let c := chanOf s x.core x.ch
    let s := indexEvents x (vLen x) c s
    if (runOf s x.core x.key).status != .ok then s else
    let s := laneKill x ((lanesOn s x).filter (fun l => match (settleIndex (xIdx x.w) (vLen x) (rget c (xB x.w) l).toInt).1 with
      | some j => pointSkip s x (vPoint x j) | none => false)) s
    laneStep x (fun c l =>
      let (j, out) := settleIndex (xIdx x.w) (vLen x) (rget c (xB x.w) l).toInt
      ([(xD x.w, match j with | some j => rget c (xA x.w) j | none => 0)], [if out then fINDEX else 0])) s) s

def execGather (core : BitVec 5) (ch : BitVec 3) (s : State) : Out :=
  vecRow 0x31 core ch (fun x s =>
    let c := chanOf s x.core x.ch
    let n := (vExts x.d)[0]?.getD 0
    let s := indexEvents x n c s
    if (runOf s x.core x.key).status != .ok then s else
    let v := viewOf x.d (xView x.w)
    let s := laneKill x ((lanesOn s x).filter (fun l => match (settleIndex (xIdx x.w) n (rget c (xB x.w) l).toInt).1 with
      | some j => elemSkip s x v (j :: rowPoint x.d x.row) | none => false)) s
    laneStep x (fun c l =>
      let (j, out) := settleIndex (xIdx x.w) n (rget c (xB x.w) l).toInt
      let (y, fl) := match j with | some j => loadElem s x v (j :: rowPoint x.d x.row) (xType x.w) | none => (0, 0)
      (loadRegs (xType x.w) (xD x.w) y, [fl ||| if out then fINDEX else 0])) s) s

def execPos (core : BitVec 5) (ch : BitVec 3) (s : State) : Out :=
  vecRow 0x32 core ch (fun x s =>
    laneStep x (fun _ l =>
      ([(xD x.w, BitVec.ofNat 32 (fld x.d.hdr 127 108 + ((vPoint x l)[fld x.d.hdr 107 105]?).getD 0))], [])) s) s

/-! ## Reductions, summaries (R201, R202) -/

/-- RED: the active lanes, in lane order. -/
def execRed (core : BitVec 5) (ch : BitVec 3) (s : State) : Out :=
  vecRow 0x40 core ch (fun x s =>
    (lanesOn s x).foldl (fun s l =>
      let c := chanOf s x.core x.ch
      let (v, fa) := rval c (xType x.w) (xA x.w) l
      let (a, fb) := redTake (xSub x.w) (xType x.w) x.row (redOf c x.n) v
      let fl := fa ||| fb
      laneFlags x l fl (modChan x.core x.ch (fun c =>
        { setRed c x.n a with flags := if fl = 0 then c.flags else tmod 0 c.flags l (· ||| fl) }) s)) s) s

/-- SUMM: the active lanes, or the per-row result of a reduction register. -/
def execSumm (core : BitVec 5) (ch : BitVec 3) (s : State) : Out :=
  vecRow 0x41 core ch (fun x s =>
    if dryRun s x then s else
    (lanesOn s x).foldl (fun s l =>
      let c := chanOf s x.core x.ch
      let (v, fa) := rval c (xType x.w) (xA x.w) l
      let k := x.n * 8 + x.ch
      let (a, fb) := redTake (xSub x.w) (xType x.w) x.row (summOf (runOf s x.core x.key) k) v
      let fl := fa ||| fb
      let lane := tget 0 c.flags l ||| if x.phase = 2 then tget 0 c.redFlag (xA x.w) else 0
      let s := modRun x.core x.key (fun r => { setSumm r k a with smExc := tmod 0 r.smExc x.n (· ||| lane ||| fl) }) s
      laneFlags x l fl (modChan x.core x.ch (fun c => { c with flags := if fl = 0 then c.flags else tmod 0 c.flags l (· ||| fl) }) s)) s) s

/-! ## Compress, expand, W96 addition (R203, R184) -/

def execCompress (core : BitVec 5) (ch : BitVec 3) (s : State) : Out :=
  vecRow 0x50 core ch (fun x s =>
    (lanesOn s x).foldl (fun s l =>
      let c := chanOf s x.core x.ch
      if rget c (xB x.w) l = 0 then s else
      let (v, fl) := rval c (xType x.w) (xA x.w) l
      let a := tget 0 c.packed x.n
      let s := storeElem x x.n (xView x.w) (a :: rowPoint x.d x.row) l (tget 0 c.flags l) (passFlags fl) v (toW96 v) s
      modChan x.core x.ch (fun c => { c with packed := tset c.packed x.n (a + 1) }) s) s) s

def execExpand (core : BitVec 5) (ch : BitVec 3) (s : State) : Out :=
  vecRow 0x51 core ch (fun x s =>
    let c := chanOf s x.core x.ch
    let a := tget 0 c.packed x.n
    let rank := fun (l : Nat) => ((List.range l).filter (fun j => rget c (xB x.w) j != 0)).length
    let v := viewOf x.d (xView x.w)
    let s := laneKill x ((lanesOn s x).filter (fun l => rget c (xB x.w) l != 0 && elemSkip s x v ((a + rank l) :: rowPoint x.d x.row))) s
    let s' := laneStep x (fun c l =>
      if rget c (xB x.w) l = 0 then ([(xD x.w, rget c (xC x.w) l)], [])
      else let (y, fl) := loadElem s x v ((a + rank l) :: rowPoint x.d x.row) (xType x.w); ([(xD x.w, BitVec.ofNat 32 y)], [fl])) s
    modChan x.core x.ch (fun c => { c with packed := tset c.packed x.n (a + rank (vLanes x)) }) s') s

def execW96add (core : BitVec 5) (ch : BitVec 3) (s : State) : Out :=
  vecRow 0x60 core ch (fun x s =>
    laneStep x (fun c l =>
      let (a, fa) := readVec (rgetW c (xA x.w) l)
      let (b, fb) := readVec (rgetW c (xB x.w) l)
      let (r, ev) := addW96 a b 2
      let lost := gShed (addW96 (setBit a 111 false) (setBit b 111 false) 2).1   -- by this addition
      let out := !gNan r && (gPinf r || gNinf r)
      (wideRegs (xD x.w) (canonW96 r).toNat,
       addFlags [fa, fb, (if ev then fINVALID else 0) ||| (if lost then fSHED else 0) ||| (if out then fINF else 0)])) s) s

/-! ## The parameter update (R209-R212) -/

/-- One element's operations, with the flags of each in order: each load and each operation is an instruction of R206, and counts what
it raises (DESIGN CHOICE, log entry 128). -/
structure UpdAcc where
  flags : List Exc := []

def uop (a : UpdAcc) (r : W32 × List Exc) : W32 × UpdAcc := (r.1, { flags := a.flags ++ r.2 })
def uMul (x y : W32) (a : UpdAcc) : W32 × UpdAcc := uop a (f32ops (fun p q _ => vMul p q) x y 0)
def uAdd (x y : W32) (a : UpdAcc) : W32 × UpdAcc := uop a (f32ops (fun p q _ => vAdd p q) x y 0)
def uDiv (x y : W32) (a : UpdAcc) : W32 × UpdAcc := uop a (f32ops (fun p q _ => vDiv p q) x y 0)
def uFma (x y z : W32) (a : UpdAcc) : W32 × UpdAcc := uop a (f32ops vFma x y z)
def uSqrt (x : W32) (a : UpdAcc) : W32 × UpdAcc := uop a (f32ops (fun p _ _ => vSqrt p) x 0 0)
def uMin (x y : W32) (a : UpdAcc) : W32 × UpdAcc := uop a (f32ops (fun p q _ => Machine.vMin p q) x y 0)
def uMax (x y : W32) (a : UpdAcc) : W32 × UpdAcc := uop a (f32ops (fun p q _ => Machine.vMax p q) x y 0)
def negF (x : W32) : W32 := x ^^^ 0x80000000

/-- A bias correction, c1 or c2, once per descriptor, with the flags of its operations in order. -/
def biasCorr (d : VDesc) (b : W32) : W32 × List Exc :=
  if !bit d.hdr 82 then (0x3F800000, []) else
  let step := round32 (vint (updNum d 223))
  let (st, a) := uop {} (BitVec.ofNat 32 step.1, [step.2])
  let (lg, a) := uop a (f32ops (fun p _ _ => vFunc 1 p) b 0 0)
  let (m, a) := uMul st lg a
  let (ex, a) := uop a (f32ops (fun p _ _ => vFunc 0 p) m 0 0)
  let (df, a) := uop a (f32ops (fun p q _ => vSub p q) 0x3F800000 ex 0)
  let (c, a) := uop a (f32ops (fun p _ _ => vFunc 7 p) df 0 0)
  (c, a.flags)
/-- What the bias corrections raise counts for the context, and an invalid event comes before every element's. It belongs to no lane, so
that no tile carries it (DESIGN CHOICE, log entry 128). -/
def biasFlags (x : VX) (l : List Exc) (s : State) : State :=
  l.foldl (fun s fl =>
    let s := countFlags (coreCtx s x.core) fl s
    if fl &&& fINVALID != 0 then vecEventAt x 0x10 0 0 (0, 0, 0, 0) s else s) s

/-- The arithmetic of R212 on one element: g0, w0, m0, v0 as loaded. Answers w1, m1, v1, whether the gradient is not finite. -/
def updElem (d : VDesc) (c1 c2 g0 w0 m0 v0 : W32) (a : UpdAcc) : W32 × W32 × W32 × Bool × UpdAcc :=
  let p := fun hi => (BitVec.ofNat 32 (updNum d hi) : W32)
  let (g, a) := uMul g0 (p 287) a
  let (g, a) := if bit d.hdr 84 then
      let (h, a) := uMax g (negF (p 255)) a
      uMin h (p 255) a
    else (g, a)
  let bad := !isFinite (decode32 g.toNat).1
  if bad && bit d.hdr 83 then (w0, m0, v0, true, a) else
  let (og, a) := uMul (p 447) g a
  let (m1, a) := uFma (p 511) m0 og a
  let (gg, a) := uMul g g a
  let (ogg, a) := uMul (p 415) gg a
  let (v1, a) := uFma (p 479) v0 ogg a
  let (mc, a) := uMul m1 c1 a
  let (vc, a) := uMul v1 c2 a
  let (sq, a) := uSqrt vc a
  let (den, a) := uAdd sq (p 383) a
  let (u, a) := uDiv mc den a
  let (t, a) := uFma (p 319) w0 u a
  let (w1, a) := uFma (negF (p 351)) t w0 a
  (w1, m1, v1, bad, a)

/-- The views an update writes. -/
def updOuts (d : VDesc) : List Nat := [119, 113, 107].map (fun hi => fld d.hdr hi (hi - 5)) ++ if bit d.hdr 85 then [fld d.hdr 101 96] else []
/-- Update one element at column i0 of a row. -/
def updOne (x : VX) (c1 c2 : W32) (i0 : Nat) (s : State) : State :=
  let d := x.d
  let i := i0 :: rowPoint d x.row
  let ld := fun hi => loadElem s x (viewOf d (fld d.hdr hi (hi - 5))) i 0
  let (g0, fg) := ld 143
  let (w0, fw) := ld 137
  let (m0, fm) := ld 131
  let (v0, fv) := ld 125
  let r32 := fun (n : Nat) => (BitVec.ofNat 32 n : W32)
  let (w1, m1, v1, bad, a) := updElem d c1 c2 (r32 g0) (r32 w0) (r32 m0) (r32 v0) { flags := [fg, fw, fm, fv] }
  let l := i0 % 64
  let x := { x with blk := i0 / 64 }
  if pointSkip s x i then (updOuts d).foldl (fun s n => touchSkip x n i s) s else
  let s := laneOr x l (a.flags.foldl (· ||| ·) 0) (a.flags.foldl (fun s fl => laneFlags x l fl s) s)
  let fl := tget 0 (chanOf s x.core x.ch).flags l   -- the lane's word, over the row's blocks
  let s := modRun x.core x.key (fun r =>
    { r with nonfin := if bad then natMin (r.nonfin + 1) (2 ^ 64 - 1) else r.nonfin, smExc := tmod 0 r.smExc 0 (· ||| fl) }) s
  let st := fun n hi (y : W32) (s : State) =>
    let v := (decode32 y.toNat).1
    storeElem x n (fld d.hdr hi (hi - 5)) i l fl 0 v (toW96 v) s
  let s := st 2 107 v1 (st 1 113 m1 (st 0 119 w1 s))
  if bit d.hdr 85 then st 3 101 w1 s else s

/-- Update every row dealt to a channel. -/
def updRow (core key ch : Nat) (c1 c2 : W32) (row : Nat) (s : State) : State :=
  let d := (runOf s core key).d
  let x : VX := ⟨core, ch, key, d, 0, 0, row, 0, 0⟩
  let s := modChan core ch (fun c => rowStart c row) s
  let s := (List.range ((vExts d)[0]?.getD 0)).foldl (fun s i0 => updOne x c1 c2 i0 s) s
  let s := flushHold x (fld d.hdr 113 108) 1 s
  let s := flushHold x (fld d.hdr 107 102) 2 s
  if bit d.hdr 85 then flushHold x (fld d.hdr 101 96) 3 s else s

/-- OPT_UPDATE starts the head of grain core g's queue, where it is a parameter update, and updates every element. -/
def execOptUpdate (core : BitVec 5) (g : BitVec 1) (s : State) : Out :=
  vecStart 0x41 core g (fun key s =>
    let c := core.toNat
    let d := (runOf s c key).d
    let c1 := biasCorr d (BitVec.ofNat 32 (updNum d 511))
    let c2 := biasCorr d (BitVec.ofNat 32 (updNum d 479))
    let chs := vChans d
    let s := biasFlags ⟨c, key, key, d, 0, 0, 0, 0, 0⟩ (c1.2 ++ c2.2) s
    let s := (List.range (nRows d)).foldl (fun s row => updRow c key ((chs[row % chs.length]?).getD 0) c1.1 c2.1 row s) s
    chs.foldl (fun s ch => modChan c ch (fun k => { k with done := true }) s) s) s

/-- VECTOR_COMPLETION (R190): the run of the channel, once all its channels are done. -/
def execVectorCompletion (core : BitVec 5) (ch : BitVec 3) (s : State) : Out :=
  let c := core.toNat
  match runKey s c ch.toNat with
  | none => .next s
  | some key =>
    let r := runOf s c key
    if coreLive s c && (vChans r.d).all (fun i => (chanOf s c i).done) && !vecStalled s c r.d then .next (vecComplete c key s) else .next s

end Sys2Proof.Machine
end

