-- ==== Sys2Proof/Machine/Dispatch.lean ====
section
/-! DEFINITION. One arm for each command. -/

namespace Sys2Proof.Machine

def exec (i : Instr) (s : State) : Host.Outcome State Fault Refusal :=
  match i with
  | .vinValid vinMv => Sys2Proof.Machine.execVinValid vinMv s
  | .railsGood => Sys2Proof.Machine.execRailsGood s
  | .pwrgoodAssert p => Sys2Proof.Machine.execPwrgoodAssert p s
  | .resetNAssert ns => Sys2Proof.Machine.execResetNAssert ns s
  | .resetNRelease p => Sys2Proof.Machine.execResetNRelease p s
  | .firmwareStart => Sys2Proof.Machine.execFirmwareStart s
  | .portsUp => Sys2Proof.Machine.execPortsUp s
  | .hbmTrainingComplete stack good => Sys2Proof.Machine.execHbmTrainingComplete stack good s
  | .deviceReady => Sys2Proof.Machine.execDeviceReady s
  | .hostBootAttachTimeout => Sys2Proof.Machine.execHostBootAttachTimeout s
  | .bootOfferTimer => Sys2Proof.Machine.execBootOfferTimer s
  | .bootData sender payload => Sys2Proof.Machine.execBootData sender payload s
  | .hostBootTimeout => Sys2Proof.Machine.execHostBootTimeout s
  | .romStatus r body => Sys2Proof.Machine.execRomStatus r body s
  | .recoveryWrite r slot image chain sig => Sys2Proof.Machine.execRecoveryWrite r slot image chain sig s
  | .mrExtend n etype data => Sys2Proof.Machine.execMrExtend n etype data s
  | .refclkLoss c => Sys2Proof.Machine.execRefclkLoss c s
  | .refclkRestored c => Sys2Proof.Machine.execRefclkRestored c s
  | .powerFail cause => Sys2Proof.Machine.execPowerFail cause s
  | .powerRestored p => Sys2Proof.Machine.execPowerRestored p s
  | .powerSample vinMv iinMa => Sys2Proof.Machine.execPowerSample vinMv iinMa s
  | .curLimitAlert => Sys2Proof.Machine.execCurLimitAlert s
  | .tempSample sensor t16 => Sys2Proof.Machine.execTempSample sensor t16 s
  | .tripLatchRelease => Sys2Proof.Machine.execTripLatchRelease s
  | .ledgerCommit => Sys2Proof.Machine.execLedgerCommit s
  | .alertCauseWrite mask fresh => Sys2Proof.Machine.execAlertCauseWrite mask fresh s
  | .i2cWriteOther offset v => Sys2Proof.Machine.execI2cWriteOther offset v s
  | .ppsOutPulse => Sys2Proof.Machine.execPpsOutPulse s
  | .ppsInEdge width => Sys2Proof.Machine.execPpsInEdge width s
  | .extest scan => Sys2Proof.Machine.execExtest scan s
  | .idcode => Sys2Proof.Machine.execIdcode s
  | .samplePreload scan => Sys2Proof.Machine.execSamplePreload scan s
  | .authChallenge => Sys2Proof.Machine.execAuthChallenge s
  | .authToken t => Sys2Proof.Machine.execAuthToken t s
  | .authStatus => Sys2Proof.Machine.execAuthStatus s
  | .debugAccess op => Sys2Proof.Machine.execDebugAccess op s
  | .bypass code tdi => Sys2Proof.Machine.execBypass code tdi s
  | .debugTokenVerified resetToo => Sys2Proof.Machine.execDebugTokenVerified resetToo s
  | .debugNonceExpiry => Sys2Proof.Machine.execDebugNonceExpiry s
  | .prodDebugExpiry => Sys2Proof.Machine.execProdDebugExpiry s
  | .matmul core => Sys2Proof.Machine.execMatmul core s
  | .matdrain core => Sys2Proof.Machine.execMatdrain core s
  | .wavefrontEnter core => Sys2Proof.Machine.execWavefrontEnter core s
  | .cellWindowAdd core array row col => Sys2Proof.Machine.execCellWindowAdd core array row col s
  | .drainMarkerCapture core array row col => Sys2Proof.Machine.execDrainMarkerCapture core array row col s
  | .rowReadout core split row => Sys2Proof.Machine.execRowReadout core split row s
  | .checksumCompare core split => Sys2Proof.Machine.execChecksumCompare core split s
  | .reexecute core => Sys2Proof.Machine.execReexecute core s
  | .retireAndReexecute core array isRow idx => Sys2Proof.Machine.execRetireAndReexecute core array isRow idx s
  | .keep core => Sys2Proof.Machine.execKeep core s
  | .failStep core => Sys2Proof.Machine.execFailStep core s
  | .mismatchDecisionTimeout core => Sys2Proof.Machine.execMismatchDecisionTimeout core s
  | .bankFillDone core array bank => Sys2Proof.Machine.execBankFillDone core array bank s
  | .bankRelease core array bank => Sys2Proof.Machine.execBankRelease core array bank s
  | .matrixCompletion core => Sys2Proof.Machine.execMatrixCompletion core s
  | .arraySave core => Sys2Proof.Machine.execArraySave core s
  | .issueMatrix core g => Sys2Proof.Machine.execIssueMatrix core g s
  | .issueVector core g => Sys2Proof.Machine.execIssueVector core g s
  | .issueTileMover core g => Sys2Proof.Machine.execIssueTileMover core g s
  | .issueOutCfg core g => Sys2Proof.Machine.execIssueOutCfg core g s
  | .issueView core g => Sys2Proof.Machine.execIssueView core g s
  | .vchain core g => Sys2Proof.Machine.execVchain core g s
  | .optUpdate core g => Sys2Proof.Machine.execOptUpdate core g s
  | .vecLd core ch => Sys2Proof.Machine.execVecLd core ch s
  | .vecSt core ch => Sys2Proof.Machine.execVecSt core ch s
  | .vecLdc core ch => Sys2Proof.Machine.execVecLdc core ch s
  | .vecAdd core ch => Sys2Proof.Machine.execVecAdd core ch s
  | .vecSub core ch => Sys2Proof.Machine.execVecSub core ch s
  | .vecMul core ch => Sys2Proof.Machine.execVecMul core ch s
  | .vecFma core ch => Sys2Proof.Machine.execVecFma core ch s
  | .vecDiv core ch => Sys2Proof.Machine.execVecDiv core ch s
  | .vecSqrt core ch => Sys2Proof.Machine.execVecSqrt core ch s
  | .vecMax core ch => Sys2Proof.Machine.execVecMax core ch s
  | .vecMin core ch => Sys2Proof.Machine.execVecMin core ch s
  | .vecAbs core ch => Sys2Proof.Machine.execVecAbs core ch s
  | .vecNeg core ch => Sys2Proof.Machine.execVecNeg core ch s
  | .vecFunc core ch => Sys2Proof.Machine.execVecFunc core ch s
  | .vecCmp core ch => Sys2Proof.Machine.execVecCmp core ch s
  | .sel core ch => Sys2Proof.Machine.execSel core ch s
  | .cvt core ch => Sys2Proof.Machine.execCvt core ch s
  | .logic core ch => Sys2Proof.Machine.execLogic core ch s
  | .perm core ch => Sys2Proof.Machine.execPerm core ch s
  | .gather core ch => Sys2Proof.Machine.execGather core ch s
  | .pos core ch => Sys2Proof.Machine.execPos core ch s
  | .red core ch => Sys2Proof.Machine.execRed core ch s
  | .summ core ch => Sys2Proof.Machine.execSumm core ch s
  | .compress core ch => Sys2Proof.Machine.execCompress core ch s
  | .expand core ch => Sys2Proof.Machine.execExpand core ch s
  | .w96add core ch => Sys2Proof.Machine.execW96add core ch s
  | .vectorCompletion core ch => Sys2Proof.Machine.execVectorCompletion core ch s
  | .alu core g => Sys2Proof.Machine.execAlu core g s
  | .addi core g => Sys2Proof.Machine.execAddi core g s
  | .andi core g => Sys2Proof.Machine.execAndi core g s
  | .ori core g => Sys2Proof.Machine.execOri core g s
  | .xori core g => Sys2Proof.Machine.execXori core g s
  | .shli core g => Sys2Proof.Machine.execShli core g s
  | .shri core g => Sys2Proof.Machine.execShri core g s
  | .ldk core g => Sys2Proof.Machine.execLdk core g s
  | .ld core g => Sys2Proof.Machine.execLd core g s
  | .st core g => Sys2Proof.Machine.execSt core g s
  | .beq core g => Sys2Proof.Machine.execBeq core g s
  | .bne core g => Sys2Proof.Machine.execBne core g s
  | .blt core g => Sys2Proof.Machine.execBlt core g s
  | .bge core g => Sys2Proof.Machine.execBge core g s
  | .bltu core g => Sys2Proof.Machine.execBltu core g s
  | .bgeu core g => Sys2Proof.Machine.execBgeu core g s
  | .jal core g => Sys2Proof.Machine.execJal core g s
  | .jr core g => Sys2Proof.Machine.execJr core g s
  | .wait core g => Sys2Proof.Machine.execWait core g s
  | .poll core g => Sys2Proof.Machine.execPoll core g s
  | .waitall core g => Sys2Proof.Machine.execWaitall core g s
  | .rdsum core g => Sys2Proof.Machine.execRdsum core g s
  | .epoch core g => Sys2Proof.Machine.execEpoch core g s
  | .pmark core g => Sys2Proof.Machine.execPmark core g s
  | .rdtime core g => Sys2Proof.Machine.execRdtime core g s
  | .settrap core g => Sys2Proof.Machine.execSettrap core g s
  | .trapret core g => Sys2Proof.Machine.execTrapret core g s
  | .rdtrap core g => Sys2Proof.Machine.execRdtrap core g s
  | .gsend core g => Sys2Proof.Machine.execGsend core g s
  | .grecv core g => Sys2Proof.Machine.execGrecv core g s
  | .barrier core g => Sys2Proof.Machine.execBarrier core g s
  | .halt core g => Sys2Proof.Machine.execHalt core g s
  | .trapTake core g => Sys2Proof.Machine.execTrapTake core g s
  | .tmCopy core mover => Sys2Proof.Machine.execTmCopy core mover s
  | .tmLayout core mover => Sys2Proof.Machine.execTmLayout core mover s
  | .tmGather core mover => Sys2Proof.Machine.execTmGather core mover s
  | .tmZero core mover => Sys2Proof.Machine.execTmZero core mover s
  | .tmZeroAcc core mover => Sys2Proof.Machine.execTmZeroAcc core mover s
  | .tmReduce core mover => Sys2Proof.Machine.execTmReduce core mover s
  | .tmAccRead core mover => Sys2Proof.Machine.execTmAccRead core mover s
  | .accReadRelease core mover => Sys2Proof.Machine.execAccReadRelease core mover s
  | .tmSend core mover => Sys2Proof.Machine.execTmSend core mover s
  | .admitWaitExpiry core mover => Sys2Proof.Machine.execAdmitWaitExpiry core mover s
  | .tileMove core mover => Sys2Proof.Machine.execTileMove core mover s
  | .tileMoverCompletion core mover => Sys2Proof.Machine.execTileMoverCompletion core mover s
  | .hbmRead m pa find => Sys2Proof.Machine.execHbmRead m pa find s
  | .hbmWrite m pa line => Sys2Proof.Machine.execHbmWrite m pa line s
  | .partialWrite m pa len data find => Sys2Proof.Machine.execPartialWrite m pa len data find s
  | .lineAdd stack ch find => Sys2Proof.Machine.execLineAdd stack ch find s
  | .groupReencryptDone group bad => Sys2Proof.Machine.execGroupReencryptDone group bad s
  | .metadataWriteback line => Sys2Proof.Machine.execMetadataWriteback line s
  | .zotWorkDone ctx entry => Sys2Proof.Machine.execZotWorkDone ctx entry s
  | .pushaheadDrain part => Sys2Proof.Machine.execPushaheadDrain part s
  | .linkSignalDetect link => Sys2Proof.Machine.execLinkSignalDetect link s
  | .linkTrainingDone link d => Sys2Proof.Machine.execLinkTrainingDone link d s
  | .trainTimeout link => Sys2Proof.Machine.execTrainTimeout link s
  | .linkHello link payload => Sys2Proof.Machine.execLinkHello link payload s
  | .helloTimeout link => Sys2Proof.Machine.execHelloTimeout link s
  | .linkAttest link payload => Sys2Proof.Machine.execLinkAttest link payload s
  | .attestTimeout link => Sys2Proof.Machine.execAttestTimeout link s
  | .policyVerdict link accept => Sys2Proof.Machine.execPolicyVerdict link accept s
  | .keyConfirm link f => Sys2Proof.Machine.execKeyConfirm link f s
  | .keyTimeout link => Sys2Proof.Machine.execKeyTimeout link s
  | .linkFence link cause => Sys2Proof.Machine.execLinkFence link cause s
  | .linkReset link f => Sys2Proof.Machine.execLinkReset link f s
  | .linkFencedTimeout link => Sys2Proof.Machine.execLinkFencedTimeout link s
  | .linkRetryTimer link => Sys2Proof.Machine.execLinkRetryTimer link s
  | .linkTransmit link => Sys2Proof.Machine.execLinkTransmit link s
  | .data link f => Sys2Proof.Machine.execData link f s
  | .linkAck link f => Sys2Proof.Machine.execLinkAck link f s
  | .nak link f => Sys2Proof.Machine.execNak link f s
  | .fill link f => Sys2Proof.Machine.execFill link f s
  | .linkAckTimer link => Sys2Proof.Machine.execLinkAckTimer link s
  | .linkRetransmitTimeout link => Sys2Proof.Machine.execLinkRetransmitTimeout link s
  | .fecWindow link errors => Sys2Proof.Machine.execFecWindow link errors s
  | .degradedFenceTimer link => Sys2Proof.Machine.execDegradedFenceTimer link s
  | .pathOpenFrame link f => Sys2Proof.Machine.execPathOpenFrame link f s
  | .pathAccept link f => Sys2Proof.Machine.execPathAccept link f s
  | .pathConfirm link f => Sys2Proof.Machine.execPathConfirm link f s
  | .pathCloseFrame link f => Sys2Proof.Machine.execPathCloseFrame link f s
  | .pathLost link f => Sys2Proof.Machine.execPathLost link f s
  | .pathDegraded link f => Sys2Proof.Machine.execPathDegraded link f s
  | .delivered link f => Sys2Proof.Machine.execDelivered link f s
  | .refused link f => Sys2Proof.Machine.execRefused link f s
  | .pathReopen die path => Sys2Proof.Machine.execPathReopen die path s
  | .pfcPauseFrame prios ns => Sys2Proof.Machine.execPfcPauseFrame prios ns s
  | .lldpFrame data => Sys2Proof.Machine.execLldpFrame data s
  | .lldpTransmit => Sys2Proof.Machine.execLldpTransmit s
  | .arpFrame data => Sys2Proof.Machine.execArpFrame data s
  | .neighbourDiscovery data => Sys2Proof.Machine.execNeighbourDiscovery data s
  | .icmpEcho data => Sys2Proof.Machine.execIcmpEcho data s
  | .hostLinkUp mode => Sys2Proof.Machine.execHostLinkUp mode s
  | .hostLinkDown => Sys2Proof.Machine.execHostLinkDown s
  | .ptpAnnounce hdr rank => Sys2Proof.Machine.execPtpAnnounce hdr rank s
  | .ptpSync hdr t2 => Sys2Proof.Machine.execPtpSync hdr t2 s
  | .ptpFollowUp hdr t1 => Sys2Proof.Machine.execPtpFollowUp hdr t1 s
  | .ptpDelayResp resp => Sys2Proof.Machine.execPtpDelayResp resp s
  | .ptpDelayReqTimer => Sys2Proof.Machine.execPtpDelayReqTimer s
  | .ptpSyncTimeout => Sys2Proof.Machine.execPtpSyncTimeout s
  | .ptpAnnounceTimeout => Sys2Proof.Machine.execPtpAnnounceTimeout s
  | .ptpRelay sess msg => Sys2Proof.Machine.execPtpRelay sess msg s
  | .clientHello port peer payload => Sys2Proof.Machine.execClientHello port peer payload s
  | .clientFinish sess payload => Sys2Proof.Machine.execClientFinish sess payload s
  | .halfOpenTimeout sess => Sys2Proof.Machine.execHalfOpenTimeout sess s
  | .attestOnly port peer payload => Sys2Proof.Machine.execAttestOnly port peer payload s
  | .khtAck sess ackSeq ack => Sys2Proof.Machine.execKhtAck sess ackSeq ack s
  | .khtAckTimer sess => Sys2Proof.Machine.execKhtAckTimer sess s
  | .khtRetransmitTimeout sess => Sys2Proof.Machine.execKhtRetransmitTimeout sess s
  | .sessionTimeout sess => Sys2Proof.Machine.execSessionTimeout sess s
  | .bulkDatagram sess seq head cipher tag => Sys2Proof.Machine.execBulkDatagram sess seq head cipher tag s
  | .bulkOutChunk key => Sys2Proof.Machine.execBulkOutChunk key s
  | .mailboxBoundExpiry sess tag => Sys2Proof.Machine.execMailboxBoundExpiry sess tag s
  | .eventSend queue => Sys2Proof.Machine.execEventSend queue s
  | .attestRequest r body => Sys2Proof.Machine.execAttestRequest r body s
  | .deviceInfo r body => Sys2Proof.Machine.execDeviceInfo r body s
  | .timeRead r body => Sys2Proof.Machine.execTimeRead r body s
  | .sessionClose r body => Sys2Proof.Machine.execSessionClose r body s
  | .telemetryRead r body => Sys2Proof.Machine.execTelemetryRead r body s
  | .partitionAssign r body => Sys2Proof.Machine.execPartitionAssign r body s
  | .partitionRelease r body => Sys2Proof.Machine.execPartitionRelease r body s
  | .peerLost r body => Sys2Proof.Machine.execPeerLost r body s
  | .contextCreate r body => Sys2Proof.Machine.execContextCreate r body s
  | .contextLoad r body => Sys2Proof.Machine.execContextLoad r body s
  | .contextStart r body => Sys2Proof.Machine.execContextStart r body s
  | .contextFence r body => Sys2Proof.Machine.execContextFence r body s
  | .fenceConfirmed ctx => Sys2Proof.Machine.execFenceConfirmed ctx s
  | .fenceLimit ctx => Sys2Proof.Machine.execFenceLimit ctx s
  | .partitionResetLimit part => Sys2Proof.Machine.execPartitionResetLimit part s
  | .contextDestroy r body => Sys2Proof.Machine.execContextDestroy r body s
  | .contextScrubDone ctx => Sys2Proof.Machine.execContextScrubDone ctx s
  | .regionSet r body => Sys2Proof.Machine.execRegionSet r body s
  | .regionClear r body => Sys2Proof.Machine.execRegionClear r body s
  | .windowSet r body => Sys2Proof.Machine.execWindowSet r body s
  | .pathOpen r body => Sys2Proof.Machine.execPathOpen r body s
  | .pathClose r body => Sys2Proof.Machine.execPathClose r body s
  | .bulkWindowSet r body => Sys2Proof.Machine.execBulkWindowSet r body s
  | .bulkWindowClear r body => Sys2Proof.Machine.execBulkWindowClear r body s
  | .bulkInOpen r body => Sys2Proof.Machine.execBulkInOpen r body s
  | .bulkOutOpen r body => Sys2Proof.Machine.execBulkOutOpen r body s
  | .captureRead r body => Sys2Proof.Machine.execCaptureRead r body s
  | .countersRead r body => Sys2Proof.Machine.execCountersRead r body s
  | .phaseReportRead r body => Sys2Proof.Machine.execPhaseReportRead r body s
  | .phaseMarkDrain ctx => Sys2Proof.Machine.execPhaseMarkDrain ctx s
  | .quantumExpiry core => Sys2Proof.Machine.execQuantumExpiry core s
  | .contextSaveDone ctx => Sys2Proof.Machine.execContextSaveDone ctx s
  | .contextRestoreDone ctx => Sys2Proof.Machine.execContextRestoreDone ctx s
  | .watchdogExpiry ctx unit => Sys2Proof.Machine.execWatchdogExpiry ctx unit s
  | .dumpUnitTimeout ctx unit => Sys2Proof.Machine.execDumpUnitTimeout ctx unit s
  | .dumpDone ctx => Sys2Proof.Machine.execDumpDone ctx s
  | .scrubKeyPhase part => Sys2Proof.Machine.execScrubKeyPhase part s
  | .scrubLedgerCommit part => Sys2Proof.Machine.execScrubLedgerCommit part s
  | .scrubDone part => Sys2Proof.Machine.execScrubDone part s
  | .scrubRestart part => Sys2Proof.Machine.execScrubRestart part s
  | .configWrite r body => Sys2Proof.Machine.execConfigWrite r body s
  | .configValidate r body => Sys2Proof.Machine.execConfigValidate r body s
  | .configSwap r body => Sys2Proof.Machine.execConfigSwap r body s
  | .configSetPersisted => Sys2Proof.Machine.execConfigSetPersisted s
  | .configRead r body => Sys2Proof.Machine.execConfigRead r body s
  | .powerLimitSet r body => Sys2Proof.Machine.execPowerLimitSet r body s
  | .alertClear r body => Sys2Proof.Machine.execAlertClear r body s
  | .faultLogRead r body => Sys2Proof.Machine.execFaultLogRead r body s
  | .linkUnretire r body => Sys2Proof.Machine.execLinkUnretire r body s
  | .mgmtNetSet r body => Sys2Proof.Machine.execMgmtNetSet r body s
  | .fwStageBegin r body => Sys2Proof.Machine.execFwStageBegin r body s
  | .fwStageData r body => Sys2Proof.Machine.execFwStageData r body s
  | .fwStageEnd r body => Sys2Proof.Machine.execFwStageEnd r body s
  | .fwActivate r body => Sys2Proof.Machine.execFwActivate r body s
  | .fwAbandon r body => Sys2Proof.Machine.execFwAbandon r body s
  | .svnCommit r body => Sys2Proof.Machine.execSvnCommit r body s
  | .deviceReset r body => Sys2Proof.Machine.execDeviceReset r body s
  | .secondLife r body => Sys2Proof.Machine.execSecondLife r body s
  | .secondLifeTestDone => Sys2Proof.Machine.execSecondLifeTestDone s
  | .ledgerExport r body => Sys2Proof.Machine.execLedgerExport r body s
  | .titleChallenge r body => Sys2Proof.Machine.execTitleChallenge r body s
  | .titleTransfer r body => Sys2Proof.Machine.execTitleTransfer r body s
  | .operatorRootSet r body => Sys2Proof.Machine.execOperatorRootSet r body s
  | .cosignSet r body => Sys2Proof.Machine.execCosignSet r body s
  | .retire r body => Sys2Proof.Machine.execRetire r body s
  | .debugChallenge r body => Sys2Proof.Machine.execDebugChallenge r body s
  | .debugToken r body => Sys2Proof.Machine.execDebugToken r body s
  | .charterLoad r body => Sys2Proof.Machine.execCharterLoad r body s
  | .keyShareAttest r body => Sys2Proof.Machine.execKeyShareAttest r body s
  | .keyShareShare r body => Sys2Proof.Machine.execKeyShareShare r body s
  | .keyShareRestoreAuth r body => Sys2Proof.Machine.execKeyShareRestoreAuth r body s
  | .keyShareStatus r body => Sys2Proof.Machine.execKeyShareStatus r body s
  | .stepJoin r body => Sys2Proof.Machine.execStepJoin r body s
  | .stepCommit r body => Sys2Proof.Machine.execStepCommit r body s
  | .stepRollback r body => Sys2Proof.Machine.execStepRollback r body s
  | .stepUncommit r body => Sys2Proof.Machine.execStepUncommit r body s
  | .mirrorRelease r body => Sys2Proof.Machine.execMirrorRelease r body s
  | .mirrorStatus r body => Sys2Proof.Machine.execMirrorStatus r body s
  | .mirrorRestore r body => Sys2Proof.Machine.execMirrorRestore r body s
  | .stepAbort r body => Sys2Proof.Machine.execStepAbort r body s
  | .ckptCut r body => Sys2Proof.Machine.execCkptCut r body s
  | .snapshotChunk part => Sys2Proof.Machine.execSnapshotChunk part s
  | .ckptStatus r body => Sys2Proof.Machine.execCkptStatus r body s
  | .ckptStored r body => Sys2Proof.Machine.execCkptStored r body s
  | .ckptAbandon r body => Sys2Proof.Machine.execCkptAbandon r body s
  | .ckptManifestLoad r body => Sys2Proof.Machine.execCkptManifestLoad r body s
  | .ckptRestoreOpen r body => Sys2Proof.Machine.execCkptRestoreOpen r body s
  | .regulatorPhaseFailure phase => Sys2Proof.Machine.execRegulatorPhaseFailure phase s
  | .supplyDroop core => Sys2Proof.Machine.execSupplyDroop core s
  | .provisioning serial secret keys debugKey titleKey cert => Sys2Proof.Machine.execProvisioning serial secret keys debugKey titleKey cert s
  | .prodFuseBurn => Sys2Proof.Machine.execProdFuseBurn s
  | .illegalInstruction core g => Sys2Proof.Machine.execIllegalInstruction core g s
  | .traceExport => Sys2Proof.Machine.execTraceExport s
  | .unknownMailboxOpcode r op => Sys2Proof.Machine.execUnknownMailboxOpcode r op s
  | .droppedFrame port => Sys2Proof.Machine.execDroppedFrame port s
  | .titleNonceExpiry => Sys2Proof.Machine.execTitleNonceExpiry s
  | .signalLoss link => Sys2Proof.Machine.execSignalLoss link s
  | .mgmtPortLinkDown => Sys2Proof.Machine.execMgmtPortLinkDown s
  | .mgmtPortLinkUp mode => Sys2Proof.Machine.execMgmtPortLinkUp mode s

end Sys2Proof.Machine
end

