-- ==== Sys2Proof/Machine/Tick.lean ====
section
/-! DEFINITION. What a nanosecond does when no command waits (DESIGN CHOICE, log entry 12): the time base counts (R11, R299), and what lasts a
stated time ends. -/

namespace Sys2Proof.Machine

/-- One nanosecond of the time base: its rate follows the frequency correction, and is halved while an offset is removed; `ahead`
falls by what a halved rate holds back. -/
def tickTime (t : TimeUnit) : TimeUnit :=
  let rate := ((1000000000 : Int) + t.ppb).toNat
  let sum := t.frac + (if t.half then rate / 2 else rate)
  let gone := if sum / 1000000000 = 0 then t.ahead - 1 else t.ahead
  { t with base := t.base + BitVec.ofNat 64 (sum / 1000000000), frac := sum % 1000000000,
           ahead := if t.half then gone else t.ahead, half := t.half && gone != 0 }
/-- The PPS_OUT pulse ends 1 ms after it began (R25). -/
def tickPps (t : TimeUnit) : TimeUnit :=
  match t.lastPps with
  | some b => if t.ppsOut && t.base.toNat ≥ b + 1000000 then { t with ppsOut := false } else t
  | none => t
/-- A writer that stalls on push-ahead stalls for a nanosecond more (R387). -/
def tickStall (q : Partition) : Partition :=
  let l := q.snap.stalls.filter (fun g => pushStuck q.snap (g * 4096))
  { q with snap := { q.snap with stalls := l, stallNs := if l.isEmpty then q.snap.stallNs else q.snap.stallNs + 1 } }

/-- Control datagrams that a pause held go out when it has ended (R296). -/
def releaseCtrl (s : State) : State :=
  (openSessions s (fun n q => !q.txHold.isEmpty && q.unacked.length < 1024 && portOpen s q.port && !ctrlPaused s n)).foldl (fun s n => sendHeld n s) s

/-- Teardowns go on: their steps follow one another within 200 µs (R343). -/
def tearOn (s : State) : State := (s.ctxs.filter (fun e => e.2.state == .tearing)).foldl (fun s e => tearRest e.1 s) s
/-- A step with no command waiting. -/
def tick (s : State) : State :=
  if s.pkg.supply == .off then s else
  titleStep <| tearOn <| shardsOn <| releaseCtrl <| releaseHello <| settleAll <| rxGoOn <| drainHeld { s with
    time := tickPps (tickTime s.time),
    cores := s.cores.map (fun e => (e.1, { e.2 with stretch := false })),
    parts := s.parts.map (fun e => (e.1, tickStall e.2)) }

end Sys2Proof.Machine
end

