-- ==== Sys2Proof/Machine/Step.lean ====
section
/-! DEFINITION. One step: the command at the front of the queue runs; with none waiting a nanosecond passes. -/

namespace Sys2Proof.Machine

/-- The state with the command that a table word spells at the front of its queue. -/
def State.withFetchWord (s : State) (nbits w : Nat) : State :=
  match decodeTableWord nbits w with
  | some i => { s with pending := i :: s.pending }
  | none => s

/-- One step. With no command waiting, a mailbox request that was received ahead of its turn is processed when its turn has come (R303;
DESIGN CHOICE, log entry 157); otherwise a nanosecond passes. -/
def step (s : State) : Host.Outcome State Fault Refusal :=
  match s.pending with
  | i :: rest => exec i { s with pending := rest }
  | [] => match due s with
    | some (i, s) => exec i s
    | none => .next (tick s)

end Sys2Proof.Machine
end

