-- ==== Sys2Proof/Safety.lean ====
section
/-! DEFINITION. The words claims are stated in: a command that completes with a post-condition, a request that the device takes,
what a run is, and the orders that runs keep. -/

namespace Sys2Proof.Machine

/-- The command runs from `s` and its next state satisfies `post`. -/
def Completes (i : Instr) (s : State) (post : State → Prop) : Prop := ∃ t, exec i s = .next t ∧ post t

/-- A run: finitely many steps, none of which stops. -/
inductive Runs : State → State → Prop where
  | refl (s : State) : Runs s s
  | tail (s t u : State) (h : Runs s t) (k : step t = .next u) : Runs s u

/-! ## Requests (R15, R311, R312) -/

/-- The request's datagrams arrive whole and in their turn: its port is open, its header keeps the layout of R301 and comes from the
session's peer with a tag that verifies (R302), its SEQs follow the last one received and none of them has been received, no request of
the session waits in front of it (R303), and it acknowledges nothing that waits for that. -/
abbrev InTurn (s : State) (r : Req) : Prop :=
  portOpen s r.port = true ∧ headBad r.head = false ∧ r.head.peer.getD (sessOf s r.sess).peer = (sessOf s r.sess).peer ∧ r.head.tagBad = false ∧
  r.head.seq.getD ((sessOf s r.sess).rxSeq + 1) = (sessOf s r.sess).rxSeq + 1 ∧
  seqsOpen (sessOf s r.sess) ((sessOf s r.sess).rxSeq + 1) ((sessOf s r.sess).rxSeq + 1 + r.frags) = true ∧
  (sessOf s r.sess).rxSeq + r.frags < 2 ^ 47 ∧ (sessOf s r.sess).turn = false ∧ turnTaken s r.sess = false ∧
  ∀ t ∈ (sessOf s r.sess).unacked, ackCovers r.acks.ackSeq r.acks.sack t.seq = false
/-- Nothing that every mailbox request can be refused for holds of this one: the device is READY (R48), the session is open on the
request's port (R302), it holds the right (R7), the header's reserved and zero fields are zero (R12, R311), the tag is new and fewer
than 64 requests wait (R312), the session's sequence numbers are far from their end (R304), and the request comes in its turn. -/
abbrev Admitted (s : State) (r : Req) (rt : Rights) : Prop :=
  InTurn s r ∧ s.pkg.supply = .on ∧ s.boot.phase = .ready ∧
  (sessOf s r.sess).phase = .opened ∧ (sessOf s r.sess).port = r.port ∧ holds s r rt = true ∧
  r.rsvHi = 0 ∧ r.rsvLo = 0 ∧ r.status = 0 ∧ r.earliest = 0 ∧ r.bodyLen.toNat ≤ 65504 ∧
  r.tag ∉ (sessOf s r.sess).busy.map (·.1) ∧ (sessOf s r.sess).busy.length < 64 ∧ (sessOf s r.sess).txSeq < 2 ^ 47
/-- The same, of a device that is not retired (R414) and a session that is no titleholder's at owner epoch 0 (R412). -/
abbrev Served (s : State) (r : Req) (rt : Rights) : Prop :=
  Admitted s r rt ∧ s.fuses.lifecycle ≠ .retired ∧ ((sessOf s r.sess).role = .titleholder → s.fuses.ownerEpoch ≠ 0)

/-- The mailbox requests: a header and a body that a session sends (R311). -/
def mailboxRows : List (Req → Bytes → Instr) :=
  [Instr.romStatus, Instr.attestRequest, Instr.deviceInfo, Instr.timeRead, Instr.sessionClose, Instr.telemetryRead, Instr.partitionAssign] ++
  [Instr.partitionRelease, Instr.peerLost, Instr.contextCreate, Instr.contextLoad, Instr.contextStart, Instr.contextFence, Instr.contextDestroy] ++
  [Instr.regionSet, Instr.regionClear, Instr.windowSet, Instr.pathOpen, Instr.pathClose, Instr.bulkWindowSet, Instr.bulkWindowClear] ++
  [Instr.bulkInOpen, Instr.bulkOutOpen, Instr.captureRead, Instr.countersRead, Instr.phaseReportRead, Instr.configWrite, Instr.configValidate] ++
  [Instr.configSwap, Instr.configRead, Instr.powerLimitSet, Instr.alertClear, Instr.faultLogRead, Instr.linkUnretire, Instr.mgmtNetSet] ++
  [Instr.fwStageBegin, Instr.fwStageData, Instr.fwStageEnd, Instr.fwActivate, Instr.fwAbandon, Instr.svnCommit, Instr.deviceReset] ++
  [Instr.secondLife, Instr.ledgerExport, Instr.titleChallenge, Instr.titleTransfer, Instr.operatorRootSet, Instr.cosignSet, Instr.retire] ++
  [Instr.debugChallenge, Instr.debugToken, Instr.charterLoad, Instr.keyShareAttest, Instr.keyShareShare, Instr.keyShareRestoreAuth, Instr.keyShareStatus] ++
  [Instr.stepJoin, Instr.stepCommit, Instr.stepRollback, Instr.stepUncommit, Instr.mirrorRelease, Instr.mirrorStatus, Instr.mirrorRestore] ++
  [Instr.stepAbort, Instr.ckptCut, Instr.ckptStatus, Instr.ckptStored, Instr.ckptAbandon, Instr.ckptManifestLoad, Instr.ckptRestoreOpen]

/-- The request's body has exactly n bytes, and BODY_LENGTH says so. -/
abbrev HasLength (r : Req) (body : Bytes) (n : Nat) : Prop := body.length = n ∧ r.bodyLen.toNat = n

/-- The request names a context of its partition by its current generation (R338). -/
abbrev NamesContext (s : State) (r : Req) : Prop :=
  (ctxOf s r.ctx.toNat).state ≠ .free ∧ (ctxOf s r.ctx.toNat).part = r.part ∧ (ctxOf s r.ctx.toNat).gen = r.gen

/-- The boot ROM has started (R30, R46) and has come to one of its ends; fuses, non-volatile memory, keys and everything a start
does not concern are as before. -/
def RomStarted (s t : State) : Prop :=
  t.boot.romRuns = s.boot.romRuns + 1 ∧ t.pkg.xspiResetN = true ∧ t.pkg.supply = .on ∧
  (t.boot.phase = .checked ∨ t.boot.phase = .halted ∨ t.boot.phase = .hostBoot) ∧ t.fuses = s.fuses ∧ t.nvm = s.nvm ∧
  (∀ n, n ≠ slotIdentity → keyOf t n = keyOf s n) ∧ t.mem = s.mem ∧ t.time = s.time ∧ t.ctxs = s.ctxs ∧ t.parts = s.parts ∧ t.sess = s.sess ∧ t.ledger = s.ledger

/-- The co-signing rule that a boot begins with (R413). -/
def coSampled (s : State) : State := setBoot s { s.boot with coRule := s.nvm.title.cosign, coKey := s.nvm.title.cosignKey }
/-- A measurement register extended once (R60). -/
def mrNext (x : Digest) (ty : Nat) (data : Bytes) : Digest :=
  Config.sha512 (digestBytes x ++ digestBytes (Config.sha512 (bytesBE 4 ty ++ data)))
/-- MR0 once the ROM has measured itself, the fuses and its source (R51, R59). -/
def romMeasured (s : State) (src : Nat) : Digest :=
  mrNext (mrNext (mrNext (tget 0 s.mrs.mr 0) 1 Config.romIdentity) 2 (Config.fuseSummary s.fuses)) 3 [BitVec.ofNat 8 src]

/-! ## Cores -/

/-- Two states differ in one core at most. -/
def OnlyCore (c : Nat) (s t : State) : Prop := t = { s with cores := t.cores } ∧ ∀ i, i ≠ c → coreOf t i = coreOf s i
/-- The core's arrays run the descriptor r, and its context is ACTIVE. -/
abbrev Running (s : State) (c : Nat) (r : MatRun) : Prop := coreLive s c = true ∧ (arrOf s c).run = some r
/-- The queue of the grain core whose turn it was has lost its head (R125). -/
def matPopped (c g : Nat) (both : Bool) (s : State) : State :=
  modArr c (fun a => { a with queue := tset a.queue g ((tget [] a.queue g).drop 1), turn := if both then 1 - BitVec.ofNat 1 g else a.turn }) s

/-! ## The vector engine (R187-R212) -/

/-- The channel stands at the instruction that x names: its run, row, block and phase. It is not done, and nothing stalls it. -/
abbrev AtInstr (s : State) (core : BitVec 5) (ch : BitVec 3) (x : VX) : Prop :=
  x.core = core.toNat ∧ x.ch = ch.toNat ∧ coreLive s x.core = true ∧ runKey s x.core x.ch = some x.key ∧ x.d = (runOf s x.core x.key).d ∧
  (chanOf s x.core x.ch).busy = true ∧ (chanOf s x.core x.ch).done = false ∧ vecStalled s x.core x.d = false ∧
  (runOf s x.core x.key).status = .ok ∧ x.row = (chanOf s x.core x.ch).row ∧ x.w = vInstr x.d x.n ∧ (rowProgram x.d)[(chanOf s x.core x.ch).pc]? = some (x.phase, x.blk, x.n)
/-- The instruction is not the last of its phase in the row. -/
abbrev Inside (s : State) (x : VX) : Prop := ((rowProgram x.d)[(chanOf s x.core x.ch).pc + 1]?).map (·.1) = some x.phase

/-- The channel has gone on by one instruction; other channels, other cores and every byte of memory are as before. -/
def Advanced (s t : State) (x : VX) : Prop :=
  (chanOf t x.core x.ch).pc = (chanOf s x.core x.ch).pc + 1 ∧ (chanOf t x.core x.ch).row = (chanOf s x.core x.ch).row ∧
  (∀ ch, ch ≠ x.ch → chanOf t x.core ch = chanOf s x.core ch) ∧ ∀ i, i ≠ x.core → coreOf t i = coreOf s i
/-- Register VD of each active lane takes its value, but for the lanes `off` that have no result (R80); every other register and lane keeps
its own (R195, R196). -/
def LanesWrittenBut (off : Nat → Bool) (s t : State) (x : VX) (v : Nat → W32) : Prop :=
  Advanced s t x ∧ t.mem = s.mem ∧
  (∀ l < vLanes x, rget (chanOf t x.core x.ch) (xD x.w) l = if off l then rget (chanOf s x.core x.ch) (xD x.w) l else v l) ∧
  ∀ r l, l < 64 → (r ≠ xD x.w ∨ vLanes x ≤ l) → rget (chanOf t x.core x.ch) r l = rget (chanOf s x.core x.ch) r l
/-- The same, where the lanes without a result are those from before. -/
abbrev LanesWritten (s t : State) (x : VX) (v : Nat → W32) : Prop := LanesWrittenBut (laneOff s x) s t x v
/-- The four registers from VD of each active lane take a W96 value (R196). -/
def WideWrittenBut (off : Nat → Bool) (s t : State) (x : VX) (v : Nat → Nat) : Prop :=
  Advanced s t x ∧ t.mem = s.mem ∧
  (∀ l < vLanes x, rgetW (chanOf t x.core x.ch) (xD x.w) l = if off l then rgetW (chanOf s x.core x.ch) (xD x.w) l else v l % 2 ^ 128) ∧
  ∀ r l, l < 64 → (r < xD x.w ∨ xD x.w + 4 ≤ r ∨ vLanes x ≤ l) → rget (chanOf t x.core x.ch) r l = rget (chanOf s x.core x.ch) r l
abbrev WideWritten (s t : State) (x : VX) (v : Nat → Nat) : Prop := WideWrittenBut (laneOff s x) s t x v
/-- The lanes that have lost their result by an instruction: those that `p` picks among the ones that had it (R80). -/
def LanesLost (s t : State) (x : VX) (p : Nat → Bool) : Prop :=
  vPack x.d = false → x.phase ≠ 2 → ∀ l < vLanes x, laneOff t x l = (laneOff s x l || p l)
/-- The code that a view's tile holds of the element at a point (R81). -/
def storedCode (m : Mem) (core : Nat) (v : View) (i : List Nat) : Nat :=
  let p := vwPlace v (vwElem v i)
  memBits m (vwAddr core v p.1 + 64) (elemOff (vwFmt v) (vwTCols v) p.2.1 p.2.2) (fmtBits (vwFmt v))
/-- The code that a view without scales takes of a value, or of a W96 group (R190, R198). -/
def viewCode (d : VDesc) (v : View) (y : Val × Group) : Nat :=
  (if vwFmt v = 0x0B then (canonW96 y.2).toNat
   else (encodeElem (vwFmt v) (if vwFmt v = 0x0A then 0 else vRound d) 0 (signed 8 (vwZp v)) y.1).1) % 2 ^ fmtBits (vwFmt v)
/-- The value that an ST takes for lane k, or in BF16X2 for element k, with its W96 group (R198). -/
def stValue (s : State) (x : VX) (k : Nat) : Val × Group :=
  let c := chanOf s x.core x.ch
  if xType x.w = 1 then
    let v := (decodeFloat 0x07 (if k % 2 = 0 then fld (rget c (xA x.w) (k / 2)) 15 0 else fld (rget c (xA x.w) (k / 2)) 31 16)).1
    (v, toW96 v)
  else
    let v := (rval c (xType x.w) (xA x.w) k).1
    (v, if xType x.w = 3 then (readVec (rgetW c (xA x.w) k)).1 else toW96 v)
/-- A view without scales whose tiles lie in their slots, stored to without random rounding, in the run that writes (R190, R205). -/
abbrev StoresPlain (s : State) (x : VX) (v : View) : Prop :=
  viewBad v = false ∧ vwMode v = 0 ∧ vwTRows v ≤ 4096 ∧ vwTCols v ≤ 4096 ∧ footprint (vwPayload v) ≤ vwSlot v * 64 ∧
  nbit (vRound x.d) 1 = false ∧ dryRun s x = false ∧ Memory.wf s.mem = true
/-- The instruction has not yet written the element at a point (R190). -/
abbrev Fresh (s : State) (x : VX) (v : View) (i : List Nat) : Prop :=
  ((vwAddr x.core v (vwPlace v (vwElem v i)).1 * 2 ^ 12 + (vwPlace v (vwElem v i)).2.1) * 2 ^ 12 + (vwPlace v (vwElem v i)).2.2) * 2 ^ 5 + x.n ∉
    (runOf s x.core x.key).written
/-- The view of an update that the header names at a bit. -/
def updView (d : VDesc) (hi : Nat) : View := viewOf d (fld d.hdr hi (hi - 5))
/-- What R212 makes of the gradient, the weight and the two moments that an update's views hold at a point: weight, first and second
moment, and whether the gradient is not finite. -/
def updResult (s : State) (core : Nat) (d : VDesc) (c1 c2 : W32) (i : List Nat) : W32 × W32 × W32 × Bool :=
  let ld := fun hi => (BitVec.ofNat 32 (loadElem s ⟨core, 0, 0, d, 0, 0, 0, 0, 0⟩ (updView d hi) i 0).1 : W32)
  let r := updElem d c1 c2 (ld 143) (ld 137) (ld 131) (ld 125) {}
  (r.1, r.2.1, r.2.2.1, r.2.2.2.1)
/-- The tiles of two views lie apart. -/
abbrev Apart (v w : View) : Prop := overlaps (vwSpan v).1 (vwSpan v).2 (vwSpan w).1 (vwSpan w).2 = false

/-- The place that a lane's index names among n, where the chain goes on (R200): none reads as zero. -/
def indexed (s : State) (x : VX) (n l : Nat) : Option Nat := (settleIndex (xIdx x.w) n (rget (chanOf s x.core x.ch) (xB x.w) l).toInt).1
/-- The chain goes on: IDX_MODE is not 10, or every active lane's index lies within n. -/
abbrev IndexesFit (s : State) (x : VX) (n : Nat) : Prop :=
  xIdx x.w ≠ 2 ∨ ∀ l ∈ lanesOn s x, (settleIndex 0 n (rget (chanOf s x.core x.ch) (xB x.w) l).toInt).2 = false
/-- No register changes. -/
def RegsKept (s t : State) (x : VX) : Prop := Advanced s t x ∧ (chanOf t x.core x.ch).regs = (chanOf s x.core x.ch).regs
/-- The result of an arithmetic instruction in lane l by its type (R197): FP32, two BF16 values, or INT32. -/
def aluResult (x : VX) (f : Val → Val → Val → Val × Exc) (g : Int → Int → Int) (c : Chan) (l : Nat) : W32 :=
  if xType x.w = 0 then (f32op f (rget c (xA x.w) l) (rget c (xB x.w) l) (rget c (xC x.w) l)).1
  else if xType x.w = 1 then
    (packOp (bfop f) (2 * l + 1 < vLen x) (rget c (xD x.w) l) (rget c (xA x.w) l) (rget c (xB x.w) l) (rget c (xC x.w) l)).1
  else (i32op g (rget c (xA x.w) l) (rget c (xB x.w) l)).1

/-- The head of the vector queue of grain core g has left it (R187). -/
def vecPopped (c : Nat) (g : BitVec 1) (contested : Bool) (s : State) : State :=
  vecPop c g.toNat (if contested then setCore s c { coreOf s c with vec := { (coreOf s c).vec with turn := 1 - g } } else s)
/-- The engine can take d, the head of grain core g's queue, now. -/
abbrev VecReady (s : State) (core : BitVec 5) (g : BitVec 1) (d : VDesc) : Prop :=
  coreLive s core.toNat = true ∧ vecHead s core.toNat g.toNat = some d ∧ (vecTurn s core.toNat g.toNat).1 = true ∧
  (isUpdate d = true → vecStalled s core.toNat d = false)

/-! ## Grain cores (R213-R222) -/

/-- Grain core g runs, no trap is due, and its program counter is at the legal word w. -/
abbrev AtWord (s : State) (c g w : Nat) : Prop :=
  grainRuns s c g = true ∧ trapDue (grainOf (coreOf s c) g) = false ∧ (grainOf (coreOf s c) g).pc < progWords ∧
  fetchWord (grainOf (coreOf s c) g) (grainOf (coreOf s c) g).pc = w ∧ legalWord (grainOf (coreOf s c) g) w = true
/-- Register Xr of grain core g. -/
def reg (s : State) (c g r : Nat) : W64 := xget (grainOf (coreOf s c) g) r
/-- XD took a value (X0 discards it) and the program counter went on; nothing else in the device changed (R213, R214). -/
def Wrote (s t : State) (c g w : Nat) (v : W64) : Prop :=
  reg t c g (iD w) = (if iD w = 0 then 0 else v) ∧ (∀ r, r ≠ iD w → reg t c g r = reg s c g r) ∧
  (grainOf (coreOf t c) g).pc = (grainOf (coreOf s c) g).pc + 1 ∧
  t = modGrain c g (fun x => { x with regs := (grainOf (coreOf t c) g).regs, pc := x.pc + 1, waiting := .none }) s

/-! ## Tile movers and memory (chapter 8) -/

/-- Tile mover m of core c runs r, which is accepted and has tiles to move. -/
abbrev Moving (s : State) (c m : Nat) (r : MovRun) : Prop :=
  coreLive s c = true ∧ (moverOf s c m).run = some r ∧ r.status = none ∧ r.waitAdm = none ∧ r.waitAcc = false ∧ r.done < tCount r.desc
/-- A tile's header and payload stand at an address, and every other byte is as before. -/
def TileWritten (s t : State) (a : Nat) (hb : Hdr × Bytes) : Prop :=
  (∀ i < 64, mget t.mem (a + i) = (hBytes hb.1).getD i 0) ∧ (∀ i < hb.2.length, mget t.mem (a + 64 + i) = hb.2.getD i 0) ∧
  ∀ b, b < a ∨ a + 64 + hb.2.length ≤ b → mget t.mem b = mget s.mem b
/-- The n bytes from a lie in an operand cache and in no slot that a running descriptor retains (R124, R252). -/
abbrev CacheSlot (s : State) (a n : Nat) : Prop := isAlias a = true ∧ isAlias (a + n - 1) = true ∧ ocRetained s a n = false
/-- A tile at a virtual address, as a unit of context x reads it. -/
def tileSeen (s : State) (x va : Nat) : Mem := mwrite [] 0 (hBytes (moverHdr s x va) ++ (readTile s x va (moverHdr s x va)).1)
/-- A dense tile that a tile mover can use: its checks pass, it holds elements, and no line of it is poisoned (R85, R94). -/
abbrev UsableTile (s : State) (x va : Nat) : Prop :=
  hdrCheckUse none carriedFormat (moverHdr s x va) = none ∧ hPois (moverHdr s x va) = false ∧ hNone (moverHdr s x va) = false ∧
  hEmpty (moverHdr s x va) = false ∧ hSparse (moverHdr s x va) = false ∧ poisonV s x va (64 + hPayload (moverHdr s x va)) = false ∧
  payloadOk (tileSeen s x va) 0 (moverHdr s x va) = true
/-- The index of an INT32 index tile at a column (R251). -/
def indexAt (s : State) (x va col : Nat) : Int := signed 32 ((elemCode (tileSeen s x va) 0 (moverHdr s x va) 0 col).getD 0)
/-- No snapshot copies the line's partition (R386). -/
abbrev NoSnapshot (s : State) (a : Nat) : Prop := ∀ p, partOfSlice s (sliceOf a) = some p → (partOf s p).snap.state ≠ .copying
/-- A sealed line's group takes a write at once (R242-R244). -/
abbrev CounterOpen (s : State) (a : Nat) : Prop :=
  sealedAt s a = true → (ctrGroup s (a / 4096)).busy = false ∧ (ctrGroup s (a / 4096)).shut = false ∧ minorOf (ctrGroup s (a / 4096)) a < 127
/-- The n bytes from a virtual address of context x are lines of one granule of HBM, which take two writes each at once (R230, R242, R243). -/
abbrev HbmSlot (s : State) (x va n : Nat) : Prop :=
  va % 2 ^ 21 + n ≤ 2 ^ 21 ∧ translate s x va % 64 = 0 ∧ ocRetained s va n = false ∧ busyLines s x va n = 0 ∧ NoSnapshot s (translate s x va) ∧
  ∀ a, translate s x va ≤ a → a < translate s x va + n → isAlias a = false ∧ isHbm s a = true ∧ isMeta s a = false ∧
    (sealedAt s a = true → (ctrGroup s (a / 4096)).busy = false ∧ (ctrGroup s (a / 4096)).shut = false ∧ minorOf (ctrGroup s (a / 4096)) a < 126)
/-- The line holds d, is not poisoned, and every other byte is as before. -/
def LineWritten (s t : State) (a : Nat) (d : BitVec 512) : Prop :=
  lineData t a = d ∧ poisoned t a = false ∧ ∀ b, b < a ∨ a + 64 ≤ b → mget t.mem b = mget s.mem b

/-! ## Links and paths (chapter 9) -/

/-- A change that concerns link l: every other link, all memory, every core, context, partition, path, session and fuse, the
configuration and non-volatile memory are as before. -/
def LinkOnly (s t : State) (l : Nat) : Prop :=
  t.mem = s.mem ∧ t.hbm = s.hbm ∧ t.cores = s.cores ∧ t.ctxs = s.ctxs ∧ t.parts = s.parts ∧ t.paths = s.paths ∧ t.sess = s.sess ∧
  t.fuses = s.fuses ∧ t.cfg = s.cfg ∧ t.nvm = s.nvm ∧ t.pkg = s.pkg ∧ ∀ j, j ≠ l → linkOf t j = linkOf s j
/-- The link has entered a state with a cause, and its LINK_STATE is reported (R263, R323). -/
def LinkMoved (s t : State) (l : Nat) (st : LinkState) (cause : Nat) : Prop :=
  linkSt t l = st ∧ (linkOf t l).cause = BitVec.ofNat 8 cause ∧ Emit.linkState l (linkCode st) ∈ t.out ∧ LinkOnly s t l
/-- The link has gone to DOWN: its keys, queues and counters are gone, and its retry waits (R264, R265, R268). -/
def LinkFell (s t : State) (l cause : Nat) : Prop :=
  LinkMoved s t l .down cause ∧ keyOf t (0x120 + 2 * l) = [] ∧ keyOf t (0x121 + 2 * l) = [] ∧ (linkOf t l).ctrlQ = [] ∧
  (linkOf t l).unacked = [] ∧ (linkOf t l).creds = [] ∧ (linkOf t l).retryOk = false ∧ (linkOf t l).wait = natMin 60 (2 * (linkOf s l).wait)
/-- The link has left UP: it is FENCED, its hop keys are zeroised and its queues are empty (R265). -/
def Fenced (t : State) (l cause : Nat) : Prop :=
  (linkOf t l).state = .fenced ∧ (linkOf t l).cause = BitVec.ofNat 8 cause ∧ keyOf t (0x120 + 2 * l) = [] ∧ keyOf t (0x121 + 2 * l) = [] ∧
  (linkOf t l).ctrlQ = [] ∧ (linkOf t l).retrQ = [] ∧ (linkOf t l).bndQ = [] ∧ (linkOf t l).unbQ = [] ∧ Emit.linkState l 6 ∈ t.out
/-- A frame of a type and class that passes the hop check arrives on an UP link (R271, R272). -/
abbrev Arrives (s : State) (l : Nat) (f : Frame) (ty cls : Nat) : Prop :=
  linkUp s l = true ∧ hopOk s l f = true ∧ fType f.hdr = ty ∧ fClass f.hdr = cls
/-- The state once a control frame has been taken. -/
def frameTaken (s : State) (l : Nat) (f : Frame) : State := setLink s l { linkOf s l with hopFail := 0, rxTxc := f.txc }
/-- The plaintext of a DATA frame under the key of the path it arrives on (R272, R273); none where its tag fails. -/
def opened (s : State) (key : Nat) (f : Frame) : Option Bytes :=
  let slot := keyOf s ((pathOf s key).slot + 1)
  Config.gcmOpen (slot.take 32) (slice slot 32 4 ++ bytesBE 8 (fPathSeq f.hdr)) (pathAad f.hdr) f.payload f.ptag
/-- The last control frame that waits on a link. -/
def lastCtrl (s : State) (l : Nat) : Option Frame := (linkOf s l).ctrlQ.getLast?.map (·.f)

/-! ## Answers (R311) and the state of tenants (chapters 10 to 13) -/

/-- The request's answer is the last thing that left the device (R311); a full window of 1,024 (R303), a pause of its priority (R296) or
datagrams held in front would hold a part of it back. Pause and size are those of the settings before and behind it. -/
def Answered (s t : State) (r : Req) (op : Nat) (st : Status) (earliest : Nat) (body : Bytes) : Prop :=
  let e := Emit.response r.port r.sess (BitVec.ofNat 16 (op + 0x8000)) r.tag st r.ctx r.gen r.part earliest body
  ctrlPaused s r.sess = false → ctrlPaused t r.sess = false → (sessOf s r.sess).txHold = [] →
  (sessOf s r.sess).unacked.length + natMax (datagramsOf s r.sess .plain e).length (datagramsOf t r.sess .plain e).length ≤ 1024 → t.out.getLast? = some e
/-- A HELLO has gone out of a port, or waits behind the pause of its priority (R296); nothing else has changed. -/
def Said (s t : State) (port : Port) (kind : Byte) (p : Bytes) : Prop :=
  ((port = .mgmt ∨ (classPaused s 1 = false ∧ s.host.replies = [])) → t.out = s.out ++ [.hello port kind p] ∧ t.host.replies = s.host.replies) ∧
  (port = .host → (classPaused s 1 = true ∨ s.host.replies ≠ []) → t.out = s.out ∧ t.host.replies = s.host.replies ++ [.hello port kind p])
/-- A message of n bytes goes out of a session at once, whole: the session is open on a port that is, nothing waits in front, and its window,
its sequence numbers, its datagrams and its peer's pause allow it (R296, R303, R304, R311). -/
abbrev SendsNow (s : State) (n len : Nat) : Prop :=
  (sessOf s n).phase = .opened ∧ portOpen s (sessOf s n).port = true ∧ (sessOf s n).unacked.length < 1024 ∧ (sessOf s n).txHold = [] ∧
  ctrlPaused s n = false ∧ (sessOf s n).txSeq < 2 ^ 47 ∧ 0 < payloadMax s (sessOf s n) ∧ len ≤ payloadMax s (sessOf s n)
/-- None of the checks fails. -/
abbrev AllPass (l : List Check) : Prop := ∀ k ∈ l, k.fails = false
/-- The request names a context of its partition, which takes requests of the usual kind (R338). -/
abbrev Usable (s : State) (r : Req) : Prop := NamesContext s r ∧ ctxUsual (ctxOf s r.ctx.toNat).state = none
/-- A request of the fabric manager about partition p, enabled and under its ACTIVE charter (R371, R379). -/
abbrev UnderCharter (s : State) (r : Req) (body : Bytes) (len p : Nat) (ch : Charter) : Prop :=
  Served s r .f ∧ HasLength r body len ∧ be body 0 1 = p ∧ p < 16 ∧ pEnabled s p = true ∧ activeCharter s p = some ch
/-- The six checkpoint opcodes (R379). -/
def CkptOp (i : Req → Bytes → Instr) (op : Nat) : Prop :=
  (i, op) ∈ [(Instr.ckptCut, 0x0120), (Instr.ckptStatus, 0x0121), (Instr.ckptStored, 0x0122), (Instr.ckptAbandon, 0x0123),
   (Instr.ckptManifestLoad, 0x0124), (Instr.ckptRestoreOpen, 0x0125)]
/-- The ranges that a cut lists. -/
abbrev cutRanges (body : Bytes) : List CkRange := rangesOf body 40 (be body 36 1)
/-- The fields and lengths of a checkpoint request are in order (R379, R381, R397): no check before the claims refuses it. -/
abbrev CkptFormed (s : State) (r : Req) (body : Bytes) (op : Nat) : Prop :=
  (op = 0x0120 → HasLength r body (40 + 16 * be body 36 1) ∧ (sessOf s (be body 28 4)).phase = .opened ∧
    isFabric (sessOf s (be body 28 4)) = true ∧ be body 1 1 = 0 ∧ be body 6 2 = 0 ∧ be body 37 3 = 0 ∧ be body 2 2 < be body 4 2 ∧
    be body 4 2 ≤ 4096 ∧ be body 36 1 ≤ 64 ∧ be body 32 4 ≠ 0xFFFFFFFF ∧
    (∀ x ∈ cutRanges body, crBase x < 2 ^ 48 ∧ (crWidth x = 1 ∨ crWidth x = 2 ∨ crWidth x = 4 ∨ crWidth x = 16) ∧ crSlot x ≠ 0 ∧
      x.2.1 ≠ 0 ∧ x.2.1 ≠ 0xFFFFFFFF) ∧ noneMeet ((cutRanges body).map (fun x => (crBase x, crLen x))) = true) ∧
  (op = 0x0121 ∨ op = 0x0123 → HasLength r body 1) ∧ (op = 0x0122 → HasLength r body 13) ∧
  (op = 0x0124 → 12 ≤ body.length ∧ r.bodyLen.toNat = body.length ∧ be body 1 1 ≤ 1 ∧ be body 2 2 = 0 ∧ body.length ≤ 65500 ∧
    be body 4 8 + (body.length - 12) ≤ 1917040 ∧ (be body 4 8 ≠ 0 →
      (partOf s (be body 0 1)).rest.whole = false ∧ be body 4 8 = (partOf s (be body 0 1)).rest.manifest.length)) ∧
  (op = 0x0125 → HasLength r body 17 ∧ be body 1 1 ≤ 1 ∧ be body 4 1 = 0 ∧ nbit (be body 5 4) 31 = false)
/-- No context of the partition fences or is fenced (R377). -/
abbrev Deciding (s : State) (p : Nat) : Prop := ∀ c ∈ ctxsOf s p, ctxUsual (ctxOf s c).state = none
/-- Every grain core that runs in the partition's one context has the gate word in its inbox, where there is room (R372). -/
def Gated (s t : State) (p kind e : Nat) : Prop :=
  ∀ c, ctxsOf s p = [c] → ∀ i < 32, (coreOf s i).ctx = some c → ∀ g, (grainOf (coreOf s i) g).started = true →
    (grainOf (coreOf s i) g).stopped = false → (grainOf (coreOf s i) g).inbox.length < 4 →
    (grainOf (coreOf t i) g).inbox = (grainOf (coreOf s i) g).inbox ++ [(BitVec.ofNat 64 (kind * 2 ^ 56 + e % 2 ^ 32), 0)]
/-- The KEY_SHARE requests of one kind reach the charter: its partition does not reset (R359, R377). -/
abbrev Sharing (s : State) (r : Req) (body : Bytes) (kind len : Nat) (ch : Charter) : Prop :=
  Served s r .t ∧ HasLength r body len ∧ be body 0 1 = kind ∧ (partOf s r.part.toNat).state ≠ .resetting ∧
  (partOf s r.part.toNat).charter = some ch

/-! ## Orders that every step keeps -/

/-- The burnt part of a lifecycle state: PROD_DEBUG is the volatile state above PROD (R68). -/
def lifecycleRank : Lifecycle → Nat
  | .blank => 0 | .dev => 1 | .prod => 2 | .prodDebug => 2 | .retired => 3
/-- A device has its fused secret exactly from its provisioning on, and at most 64 owner epochs burnt (R62, R68, R412). -/
def FuseInv (s : State) : Prop := (s.fuses.lifecycle = .blank ↔ s.fuses.secret = none) ∧ s.fuses.ownerEpoch ≤ 64

end Sys2Proof.Machine

/-! ## Numbers -/

/-- The value of a finite number: its sign, numerator, denominator and exponent of two (R99). -/
def ratOf (neg : Bool) (num den : Nat) (exp : Int) : Rat := (if neg then -1 else 1) * ((num : Rat) / den) * 2 ^ exp
/-- Rounded to the nearest integer, a half away from zero (R114). -/
def halfAway (x : Rat) : Int := if x < 0 then -(-x + 1 / 2).floor else (x + 1 / 2).floor
end

