-- ==== Sys2Proof/Certificates/Slice0/Obligations.lean ====
section
/-! DEFINITION. The statements about the device, from the numbered rules of its manual: each has the rules it follows in its
comment. -/

open Sys2Proof Sys2Proof.Machine

/-! ## Package, power, boot (chapters 1 and 2) -/

/-- R11, R23, R30, R32, R33, R40: VIN valid begins the timed power-up, with the time base at zero and nothing in the key store; good
rails, PWRGOOD and RESET_N together start the boot ROM, and without one of them it does not start; RESET_N low for 2 µs stops it and wipes what it
built; a latched device is released by TRIP_LATCH_RELEASE, and neither VIN nor PWRGOOD brings it up before. The rails are up in their fixed order; while a trip sequence of at most 1 ms runs,
RESET_N and PWRGOOD are ignored. (That REFCLK_SYS is present where power is restored is log entry 16.)
Commands that it says complete: vinValid, railsGood, pwrgoodAssert, resetNAssert, resetNRelease, powerFail, powerRestored, tripLatchRelease. -/
def Obligations.PowerUpSequence : Prop :=
  (∀ (s : State) (mv : Nat), s.pkg.supply = .off ∨ s.pkg.supply = .failed → 11400 ≤ mv → mv ≤ 14000 →
    Completes (.vinValid mv) s (fun t =>
      t.pkg.supply = .rising ∧ t.pkg.vinMv = mv ∧ t.pkg.xspiResetN = false ∧ t.boot.phase = .stopped ∧ t.time.base = 0 ∧
      t.keys = [] ∧ t.mem = [] ∧ (∀ n, tget 0 t.mrs.mr n = 0) ∧ t.ledger = s.nvm.ledger ∧ t.fuses.svn = s.fuses.svn ∧
      t.fuses.secret = s.fuses.secret ∧ t.nvm.flash = s.nvm.flash ∧ t.nvm.title = s.nvm.title)) ∧
  (∀ s : State, s.pkg.supply = .rising → s.pkg.pwrgood = false ∨ s.pkg.resetN = false →
    exec .railsGood s = .next (setPkg s { s.pkg with supply := .on, rails := [.morion, .hostFurlong, .hbm, .almandine] })) ∧
  (∀ s : State, s.pkg.supply = .rising → s.pkg.pwrgood = true → s.pkg.resetN = true → s.boot.phase = .stopped →
    Completes .railsGood s (RomStarted s)) ∧
  (∀ (s : State) (p : BootPins), s.pkg.supply = .rising →
    exec (.pwrgoodAssert p) s = .next (setPkg s { s.pkg with pwrgood := true, refclk := 0xF, clkLost := 0, bootsel := p.sel,
                                                             xspiErrA := p.errA, xspiErrB := p.errB, trstN := p.trstN })) ∧
  (∀ (s : State) (p : BootPins), s.pkg.supply = .on → s.pkg.resetN = true → s.boot.phase = .stopped →
    Completes (.pwrgoodAssert p) s (fun t => RomStarted s t ∧ t.pkg.pwrgood = true ∧ t.pkg.bootsel = p.sel)) ∧
  (∀ (s : State) (p : BootPins), s.pkg.supply = .on → s.pkg.pwrgood = true → s.boot.phase = .stopped →
    Completes (.resetNRelease p) s (fun t => RomStarted s t ∧ t.pkg.resetN = true ∧ t.pkg.bootsel = p.sel)) ∧
  (∀ (s : State) (p : BootPins), s.pkg.supply = .failed → s.pkg.resetN = true → s.boot.phase = .stopped →
    Completes (.powerRestored p) s (fun t => RomStarted s t ∧ t.pkg.pwrgood = true ∧ t.pkg.bootsel = p.sel)) ∧
  (∀ (s : State) (p : BootPins) (ns : Nat), s.pkg.supply = .tripped → now s < s.pkg.tripAt + 1000000 →
    exec (.pwrgoodAssert p) s = .next s ∧ exec (.resetNRelease p) s = .next s ∧ exec (.resetNAssert ns) s = .next s ∧
    exec (.powerFail .pwrgoodFell) s = .next s) ∧
  (∀ s : State, s.pkg.supply = .tripped →
    exec .tripLatchRelease s =
      .next (setPkg s { s.pkg with supply := .off, thermtrip := false, alertLatch := false, alertCause := 0, vinMv := 0, iinMa := 0 })) ∧
  (∀ (s : State) (p : BootPins) (mv : Nat), s.pkg.supply = .tripped → mv ≤ 14000 →
    exec (.vinValid mv) s = .next s ∧ exec .railsGood s = .next s ∧ exec (.powerRestored p) s = .next s) ∧
  (∀ (s : State) (p : BootPins), s.pkg.supply = .on → s.pkg.resetN = false → s.boot.phase = .stopped →
    Completes (.pwrgoodAssert p) s (fun t => t.boot = s.boot ∧ t.pkg.resetN = false)) ∧
  (∀ (s : State) (p : BootPins), s.pkg.supply = .on → s.pkg.pwrgood = false → s.boot.phase = .stopped →
    Completes (.resetNRelease p) s (fun t => t.boot = s.boot ∧ t.pkg.resetN = true)) ∧
  (∀ (s : State) (ns : Nat), s.pkg.supply = .on → 2000 ≤ ns → Completes (.resetNAssert ns) s (fun t =>
    t.boot.phase = .stopped ∧ t.pkg.resetN = false ∧ t.pkg.supply = .on ∧ t.keys = [] ∧ t.mem = [] ∧ t.cores = [] ∧ t.time = s.time ∧
    t.ledger = s.ledger))

/-- R32, R57: RESET_N held low for 2 µs is a device reset: keys, measurement registers, HBM contents, caches, contexts, partitions,
sessions, links, paths and transfers are gone, the shadow set is empty, PROD_DEBUG falls back to PROD; the time base, the service
ledger, the title and every other fuse are kept. A shorter pulse changes nothing.
Commands that it says complete: resetNAssert. -/
def Obligations.DeviceResetDestroysAndKeeps : Prop :=
  (∀ (s : State) (ns : Nat), s.pkg.supply = .on → 2000 ≤ ns →
    Completes (.resetNAssert ns) s (fun t =>
      t.keys = [] ∧ (∀ n, tget 0 t.mrs.mr n = 0 ∧ tget 0 t.mrs.count n = 0) ∧ t.mem = [] ∧ t.hbm.poison = [] ∧ t.cores = [] ∧
      (∀ c, (ctxOf t c).state = .free ∧ (ctxOf t c).gen = 0) ∧ (∀ p, (partOf t p).state = .unused) ∧
      (∀ l, (linkOf t l).state = .down) ∧ (∀ n, (sessOf t n).phase = .closed) ∧ t.bulk = [] ∧ t.cfg.shadow = [] ∧
      t.boot.phase = .stopped ∧ t.pkg.resetN = false ∧ t.pkg.supply = .on ∧ t.time = s.time ∧ t.ledger = s.ledger ∧ t.nvm.title = s.nvm.title ∧
      t.nvm.flash = s.nvm.flash ∧ t.fuses.lifecycle = (if s.fuses.lifecycle = .prodDebug then .prod else s.fuses.lifecycle) ∧
      t.fuses.svn = s.fuses.svn ∧ t.fuses.ownerEpoch = s.fuses.ownerEpoch ∧ t.fuses.secret = s.fuses.secret)) ∧
  (∀ (s : State) (ns : Nat), ns < 2000 → exec (.resetNAssert ns) s = .next s)

/-- R50, R51, R54: With a flash source selected, the boot ROM takes the selected slot where every check of R54 passes; otherwise it extends MR0
with that slot's failure and tries the other; where that fails too it extends MR0 again and enters BOOT_HALT. BOOTSEL 11 enters BOOT_HALT at
once, 10 waits for the host port. MR0 is extended with the ROM identity, the fuse summary and the source first. The order of the seven
checks of a flash slot, each with its cause code, where the slot's manifest is malformed, its key is rejected, its security version rolls
back, or the flash cannot be read.
Commands that it says complete: pwrgoodAssert. -/
def Obligations.BootSlots : Prop :=
  ((∀ (s : State) (p : BootPins), s.pkg.supply = .on → s.pkg.resetN = true → s.boot.phase = .stopped →
    tget 0 s.mrs.count 0 = 0 → p.sel.toNat < 2 →
    Completes (.pwrgoodAssert p) s (fun t =>
      let a := p.sel.toNat
      let first := slotCheck (coSampled s) a (if a = 0 then p.errA else p.errB)
      let second := slotCheck (coSampled s) (1 - a) (if a = 0 then p.errB else p.errA)
      let begun := romMeasured s a
      let failed := mrNext begun 4 [BitVec.ofNat 8 a, BitVec.ofNat 8 first]
      (first = 0 → t.boot.phase = .checked ∧ t.boot.source.toNat = a ∧ t.boot.fallback = false ∧ tget 0 t.mrs.count 0 = 3 ∧
        tget 0 t.mrs.mr 0 = begun ∧ t.boot.manifest = manifestOf s a) ∧
      (first ≠ 0 → second = 0 → t.boot.phase = .checked ∧ t.boot.source.toNat = 1 - a ∧ t.boot.fallback = true ∧
        tget 0 t.mrs.count 0 = 4 ∧ tget 0 t.mrs.mr 0 = failed ∧ t.boot.manifest = manifestOf s (1 - a)) ∧
      (first ≠ 0 → second ≠ 0 → t.boot.phase = .halted ∧ t.boot.source = 0xFF ∧ tget 0 t.mrs.count 0 = 5 ∧
        tget 0 t.mrs.mr 0 = mrNext failed 4 [BitVec.ofNat 8 (1 - a), BitVec.ofNat 8 second] ∧ t.boot.manifest = []))) ∧
  (∀ (s : State) (p : BootPins), s.pkg.supply = .on → s.pkg.resetN = true → s.boot.phase = .stopped →
    tget 0 s.mrs.count 0 = 0 → 2 ≤ p.sel.toNat →
    Completes (.pwrgoodAssert p) s (fun t =>
      t.boot.phase = (if p.sel = 2 then .hostBoot else .halted) ∧ tget 0 t.mrs.count 0 = 3 ∧
      tget 0 t.mrs.mr 0 = romMeasured s (if p.sel = 2 then 2 else 0xFF) ∧ t.boot.manifest = [] ∧
      (p.sel = 3 → ∀ fl, exec (.pwrgoodAssert p) { s with nvm := { s.nvm with flash := fl } } =
        .next { t with nvm := { t.nvm with flash := fl } })))) ∧
  ((∀ (s : State) (a : Nat), slotCheck s a true = 0x07) ∧
  (∀ (s : State) (a : Nat), mfWellFormed (manifestOf s a) = false → slotCheck s a false = 0x01) ∧
  (∀ (s : State) (a : Nat), mfWellFormed (manifestOf s a) = true → bit s.fuses.revoked (mfKeyIndex (manifestOf s a)) = true →
    slotCheck s a false = 0x02) ∧
  (∀ (s : State) (a : Nat), mfSvn (manifestOf s a) < s.fuses.svn → slotCheck s a false ≠ 0 ∧ slotCheck s a false ≤ 0x05) ∧
  (∀ (s : State) (a : Nat), let m := manifestOf s a
    mfWellFormed m = true → bit s.fuses.revoked (mfKeyIndex m) = false → s.boot.coRule = false → mfCosign m = false → mfSvn m < s.fuses.svn →
    slotCheck s a false = (if Config.sha512 (srcRead s a 0 133) ≠ tget 0 s.fuses.vendorKeys (mfKeyIndex m) then 0x02
      else if Config.ecdsaVerify (srcRead s a 0 133) (slice m 0 0x520) (slice m 0x520 132) = true then 0x05 else 0x03)) ∧
  (∀ m : Bytes, mfWellFormed m = true → mfNum m 0 4 = 0x4B5A464D ∧ mfNum m 4 2 = 1 ∧ 1 ≤ mfCount m ∧ mfCount m ≤ 16 ∧
    mfSvn m ≤ 64 ∧ mfLength m ≤ 0x04000000 ∧
    (∀ i < mfCount m, 1 ≤ compType m i ∧ compType m i ≤ 5 ∧ 0x1000 ≤ compOff m i ∧ compOff m i + compLen m i ≤ mfLength m) ∧
    (∀ i j, i < mfCount m → j < mfCount m → i ≠ j → compType m i ≠ compType m j ∧
      (compOff m i + compLen m i ≤ compOff m j ∨ compOff m j + compLen m j ≤ compOff m i)) ∧
    (∃ i < mfCount m, compType m i = 1)))

/-- R60, R61: Every extend follows the rule; a register at its count limit does not change. The device refuses with DENIED a firmware extend of
MR0-MR5 or MR7, and changes nothing.
Commands that it says complete: mrExtend. -/
def Obligations.MeasurementExtend : Prop :=
  ((∀ (s : State) (n : Nat) (ty : W32) (data : Bytes), tget 0 s.mrs.count n ≠ 0xFFFFFFFF →
    tget 0 (mrExtend n ty data s).mrs.mr n =
      Config.sha512 (digestBytes (tget 0 s.mrs.mr n) ++ digestBytes (Config.sha512 (bytesBE 4 ty.toNat ++ data))) ∧
    tget 0 (mrExtend n ty data s).mrs.count n = tget 0 s.mrs.count n + 1 ∧
    (∀ j, j ≠ n → tget 0 (mrExtend n ty data s).mrs.mr j = tget 0 s.mrs.mr j ∧
      tget 0 (mrExtend n ty data s).mrs.count j = tget 0 s.mrs.count j) ∧
    mrExtend n ty data s = { s with mrs := (mrExtend n ty data s).mrs }) ∧
  (∀ (s : State) (n : Nat) (ty : W32) (data : Bytes), tget 0 s.mrs.count n = 0xFFFFFFFF → mrExtend n ty data s = s) ∧
  (∀ (s : State) (ty : W32) (data : Bytes), fwRuns s = true → tget 0 s.mrs.count 6 ≠ 0xFFFFFFFF →
    exec (.mrExtend 6 ty data) s = .next (emit (mrExtend 6 ty data s) (.fwStatus .ok))) ∧
  (∀ (s : State) (ty : W32) (data : Bytes), fwRuns s = true → tget 0 s.mrs.count 6 = 0xFFFFFFFF →
    exec (.mrExtend 6 ty data) s = .next (emit s (.fwStatus .denied)))) ∧
  (∀ (s : State) (n : BitVec 3) (ty : W32) (data : Bytes), fwRuns s = true → n ≠ 6 →
    exec (.mrExtend n ty data) s = .next (emit s (.fwStatus .denied)))

/-- R46, R47, R49, R59, R62: the firmware starts with the keys derived from the fused secret and the committed set in force; both ports then answer; a
stack trains or fails its attempt, and the third failure takes it out of service; with every stack trained or out the device
announces READY and sends DEVICE_READY.
Commands that it says complete: firmwareStart, portsUp, hbmTrainingComplete, deviceReady. -/
def Obligations.StartToReady : Prop :=
  (∀ s : State, s.boot.phase = .checked → Completes .firmwareStart s (fun t =>
    t.boot.phase = .firmware ∧ t.boot.manifest = s.boot.manifest ∧ t.mem = s.mem ∧ t.ctxs = s.ctxs ∧ t.sess = s.sess ∧
    t.links = s.links ∧ (∀ m, s.nvm.committed = some m → t.cfg.active = m) ∧ t.fuses = s.fuses ∧
    (s.fuses.secret ≠ none → s.nvm.pendTitle = none →
      let from_ (salt : String) (info : Bytes) : Bytes := padTo 80 (Config.hkdf (ascii salt) (secretBytes s) info 80)
      keyOf t slotIdentity = extraBitsKey (from_ "KAZBA-IDENTITY" (serialBytes s)) ∧
      keyOf t slotMgmt = extraBitsKey (from_ "KAZBA-MGMT" (serialBytes s ++ bytesBE 1 s.fuses.ownerEpoch ++ digestBytes s.nvm.title.holder)) ∧
      keyOf t slotTitle = from_ "KAZBA-TITLE" (serialBytes s ++ bytesBE 1 s.fuses.ownerEpoch)))) ∧
  (∀ s : State, s.boot.phase = .firmware → exec .portsUp s = .next (setBoot s { s.boot with phase := .ports })) ∧
  (∀ (s : State) (k : BitVec 4), k.toNat < 12 → s.boot.phase = .ports → bit s.boot.trained k.toNat = false →
    bit s.boot.outStacks k.toNat = false →
    exec (.hbmTrainingComplete k true) s = .next (setBoot s { s.boot with trained := setBit s.boot.trained k.toNat true })) ∧
  (∀ (s : State) (k : BitVec 4), k.toNat < 12 → s.boot.phase = .ports → bit s.boot.trained k.toNat = false →
    bit s.boot.outStacks k.toNat = false →
    Completes (.hbmTrainingComplete k false) s (fun t =>
      tget 0 t.boot.attempts k.toNat = tget 0 s.boot.attempts k.toNat + 1 ∧ t.boot.trained = s.boot.trained ∧ t.fuses = s.fuses ∧
      t.mem = s.mem ∧ t.boot.outStacks =
        (if 3 ≤ tget 0 s.boot.attempts k.toNat + 1 then setBit s.boot.outStacks k.toNat true else s.boot.outStacks))) ∧
  (∀ s : State, s.boot.phase = .ports → s.boot.trained ||| s.boot.outStacks = 0xFFF → s.pkg.supply = .on → (∀ n, (sessOf s n).txSeq < 2 ^ 47) →
    Completes .deviceReady s (fun t =>
      t.boot.phase = .ready ∧ bit (statusReg t) 15 = true ∧ t.boot.trained = s.boot.trained ∧ t.fuses = s.fuses ∧ t.mem = s.mem ∧
      (s.devQueue.items.length < 4096 → ∃ e, e.code = 0x0001 ∧ t.devQueue.items = s.devQueue.items ++ [(e, false, [])])))

/-- R27, R48, R51, R56, R310: Host-port boot, which waits while REFCLK_HP is lost: the other attachment is tried, offers carry the serial, MR0
and 64 MiB, bytes of the first sender are kept and acknowledged with the end of the contiguous run, an image that is complete is checked and
boots or ends in BOOT_HALT, nothing is offered or taken while the link is down, and after 30 s the boot halts with FLASH_READ (that the
cause stands in slot A's byte is the model's choice, log entry 115). In BOOT_HALT the responder answers ROM_STATUS with both causes and MR0,
and a request for a report with the report, and writes an image into one slot, unchecked, exactly where the operator's certificate chains to
the operator root and its signature verifies; every request validated by R15 it refuses with NOT_READY, four of them named.
Commands that it says complete: hostBootAttachTimeout, bootOfferTimer, bootData, hostBootTimeout, romStatus, recoveryWrite, attestRequest,
configWrite, faultLogRead, linkUnretire, ledgerExport. -/
def Obligations.HostPortBootAndHalt : Prop :=
  ((∀ s : State, s.boot.phase = .hostBoot → bit s.pkg.refclk 2 = true → s.host.up = false →
    exec .hostBootAttachTimeout s = .next (setBoot s { s.boot with attach := s.boot.attach + 1 })) ∧
  (∀ s : State, s.boot.phase = .hostBoot → bit s.pkg.refclk 2 = true → s.host.up = true →
    exec .bootOfferTimer s =
      .next (emit s (.hello .host 0x10 (bytesBE 8 s.fuses.serial.toNat ++ digestBytes (tget 0 s.mrs.mr 0) ++ bytesBE 4 0x04000000)))) ∧
  (∀ (s : State) (sender : Nat) (payload : Bytes), s.boot.phase = .hostBoot → bit s.pkg.refclk 2 = true → s.host.up = true → 6 ≤ payload.length →
    payload.length - 6 = be payload 4 2 → be payload 4 2 ≤ 8192 → be payload 0 4 + be payload 4 2 ≤ 0x04000000 →
    s.boot.sender = none ∨ s.boot.sender = some sender →
    (let l := s.boot.recvd ++ [(be payload 0 4, be payload 4 2)]; contiguous l l.length 0 < 0x214) →
    Completes (.bootData sender payload) s (fun t =>
      let l := s.boot.recvd ++ [(be payload 0 4, be payload 4 2)]
      t.boot.sender = some sender ∧ t.boot.image = mwrite s.boot.image (be payload 0 4) (payload.drop 6) ∧ t.boot.phase = .hostBoot ∧
      t.out = s.out ++ [.hello .host 0x12 (bytesBE 4 (contiguous l l.length 0))] ∧
      t = { s with boot := t.boot, out := t.out })) ∧
  (∀ (s : State) (sender : Nat) (payload : Bytes), s.boot.phase = .hostBoot → bit s.pkg.refclk 2 = true → s.host.up = true → 6 ≤ payload.length →
    payload.length - 6 = be payload 4 2 → be payload 4 2 ≤ 8192 → be payload 0 4 + be payload 4 2 ≤ 0x04000000 →
    s.boot.sender = none ∨ s.boot.sender = some sender →
    (let l := s.boot.recvd ++ [(be payload 0 4, be payload 4 2)]
     let e := contiguous l l.length 0
     let u := setBoot s { s.boot with image := mwrite s.boot.image (be payload 0 4) (payload.drop 6) }
     0x214 ≤ e → srcNum u 2 0x210 4 ≤ e → Completes (.bootData sender payload) s (fun t =>
       t.out = s.out ++ [.hello .host 0x12 (bytesBE 4 e)] ∧ t.fuses = s.fuses ∧ t.nvm = s.nvm ∧ t.mem = s.mem ∧
       (slotCheck u 2 false = 0 → t.boot.phase = .checked ∧ t.boot.source = 2 ∧ t.boot.manifest = manifestOf u 2 ∧ t.mrs = s.mrs) ∧
       (slotCheck u 2 false ≠ 0 → t.boot.phase = .halted ∧ t.boot.source = 0xFF ∧ t.boot.causeA = BitVec.ofNat 8 (slotCheck u 2 false))))) ∧
  (∀ (s : State) (sender : Nat) (payload : Bytes), s.host.up = false → exec .bootOfferTimer s = .next s ∧ exec (.bootData sender payload) s = .next s) ∧
  (∀ s : State, s.boot.phase = .hostBoot → bit s.pkg.refclk 2 = true → Completes .hostBootTimeout s (fun t =>
    t.boot.phase = .halted ∧ t.boot.causeA = 0x07 ∧ t.mgmt.mode = 2 ∧ t.host.up = false ∧ t.fuses = s.fuses ∧ t.nvm = s.nvm ∧
    t.mem = s.mem)) ∧
  (∀ (s : State) (sender : Nat) (payload : Bytes), bit s.pkg.refclk 2 = false → exec .hostBootAttachTimeout s = .next s ∧
    exec .bootOfferTimer s = .next s ∧ exec (.bootData sender payload) s = .next s ∧ exec .hostBootTimeout s = .next s)) ∧
  ((∀ (s : State) (r : Req) (body : Bytes), s.pkg.supply = .on → s.boot.phase = .halted → r.port = .mgmt → HasLength r body 0 →
    exec (.romStatus r body) s = .next (emit s (.response .mgmt r.sess 0x8350 r.tag .ok r.ctx r.gen r.part 0
      ([s.boot.causeA, s.boot.causeB] ++ digestBytes (tget 0 s.mrs.mr 0))))) ∧
  (∀ (s : State) (r : Req) (slot : BitVec 1) (image chain sig : Bytes), s.pkg.supply = .on → s.boot.phase = .halted → r.port = .mgmt →
    image.length ≤ 0x04000000 →
    Completes (.recoveryWrite r slot image chain sig) s (fun t =>
      let granted := ∃ leaf root, Config.certChain chain = some (leaf, root) ∧ Config.sha512 root = s.nvm.title.opRoot ∧
        Config.ecdsaVerify leaf image sig = true
      let base := slot.toNat * 0x04000000
      let written := mwrite (mzero s.nvm.flash base 0x04000000) base (image.map (· ^^^ 0xFF))
      (granted → t = emit { s with nvm := { s.nvm with flash := written } }
        (.response .mgmt r.sess 0x8351 r.tag .ok r.ctx r.gen r.part 0 [])) ∧
      (¬ granted → t = emit s (.response .mgmt r.sess 0x8351 r.tag .denied r.ctx r.gen r.part 0 [])))) ∧
  (∀ (s : State) (r : Req) (body : Bytes), s.pkg.supply = .on → s.boot.phase = .halted → r.port = .mgmt → HasLength r body 64 →
    reportWait s = none →
    exec (.attestRequest r body) s =
      .next (countReport (emit s (.response .mgmt r.sess 0x8001 r.tag .ok r.ctx r.gen r.part 0 (reportReply s body 0xFF))))) ∧
  (∀ (s : State) (r : Req) (body : Bytes) (i : Req → Bytes → Instr) (op : Nat), s.pkg.supply = .on → s.boot.phase = .halted → r.port = .mgmt →
    (i, op) ∈ [(Instr.faultLogRead, 0x0306), (Instr.configWrite, 0x0300), (Instr.linkUnretire, 0x0307), (Instr.ledgerExport, 0x0320)] →
    exec (i r body) s = .next (emit s (.response .mgmt r.sess (BitVec.ofNat 16 (op + 0x8000)) r.tag .notReady r.ctx r.gen r.part 0 []))) ∧
  (∀ (s : State) (i : Instr) (r : Req) (op : Nat) (rt : Rights) (lenOk : Bool) (checks : List Check) (act : State → State), s.pkg.supply = .on →
    s.boot.phase = .halted → r.port = .mgmt →
    arrives i r s (fun s => .next (request s r op rt lenOk checks act)) =
      .next (emit s (.response .mgmt r.sess (BitVec.ofNat 16 (op + 0x8000)) r.tag .notReady r.ctx r.gen r.part 0 []))))

/-! ## Supply, clocks, temperature, sideband lands, test access port (chapters 1 and 2) -/

/-- R27, R33, R34, R40: the power-fail sequence, for each of its causes, leaves no key, commits the ledger and turns the rails off, but where VIN
collapses before the final commit, which leaves the previous record; a lost clock sets REFCLK_LOSS and clears its presence bit: with a link clock every UP link of its die is fenced and every link
that trains or handshakes goes to DOWN, with the host-port clock the port goes down and its sessions close; a clock that returns sets
its presence again; the firmware's
commit makes the counters the record in non-volatile memory.
Commands that it says complete: refclkLoss, refclkRestored, powerFail, ledgerCommit. -/
def Obligations.PowerFailAndClocks : Prop :=
  (∀ s : State, s.pkg.supply = .on ∨ s.pkg.supply = .rising → Completes (.powerFail .vinCollapse) s (fun t =>
    t.pkg.supply = .off ∧ t.keys = [] ∧ t.mem = [] ∧ t.nvm.ledger = s.nvm.ledger ∧ t.pkg.vinMv = 0 ∧ alertLow t = false ∧
    t.fuses.svn = s.fuses.svn ∧ t.nvm.flash = s.nvm.flash ∧ t.boot.phase = .stopped)) ∧
  (∀ (s : State) (c : PowerCause), c ≠ .vinCollapse → s.pkg.supply = .on ∨ s.pkg.supply = .rising →
    Completes (.powerFail c) s (fun t =>
      t.pkg.supply = .failed ∧ t.keys = [] ∧ t.mem = [] ∧ t.nvm.ledger = t.ledger ∧ t.ledger.clean = true ∧
      t.ledger.counters = s.ledger.counters ∧ t.fuses.svn = s.fuses.svn ∧ t.nvm.flash = s.nvm.flash ∧ t.boot.phase = .stopped ∧
      (c = .pwrgoodFell → t.pkg.pwrgood = false) ∧ (c = .refclkSys → bit t.pkg.alertCause 6 = true))) ∧
  (∀ s : State, s.pkg.supply = .on → Completes (.refclkLoss .sys) s (fun t =>
    t.pkg.supply = .failed ∧ t.keys = [] ∧ bit t.pkg.alertCause 6 = true ∧ bit t.pkg.refclk 3 = false)) ∧
  (∀ s : State, s.pkg.supply = .on → Completes (.refclkLoss .hp) s (fun t =>
    bit t.pkg.alertCause 6 = true ∧ bit t.pkg.refclk 2 = false ∧ t.host.up = false ∧ t.pkg.supply = .on ∧
    (∀ n, (sessOf s n).port = .host → (sessOf t n).phase = .closed) ∧ t.fuses = s.fuses)) ∧
  (∀ s : State, s.pkg.supply = .on → Completes (.refclkLoss .lk0) s (fun t =>
    bit t.pkg.alertCause 6 = true ∧ bit t.pkg.refclk 1 = false ∧ t.pkg.supply = .on ∧ t.fuses = s.fuses ∧
    (∀ l < 16, linkSt s l = .up → linkSt t l = .fenced) ∧
    (∀ l < 16, linkSt s l = .training ∨ linkSt s l = .hello ∨ linkSt s l = .attest ∨ linkSt s l = .keyed → linkSt t l = .down))) ∧
  (∀ s : State, s.pkg.supply = .on → Completes (.refclkLoss .lk1) s (fun t =>
    bit t.pkg.alertCause 6 = true ∧ bit t.pkg.refclk 0 = false ∧ t.pkg.supply = .on ∧ t.fuses = s.fuses ∧
    (∀ l, 16 ≤ l → l < 32 → linkSt s l = .up → linkSt t l = .fenced) ∧
    (∀ l, 16 ≤ l → l < 32 → linkSt s l = .training ∨ linkSt s l = .hello ∨ linkSt s l = .attest ∨ linkSt s l = .keyed → linkSt t l = .down))) ∧
  (∀ (s : State) (c : Refclk), exec (.refclkRestored c) s =
    .next (setPkg s { s.pkg with refclk := setBit s.pkg.refclk (refclkBit c) true, clkLost := setBit s.pkg.clkLost (refclkBit c) false })) ∧
  (∀ s : State, fwRuns s = true → exec .ledgerCommit s = .next { s with nvm := { s.nvm with ledger := s.ledger } })

/-- R18, R28, R29, R33-R37, R36, R42, R416: A sample is recorded, in the telemetry windows of the time base too (R406); VIN below 11.4 V or
above 12.6 V raises its alert, as a lost clock does; only the few cores whose turn it is ramp; 50 in a row below 10.8 V start the power-fail
sequence; five samples in a row above 345 A, or 50 above 13.2 V, are a power trip, which leaves no key and records the trip; above 14.0 V
the device is damaged and the model stops; a current limit that bound for 10 ms raises CUR_LIMIT. One step of power reduction takes 25 MHz
off a core's clock down to 800 MHz and then an eighth off its issue, never below one eighth, and makes one more of eight cell steps idle; a
step back undoes issue first; both keep the clock within 800 to 3,300 MHz and issue within one to eight eighths. A droop stretches the clock
of its own island, and no other state changes.
Commands that it says complete: powerSample, curLimitAlert, supplyDroop. -/
def Obligations.PowerAndThrottle : Prop :=
  ((∀ (s : State) (mv ma : Nat), 14000 < mv → exec (.powerSample mv ma) s = .fault .damaged) ∧
  (∀ (s : State) (mv ma : Nat), s.pkg.supply = .on → mv ≤ 13200 → ma ≤ 345000 → 10800 ≤ mv ∨ s.pkg.underVolt < 49 →
    Completes (.powerSample mv ma) s (fun t =>
      t.pkg.supply = .on ∧ t.pkg.vinMv = mv ∧ t.pkg.iinMa = ma ∧ t.pkg.overCur = 0 ∧ t.pkg.overVolt = 0 ∧ t.pkg.underVolt = (if mv < 10800 then s.pkg.underVolt + 1 else 0) ∧
      t.pkg.lastI = (ma :: s.pkg.lastI).take 100 ∧ t.pkg.win10 = winSample mv ma (win10 s) ∧ (mv < 11400 → bit t.pkg.alertCause 2 = true) ∧
      (12600 < mv → bit t.pkg.alertCause 3 = true) ∧ (s.pkg.clkLost ≠ 0 → bit t.pkg.alertCause 6 = true) ∧ t.keys = s.keys ∧ t.mem = s.mem ∧ t.ctxs = s.ctxs ∧ t.fuses = s.fuses)) ∧
  (∀ (s : State) (mv ma : Nat), s.pkg.supply = .on → mv ≤ 14000 → 345000 < ma → 4 ≤ s.pkg.overCur →
    Completes (.powerSample mv ma) s (fun t =>
      t.pkg.supply = .tripped ∧ t.pkg.alertLatch = true ∧ t.pkg.thermtrip = false ∧ t.keys = [] ∧ t.mem = [] ∧
      t.ledger.tripTotal = s.ledger.tripTotal + 1 ∧ t.nvm.ledger = t.ledger ∧ t.fuses.svn = s.fuses.svn)) ∧
  (∀ (s : State) (mv ma : Nat), s.pkg.supply = .on → 13200 < mv → mv ≤ 14000 → ma ≤ 345000 → 49 ≤ s.pkg.overVolt →
    Completes (.powerSample mv ma) s (fun t => t.pkg.supply = .tripped ∧ t.keys = [] ∧ t.ledger.tripTotal = s.ledger.tripTotal + 1)) ∧
  (∀ (s : State) (mv ma : Nat), s.pkg.supply = .on → mv < 10800 → ma ≤ 345000 → 49 ≤ s.pkg.underVolt →
    Completes (.powerSample mv ma) s (fun t => t.pkg.supply = .failed ∧ t.keys = [] ∧ t.mem = [] ∧ t.ledger.tripTotal = s.ledger.tripTotal ∧
      t.nvm.ledger = t.ledger)) ∧
  (∀ (s : State) (mv ma : Nat), s.pkg.supply = .on → mv ≤ 13200 → ma ≤ 345000 → 10800 ≤ mv →
    Completes (.powerSample mv ma) s (fun t => ∀ c < 32, rampNow s.pkg c = false → coreOf t c = coreOf s c)) ∧
  (∀ s : State, s.pkg.supply = .on → s.pkg.curLimiting = true → Completes .curLimitAlert s (fun t =>
    bit t.pkg.alertCause 1 = true ∧ t.keys = s.keys ∧ t.mem = s.mem ∧ t.cores = s.cores ∧ t.fuses = s.fuses))) ∧
  ((∀ k : Core, 800 ≤ k.clock → k.clock ≤ 3300 → 1 ≤ k.issue8 → k.issue8 ≤ 8 →
    (800 ≤ (slowCore k).clock ∧ (slowCore k).clock ≤ k.clock ∧ 1 ≤ (slowCore k).issue8 ∧ (slowCore k).issue8 ≤ k.issue8 ∧
      (825 ≤ k.clock → (slowCore k).clock = k.clock - 25 ∧ (slowCore k).issue8 = k.issue8) ∧
      (k.clock = 800 → 2 ≤ k.issue8 → (slowCore k).issue8 = k.issue8 - 1) ∧ (k.clock = 800 → k.idle8 < 7 → (slowCore k).idle8 = k.idle8 + 1) ∧
      (k.idle8 ≤ 7 → (slowCore k).idle8 ≤ 7) ∧
      slowCore k = { k with clock := (slowCore k).clock, issue8 := (slowCore k).issue8, idle8 := (slowCore k).idle8 }) ∧
    (k.clock ≤ (fastCore k).clock ∧ (fastCore k).clock ≤ 3300 ∧ k.issue8 ≤ (fastCore k).issue8 ∧ (fastCore k).issue8 ≤ 8 ∧
      (k.issue8 < 8 → (fastCore k).issue8 = k.issue8 + 1 ∧ (fastCore k).clock = k.clock))) ∧
  (∀ (s : State) (c : BitVec 5), s.pkg.supply = .on →
    exec (.supplyDroop c) s = .next (setCore s c.toNat { coreOf s c.toNat with stretch := true })))

/-- R38, R40, R41: a reading of a die that is not throttled is recorded and raises DIE_HOT from 105 °C; an Almandine die at 105 °C is throttled and stays so until all its
sensors are below 102 °C; a stack at 85 °C is marked hot, at 95 °C raises HBM_HOT; two readings in a row at the trip temperature run
the trip sequence; a failed regulator phase raises REG_FAULT.
Commands that it says complete: tempSample, regulatorPhaseFailure. -/
def Obligations.TemperatureSampling : Prop :=
  (∀ (s : State) (i : BitVec 7) (x : Int), s.pkg.supply = .on → 48 ≤ i.toNat → i.toNat < 60 → x < 120 * 16 →
    Completes (.tempSample i x) s (fun t =>
      tget 0 t.pkg.sensors i.toNat = x ∧ (105 * 16 ≤ x → bit t.pkg.alertCause 4 = true) ∧
      (x < 105 * 16 → t.pkg.alertCause = s.pkg.alertCause) ∧ t.pkg.throttled = s.pkg.throttled ∧
      t.cores = s.cores ∧ t.keys = s.keys ∧ t.mem = s.mem ∧ t.fuses = s.fuses)) ∧
  (∀ (s : State) (i : BitVec 7) (x : Int), s.pkg.supply = .on → i.toNat < 48 → 105 * 16 ≤ x → x < 120 * 16 →
    Completes (.tempSample i x) s (fun t =>
      bit t.pkg.throttled (i.toNat / 12) = true ∧ bit t.pkg.alertCause 4 = true ∧ bit (statusReg t) 12 = true ∧ t.pkg.supply = .on ∧
      t.keys = s.keys ∧ t.mem = s.mem ∧ t.fuses = s.fuses)) ∧
  (∀ (s : State) (i : BitVec 7) (x : Int), s.pkg.supply = .on → i.toNat < 48 → x < 102 * 16 →
    (∀ k < 12, 12 * (i.toNat / 12) + k ≠ i.toNat → tget 0 s.pkg.sensors (12 * (i.toNat / 12) + k) < 102 * 16) →
    Completes (.tempSample i x) s (fun t => bit t.pkg.throttled (i.toNat / 12) = false ∧ (100 * 16 ≤ x → bit t.pkg.alertCause 4 = true) ∧
      t.pkg.supply = .on ∧ t.cores = s.cores)) ∧
  (∀ (s : State) (i : BitVec 7) (x : Int), s.pkg.supply = .on → 60 ≤ i.toNat → i.toNat < 72 → x < 105 * 16 →
    Completes (.tempSample i x) s (fun t =>
      bit t.pkg.hotStacks (i.toNat - 60) = decide (85 * 16 ≤ x) ∧ (95 * 16 ≤ x → bit t.pkg.alertCause 5 = true) ∧
      (x < 95 * 16 → t.pkg.alertCause = s.pkg.alertCause) ∧ t.pkg.supply = .on ∧ t.mem = s.mem ∧ t.fuses = s.fuses)) ∧
  (∀ (s : State) (i : BitVec 7) (x : Int), s.pkg.supply = .on → i.toNat < 72 → tripTemp i.toNat ≤ x →
    tget false s.pkg.tripArm i.toNat = true →
    Completes (.tempSample i x) s (fun t =>
      t.pkg.supply = .tripped ∧ t.pkg.thermtrip = true ∧ t.pkg.alertLatch = true ∧ t.keys = [] ∧ t.mem = [] ∧
      t.ledger.tripTotal = s.ledger.tripTotal + 1 ∧ t.nvm.ledger = t.ledger)) ∧
  (∀ (s : State) (ph : Nat), s.pkg.supply = .on → Completes (.regulatorPhaseFailure ph) s (fun t =>
    bit t.pkg.alertCause 7 = true ∧ t.pkg.regFaults = s.pkg.regFaults + 1 ∧ t.cores = s.cores ∧ t.mem = s.mem ∧ t.keys = s.keys))

/-- R41, R42: Writes through the I2C port and the management port clear the same bits; a bit whose cause occurs afresh in the same sample stays
1; a cause that is still present sets its bit again at the next sample; and ALERT_N is low while any bit is 1. Every register of the board's
port but ALERT_CAUSE is read-only: a write to another is answered with NACK on the first data byte and changes no register; STATUS reads as
its field map says.
Commands that it says complete: powerSample, curLimitAlert, tempSample, alertCauseWrite, i2cWriteOther, alertClear. -/
def Obligations.BoardPort : Prop :=
  ((∀ (s : State) (mask fresh : W16) (i : Nat), i2cOn s = true → i < 16 →
    ∃ t, exec (.alertCauseWrite mask fresh) s = .next t ∧ t = setPkg s { s.pkg with alertCause := t.pkg.alertCause } ∧
      bit t.pkg.alertCause i = (bit s.pkg.alertCause i && (!bit mask i || bit fresh i))) ∧
  (∀ (s : State) (r : Req) (body : Bytes) (i : Nat), Served s r .o → r.port = .mgmt → HasLength r body 2 → i < 16 →
    Completes (.alertClear r body) s (fun t =>
      bit t.pkg.alertCause i = (bit s.pkg.alertCause i && (!nbit (be body 0 2) i || bit r.recurs i)) ∧ t.mem = s.mem ∧ t.keys = s.keys ∧ t.fuses = s.fuses)) ∧
  (∀ s : State, s.pkg.supply = .off → alertLow s = false) ∧
  (∀ s : State, s.pkg.supply ≠ .off → s.pkg.alertLatch = false → (alertLow s = true ↔ ∃ i < 16, bit s.pkg.alertCause i = true)) ∧
  (∀ (s : State) (mask fresh : W16) (mv ma : Nat), i2cOn s = true → mv < 11400 ∨ (12600 < mv ∧ mv ≤ 13200) → ma ≤ 345000 → 10800 ≤ mv ∨ s.pkg.underVolt < 49 →
    ∃ u t, exec (.alertCauseWrite mask fresh) s = .next u ∧ exec (.powerSample mv ma) u = .next t ∧
      bit t.pkg.alertCause (if mv < 11400 then 2 else 3) = true) ∧
  (∀ (s : State) (mask fresh : W16) (i : BitVec 7) (x : Int), i2cOn s = true →
    (i.toNat < 48 ∧ 100 * 16 ≤ x ∧ x < 120 * 16) ∨ (48 ≤ i.toNat ∧ i.toNat < 60 ∧ 105 * 16 ≤ x ∧ x < 120 * 16) ∨
      (60 ≤ i.toNat ∧ i.toNat < 72 ∧ 95 * 16 ≤ x ∧ x < 105 * 16) →
    ∃ u t, exec (.alertCauseWrite mask fresh) s = .next u ∧ exec (.tempSample i x) u = .next t ∧
      bit t.pkg.alertCause (if i.toNat < 60 then 4 else 5) = true) ∧
  (∀ (s : State) (mask fresh : W16), i2cOn s = true → s.pkg.curLimiting = true →
    ∃ u t, exec (.alertCauseWrite mask fresh) s = .next u ∧ exec .curLimitAlert u = .next t ∧ bit t.pkg.alertCause 1 = true)) ∧
  ((∀ (s : State) (off : Byte) (v : W16), i2cOn s = true → off ≠ 0x04 → exec (.i2cWriteOther off v) s = .next (emit s .i2cNack)) ∧
  (∀ s : State, i2cReg s 0x00 = some 0x4820 ∧ i2cReg s 0x02 = some (statusReg s) ∧ i2cReg s 0x04 = some s.pkg.alertCause ∧
    i2cReg s 0x0C = some (BitVec.ofNat 16 (pLimit s)) ∧ i2cReg s 0x12 = some s.pkg.tripHist) ∧
  (∀ (s : State) (off : Nat), 0x12 < off → i2cReg s off = none) ∧
  (∀ s : State, bit (statusReg s) 15 = isReady s ∧ bit (statusReg s) 14 = s.pkg.pwrLimiting ∧
    bit (statusReg s) 13 = s.pkg.curLimiting ∧ bit (statusReg s) 12 = (s.pkg.throttled != 0) ∧
    bit (statusReg s) 11 = (s.pkg.hotStacks != 0) ∧ (∀ i < 4, bit (statusReg s) (7 + i) = bit s.pkg.refclk i) ∧
    (∀ i < 7, bit (statusReg s) i = false)))

/-- R21, R24, R25, R69, R70, R71, R300: PPS_OUT rises at a whole second of the time base and is omitted less than 500 ms after the last pulse
where PTP has moved the time base; a pulse of PPS_IN below 1 µs is ignored, a longer one is captured to 8 ns; with PPS_ASSIST one more than
500 ns from the expected whole second is rejected and counted, and another gives the phase, to which the frequency is steered within 500
ppm. The instructions of the test access port, none while TRST_N holds it in reset. IDCODE, BYPASS and the authorisation instructions act in
every state; EXTEST and SAMPLE/PRELOAD scan only while RESET_N is low and are BYPASS otherwise (what the cells capture is a free value, log
entry 2); a challenge shifts out the serial and a fresh nonce, which replaces the last; a token goes to the key store. The debug access port
is BYPASS while debug is not open for the scope named; open, a read of the Almandine scope at a context that is FREE returns
STALE_GENERATION and no data, and no other scope changes the device's memory or keys.
Commands that it says complete: ppsOutPulse, ppsInEdge, extest, idcode, samplePreload, authChallenge, authToken, authStatus, debugAccess,
bypass. -/
def Obligations.TestPortsAndPulse : Prop :=
  ((∀ s : State, s.pkg.supply = .on → now s % 1000000000 = 0 → s.time.lastPps = none →
    exec .ppsOutPulse s = .next { s with time := { s.time with ppsOut := true, lastPps := some (now s), moved := false } }) ∧
  (∀ (s : State) (p : Nat), s.time.lastPps = some p → s.time.moved = true → now s < p + 500000000 →
    exec .ppsOutPulse s = .next s) ∧
  (∀ (s : State) (w : Nat), w < 1000 → exec (.ppsInEdge w) s = .next s) ∧
  (∀ (s : State) (w : Nat), 1000 ≤ w → s.pkg.supply = .on → ppsAssist s = false →
    exec (.ppsInEdge w) s = .next { s with time := { s.time with ppsIn := some (now s / 8 * 8) } }) ∧
  (∀ (s : State) (w : Nat), 1000 ≤ w → s.pkg.supply = .on → ppsAssist s = true → fwRuns s = true →
    let c := now s / 8 * 8
    let x : Int := (c : Int) - wholeSeconds c
    (500 < x.natAbs → exec (.ppsInEdge w) s = .next { s with time := { s.time with ppsIn := some c, ppsReject := s.time.ppsReject + 1 } }) ∧
    (x.natAbs ≤ 500 → steered s = false → exec (.ppsInEdge w) s = .next { s with time := { s.time with ppsIn := some c, offset := x, phaseAt := some c } }) ∧
    (x.natAbs ≤ 500 → steered s = true → s.time.half = false → Completes (.ppsInEdge w) s (fun t =>
      t.time.ppsIn = some c ∧ t.time.offset = x ∧ t.time.phaseAt = some c ∧ t.time.base = s.time.base ∧ t.time.ppb.natAbs ≤ 500000 ∧
      t = { s with time := t.time, free := t.free })))) ∧
  ((∀ s : State, tapOn s = true → Completes .idcode s (fun t => ∃ x, t = emit { s with jtag := { s.jtag with ir := 0x01 } } (.jtag 32 x) ∧
    x % 2 ^ 28 = 0x04820A53 ∧ x < 2 ^ 32)) ∧
  (∀ (s : State) (code : Byte) (tdi : Bool), tapOn s = true → code ∉ ([0x00, 0x01, 0x02, 0x20, 0x21, 0x22, 0x30] : List Byte) →
    exec (.bypass code tdi) s = .next (emit { s with jtag := { s.jtag with ir := code } } (.jtag 1 tdi.toNat))) ∧
  (∀ (s : State) (scan : Nat), tapOn s = true → s.pkg.resetN = true →
    exec (.extest scan) s = .next (emit { s with jtag := { s.jtag with ir := 0xFF } } (.jtag 1 (scan % 2))) ∧
    exec (.samplePreload scan) s = .next (emit { s with jtag := { s.jtag with ir := 0xFF } } (.jtag 1 (scan % 2)))) ∧
  (∀ (s : State) (code : Byte) (tdi : Bool) (scan : Nat), s.pkg.trstN = false → exec (.bypass code tdi) s = .next s ∧ exec .idcode s = .next s ∧
    exec (.extest scan) s = .next s ∧ exec (.samplePreload scan) s = .next s ∧ exec .authChallenge s = .next s ∧ exec .authStatus s = .next s) ∧
  (∀ (s : State) (scan : Nat), tapOn s = true → s.pkg.resetN = false →
    Completes (.extest scan) s (fun t => t.jtag = { s.jtag with ir := 0x00, bscan := scan } ∧ t = { s with jtag := t.jtag, out := t.out, free := t.free }) ∧
    Completes (.samplePreload scan) s (fun t => t.jtag = { s.jtag with ir := 0x02, bscan := scan } ∧
      t = { s with jtag := t.jtag, out := t.out, free := t.free })) ∧
  (∀ s : State, tapOn s = true → Completes .authChallenge s (fun t => ∃ v : Nat,
    t.jtag = { s.jtag with ir := 0x20, nonce := some (digestOf (bytesBE 64 v), now s) } ∧
    t.out = s.out ++ [.jtag 576 (natBE (bytesBE 8 s.fuses.serial.toNat ++ bytesBE 64 v))] ∧
    t = { s with jtag := t.jtag, out := t.out, free := t.free })) ∧
  (∀ (s : State) (k : DebugToken), tapOn s = true →
    exec (.authToken k) s = .next { s with jtag := { s.jtag with ir := 0x21, tokJtag := some k } }) ∧
  (∀ s : State, tapOn s = true →
    exec .authStatus s = .next (emit { s with jtag := { s.jtag with ir := 0x22 } } (.jtag 16 s.jtag.status.toNat)))) ∧
  ((∀ (s : State) (op : DebugOp), tapOn s = true → debugOpenAt s op.die.toNat = false →
    exec (.debugAccess op) s = .next (emit { s with jtag := { s.jtag with ir := 0xFF } } (.jtag 1 (bit op.data 0).toNat))) ∧
  (∀ (s : State) (op : DebugOp), tapOn s = true → debugOpenAt s 1 = true → op.die = 1 → (ctxOf s op.ctx.toNat).state = .free →
    exec (.debugAccess op) s = .next (emit { s with jtag := { s.jtag with ir := 0x30 } } (.debugData .staleGeneration []))) ∧
  (∀ (s : State) (op : DebugOp), tapOn s = true → debugOpenAt s op.die.toNat = true → op.die ≠ 1 →
    Completes (.debugAccess op) s (fun t => t.jtag = { s.jtag with ir := 0x30 } ∧ t = { s with jtag := t.jtag, out := t.out, free := t.free })) ∧
  (∀ s : State, s.fuses.lifecycle = .retired ∨ s.fuses.lifecycle = .prod → ∀ d, debugOpenAt s d = false))

/-! ## Debug authorisation, provisioning, the management port (chapters 2 and 14) -/

/-- R58, R59, R68, R70-R72, R70: A verified token is judged once. Accepted in PROD it extends MR7 with the token and with the entry to
PROD_DEBUG, zeroises the keys of tenants, owners, contexts and host sessions (and of the partitions, of which an unused one draws a new
key), closes every host session, counts the unlock in DEBUG_UNLOCKS, enters PROD_DEBUG and opens the named scope; refused it leaves
AUTH_STATUS at DENIED and the lifecycle as it was. A reset in the same sample discards it, and of two tokens the one of the management port
is judged and the other is refused with CONFLICT. Whether a token verifies is Config's (log entry 3). A challenge's nonce serves for 60 s;
the accepted token's duration ends with a device reset back to PROD; provisioning moves BLANK to DEV with the secret, the serial, the key
hashes and the certificate; the PROD fuse moves DEV to PROD and zeroises every key of the numbered slots with those of the management
sessions and of half-open ones (the keys of R62 are of no era); neither acts in another state.
Commands that it says complete: debugTokenVerified, debugNonceExpiry, prodDebugExpiry, provisioning, prodFuseBurn. -/
def Obligations.DebugAndLifecycle : Prop :=
  ((∀ (s : State) (k : DebugToken), s.pkg.supply = .on → s.fuses.lifecycle = .prod → s.jtag.tokJtag = some k → s.jtag.tokMgmt = none →
    tget 0 s.mrs.count 7 < 0xFFFFFFFE →
    Completes (.debugTokenVerified false) s (fun t => t.jtag.nonce = none ∧ t.jtag.tokJtag = none ∧
      (tokenOk s k = true →
        t.fuses = { s.fuses with lifecycle := .prodDebug } ∧ t.jtag.scope = k.scope ∧ t.jtag.duration = k.duration ∧ t.jtag.status = 0 ∧
        tget 0 t.mrs.count 7 = tget 0 s.mrs.count 7 + 2 ∧
        tget 0 t.mrs.mr 7 = mrNext (mrNext (tget 0 s.mrs.mr 7) 0x40 (Config.tokenBytes k)) 0x40 (Config.debugEntry k) ∧
        (∀ n, (0x020 ≤ n ∧ n < 0x120) ∨ (0x260 ≤ n ∧ n < 0x400) → keyOf t n = []) ∧
        (∀ p < 16, (partOf s p).state = .scrubbing → keyOf t (0x010 + p) = []) ∧
        tget 0 t.ledger.counters 12 = (satAdd (ledgerWidth 12) (tget 0 s.ledger.counters 12) 1).1 ∧ (∀ n, (sessOf s n).port = .host → (sessOf t n).phase = .closed) ∧
        (∀ p < 16, (partOf t p).charter = none ∧ ((partOf s p).state = .assigned ∨ (partOf s p).state = .charter → ctxsOf s p ≠ [] →
          (partOf t p).state = .resetting ∧ (partOf t p).rstCause = 5))) ∧
      (tokenOk s k = false → t.jtag.status = 0x0701 ∧ t = { s with jtag := t.jtag }))) ∧
  (∀ (s : State) (k : DebugToken), s.pkg.supply = .on → s.fuses.lifecycle = .dev → s.jtag.tokJtag = some k → s.jtag.tokMgmt = none →
    Completes (.debugTokenVerified false) s (fun t => t.fuses = s.fuses ∧ t.keys = s.keys ∧ t.sess = s.sess ∧ t.jtag.nonce = none ∧
      (tokenOk s k = true → t.jtag.scope = k.scope ∧ t.jtag.status = 0) ∧
      (tokenOk s k = false → t.jtag.scope = s.jtag.scope ∧ t.jtag.status = 0x0701))) ∧
  (∀ (s : State) (k : DebugToken) (m : DebugToken × Req), s.pkg.supply = .on → s.fuses.lifecycle = .retired → s.jtag.tokJtag = some k →
    s.jtag.tokMgmt = some m →
    Completes (.debugTokenVerified false) s (fun t => t.jtag.status = 0x0601 ∧ t.jtag.tokJtag = none ∧ t.jtag.tokMgmt = none ∧
      t.jtag.scope = s.jtag.scope ∧ t.fuses = s.fuses)) ∧
  (∀ (s : State) (k : DebugToken), s.pkg.supply = .on → s.jtag.tokJtag = some k → exec (.debugTokenVerified true) s = .next (deviceReset s))) ∧
  ((∀ (s : State) (n : Digest × Nat), s.jtag.nonce = some n →
    exec .debugNonceExpiry s = .next { s with jtag := { s.jtag with nonce := none } }) ∧
  (∀ s : State, s.fuses.lifecycle = .prodDebug → s.pkg.supply = .on → Completes .prodDebugExpiry s (fun t =>
    t.fuses.lifecycle = .prod ∧ (∀ n, n < 0x400 → keyOf t n = []) ∧ t.jtag.scope = 0 ∧ t.mem = [] ∧ t.time = s.time ∧ t.fuses.svn = s.fuses.svn)) ∧
  (∀ (s : State) (serial : W64) (secret : Nat) (keys : Tbl Digest) (dk tk : Digest) (cert : Bytes), s.fuses.lifecycle = .blank →
    exec (.provisioning serial secret keys dk tk cert) s = .next { s with
      fuses := { s.fuses with lifecycle := .dev, serial := serial, secret := some (secret % 2 ^ 256), vendorKeys := keys, debugKey := dk, titleKey := tk },
      nvm := { s.nvm with idCert := cert } }) ∧
  (∀ (s : State) (serial : W64) (secret : Nat) (keys : Tbl Digest) (dk tk : Digest) (cert : Bytes), s.fuses.lifecycle ≠ .blank →
    exec (.provisioning serial secret keys dk tk cert) s = .next s) ∧
  (∀ s : State, s.fuses.lifecycle = .dev → Completes .prodFuseBurn s (fun t => (∀ n, n < 0x400 → keyOf t n = []) ∧
    (∀ n, 0x400 ≤ n → keyOf t n = keyOf s n) ∧
    t = { s with fuses := { s.fuses with lifecycle := .prod }, keys := t.keys, jtag := { s.jtag with scope := 0, duration := 0 },
                 sess := s.sess.map (fun e => (e.1, { e.2 with keys := none, eph := 0 })) })) ∧
  (∀ s : State, s.fuses.lifecycle ≠ .dev → exec .prodFuseBurn s = .next s))

/-- R66, R70, R313, R403: requests that read: an attestation report over the requester's nonce (DEFERRED at 1,000 in a second), the
device's description, the time base with the state of PTP, telemetry, a debug challenge, and the closing of a session after its
response. Each answers with OK on the state that received its datagram. An opcode outside the catalogue is refused with BAD_DESCRIPTOR,
and a link under a TRACE_EXPORT claim sends the counters (R333; the frame's type is Config's, log entry 102).
Commands that it says complete: attestRequest, deviceInfo, timeRead, sessionClose, telemetryRead, debugChallenge, traceExport,
unknownMailboxOpcode. -/
def Obligations.InformationRequests : Prop :=
  (∀ (s : State) (r : Req) (body : Bytes), Admitted s r .any → HasLength r body 64 → reportWait (taken s r) = none →
    ∃ part, exec (.attestRequest r body) s =
      .next (countReport (respond r 0x0001 .ok (reportReply (taken s r) body part) (taken s r))) ∧
      part = (match (sessOf s r.sess).role with | .tenant p => p.toNat | _ => 0xFF)) ∧
  (∀ (s : State) (r : Req) (body : Bytes) (at_ : Nat), Admitted s r .any → HasLength r body 64 → reportWait (taken s r) = some at_ →
    exec (.attestRequest r body) s = .next (respondAt r 0x0001 .deferred at_ [] (taken s r))) ∧
  (∀ (s : State) (r : Req) (body : Bytes), Served s r .any → r.port = .host → HasLength r body 0 →
    exec (.deviceInfo r body) s = .next (respond r 0x0002 .ok (bytesBE 8 s.fuses.serial.toNat ++ bytesBE 4 s.boot.fwVersion.toNat ++
      [s.host.mode] ++ (List.range 32).map (fun l => BitVec.ofNat 8 (linkCode (linkSt s l))) ++ bytesBE 2 s.host.lldp.length ++ s.host.lldp)
      (taken s r))) ∧
  (∀ (s : State) (r : Req) (body : Bytes), Served s r .any → HasLength r body 0 →
    exec (.timeRead r body) s = .next (respond r 0x0003 .ok (bytesBE 8 (now s) ++ bytesBE 1 (ptpCode s.time.ptp) ++
      bytesBE 8 (ofInt 64 s.time.offset) ++ bytesBE 4 s.time.steps) (taken s r))) ∧
  (∀ (s : State) (r : Req) (body : Bytes), Served s r .any → HasLength r body 0 →
    exec (.sessionClose r body) s = .next (closeSession r.sess (respond r 0x0004 .ok [] (taken s r)))) ∧
  (∀ (s : State) (r : Req) (body : Bytes), Served s r .o → r.port = .mgmt → HasLength r body 0 →
    exec (.telemetryRead r body) s = .next (respond r 0x0005 .ok (mgmtTelemetry s) (taken s r))) ∧
  (∀ (s : State) (r : Req) (body : Bytes), Served s r .any → r.port = .host → HasLength r body 0 →
    exec (.telemetryRead r body) s = .next (respond r 0x0005 .ok (sessionTelemetry s (isFabric (sessOf s r.sess))) (taken s r))) ∧
  (∀ (s : State) (r : Req) (body : Bytes), Served s r .o → r.port = .mgmt → HasLength r body 0 →
    Completes (.debugChallenge r body) s (fun t => ∃ v : Nat, t.jtag.nonce = some (digestOf (bytesBE 64 v), now s) ∧ t.fuses = s.fuses ∧
      t.keys = s.keys ∧ t.mem = s.mem)) ∧
  (∀ (s : State) (r : Req) (op : W16), Served s r .any →
    (ctxOf s r.ctx.toNat).state = .free →
    exec (.unknownMailboxOpcode r op) s = .next (respond r op.toNat .badDescriptor [] (taken s r))) ∧
  (∀ (s : State) (l : Nat), fwRuns s = true → l < 32 → linkUp s l = true → linkClaim s l 1 ≠ none →
    (∀ j < 32, j ≠ l → linkUp s j = false ∨ linkClaim s j 1 = none) →
    exec .traceExport s = .next (sendCtrl l (ctrlFrame Config.traceType 0 0 (mgmtTelemetry s)) s))

/-- R327, R331, R332, R403, R405: the shadow set is written under the lock, where EVENT_RATE and QUANTUM of an enabled partition hold their Reset values until written;
validated it may be swapped, at once or armed for the step
boundary; the active set is persisted; either set is read back; the power limit changes through a copy of the active set. A write by
a session that does not hold the lock is refused with CONFLICT.
Commands that it says complete: configWrite, configValidate, configSwap, configSetPersisted, configRead, powerLimitSet. -/
def Obligations.ConfigurationMessages : Prop :=
  (∀ (s : State) (r : Req) (body : Bytes), Served s r .o → r.port = .mgmt → 5 ≤ body.length → r.bodyLen.toNat = body.length →
    be body 0 4 + (body.length - 4) ≤ 65536 → s.cfg.lock = none ∨ s.cfg.lock = some r.sess →
    exec (.configWrite r body) s = .next (respond r 0x0300 .ok [] { taken s r with
      cfg := { s.cfg with shadow := mwrite s.cfg.shadow (be body 0 4) (body.drop 4), wrote := (be body 0 4, body.length - 4) :: s.cfg.wrote,
                          lock := some r.sess, valid := false } })) ∧
  (∀ (s : State) (p n v : Nat), p < 16 → (n = 10 ∧ v = 4) ∨ (n = 12 ∧ v = 100) → (secIndex s.cfg.shadow 1).isSome = true →
    pEnabledIn s.cfg.shadow p = true → (∀ w ∈ s.cfg.wrote, secOff s.cfg.shadow 1 + 64 * p + n < w.1 ∨ w.1 + w.2 ≤ secOff s.cfg.shadow 1 + 64 * p + n) →
    176 ≤ secOff s.cfg.shadow 1 →
    mget (shadowSet s) (secOff s.cfg.shadow 1 + 64 * p + n) = BitVec.ofNat 8 v) ∧
  (∀ (s : State) (r : Req) (body : Bytes), Served s r .o → r.port = .mgmt → HasLength r body 0 → s.cfg.lock = none ∨ s.cfg.lock = some r.sess →
    Completes (.configValidate r body) s (fun t => t.cfg.shadow = s.cfg.shadow ∧ t.cfg.active = s.cfg.active ∧ t.mem = s.mem ∧ t.fuses = s.fuses ∧
      t.cfg.valid = (validate (taken s r) (shadowSet s)).isNone)) ∧
  (∀ (s : State) (r : Req) (body : Bytes), Served s r .o → r.port = .mgmt → HasLength r body 0 → s.cfg.lock = some r.sess → s.cfg.valid = true →
    swapMode (shadowSet s) = 2 →
    exec (.configSwap r body) s = .next (respond r 0x0302 .ok [] { taken s r with cfg := { s.cfg with armed := some (shadowSet s), lock := none } })) ∧
  (∀ (s : State) (r : Req) (body : Bytes), Served s r .o → r.port = .mgmt → HasLength r body 0 → s.cfg.lock = some r.sess → s.cfg.valid = true →
    swapMode (shadowSet s) = 1 → swapRefused (taken s r) (shadowSet s) = none →
    exec (.configSwap r body) s = .next (swapSet (shadowSet s) (respond r 0x0302 .ok [] (taken s r)))) ∧
  (∀ s : State, fwRuns s = true → s.cfg.fresh = true →
    exec .configSetPersisted s = .next { s with cfg := { s.cfg with fresh := false }, nvm := { s.nvm with committed := some s.cfg.active } }) ∧
  (∀ (s : State) (r : Req) (body : Bytes), Served s r .o → r.port = .mgmt → HasLength r body 9 → be body 0 1 ≤ 1 → be body 5 4 ≤ 65504 →
    be body 1 4 + be body 5 4 ≤ 65536 →
    exec (.configRead r body) s = .next (respond r 0x0303 .ok
      (mread (if be body 0 1 = 0 then s.cfg.active else shadowSet s) (be body 1 4) (be body 5 4)) (taken s r))) ∧
  (∀ (s : State) (r : Req) (body : Bytes), Served s r .o → r.port = .mgmt → HasLength r body 2 → 1800 ≤ be body 0 2 → be body 0 2 ≤ 3600 →
    be body 0 2 % 10 = 0 → s.cfg.lock = none ∨ s.cfg.lock = some r.sess → s.cfg.armed = none →
    validate s (limitSet s (be body 0 2)) = none → swapRefused (taken s r) (limitSet s (be body 0 2)) = none →
    exec (.powerLimitSet r body) s = .next (respond r 0x0304 .ok (bytesBE 4 (setSeq (limitSet s (be body 0 2))))
      (swapSet (limitSet s (be body 0 2)) (taken s r)))) ∧
  (∀ (s : State) (r : Req) (body : Bytes), Served s r .o → r.port = .mgmt → 5 ≤ body.length → r.bodyLen.toNat = body.length →
    be body 0 4 + (body.length - 4) ≤ 65536 → s.cfg.lock ≠ none → s.cfg.lock ≠ some r.sess →
    Completes (.configWrite r body) s (fun t => t.cfg = s.cfg ∧ t.mem = s.mem))

/-- R57, R263, R401, R403, R408-R411, R427: The fault log is read from its oldest entry; a retired link goes to DOWN; new settings of the port
apply after the response and close every management session; the port's link comes up in the mode in force and goes down without closing
sessions. Staging erases the idle slot and writes it at contiguous offsets; the end of staging checks the slot by R54 and keeps it STAGED
only where every check passes; activation programs the booted slot's MAGIC to zero and keeps a copy of its first 4 KiB, which abandoning
restores; the security-version fuses go up to the target count; the operator's reset follows its response.
Commands that it says complete: faultLogRead, linkUnretire, mgmtNetSet, fwStageBegin, fwStageData, fwStageEnd, fwActivate, fwAbandon,
svnCommit, deviceReset, mgmtPortLinkDown, mgmtPortLinkUp. -/
def Obligations.ManagementAndFirmware : Prop :=
  ((∀ (s : State) (r : Req) (body : Bytes), Served s r .o → r.port = .mgmt → HasLength r body 6 → be body 0 4 < 4096 → be body 4 2 < 0xFFFF →
    exec (.faultLogRead r body) s = .next (respond r 0x0306 .ok
      (((s.nvm.faultLog.drop (be body 0 4)).take (natMin (be body 4 2) 2047)).flatMap faultBytes) (taken s r))) ∧
  (∀ (s : State) (r : Req) (body : Bytes), Served s r .o → r.port = .mgmt → HasLength r body 1 → be body 0 1 < 32 →
    linkSt s (be body 0 1) = .retired →
    Completes (.linkUnretire r body) s (fun t => (linkOf t (be body 0 1)).state = .down ∧ bit t.nvm.retiredLks (be body 0 1) = false ∧
      t.mem = s.mem ∧ t.fuses = s.fuses ∧ t.keys = s.keys)) ∧
  (∀ (s : State) (r : Req) (body : Bytes), Served s r .o → r.port = .mgmt → r.bodyLen.toNat = body.length →
    Completes (.mgmtNetSet r body) s (fun t =>
      (∀ m, Config.netSettings body = some m → netOk m = true → t.nvm.mgNet = m ∧ t.mgmt.up = false ∧
        (∀ n, (sessOf s n).port = .mgmt → (sessOf t n).phase = .closed)) ∧
      ((Config.netSettings body).any netOk = false → t.nvm.mgNet = s.nvm.mgNet ∧ t.mgmt.up = s.mgmt.up) ∧ t.fuses = s.fuses ∧ t.mem = s.mem)) ∧
  (∀ (s : State) (m : Byte), s.mgmt.up = false → fwRuns s = true → m = 1 ∨ m = 2 → s.nvm.mgNet.mode = 0 ∨ s.nvm.mgNet.mode.toNat = m.toNat →
    exec (.mgmtPortLinkUp m) s = .next { s with mgmt := { s.mgmt with up := true, mode := m } }) ∧
  (∀ s : State, s.mgmt.up = false → bootHalted s = true →
    exec (.mgmtPortLinkUp 2) s = .next { s with mgmt := { s.mgmt with up := true, mode := 2 } } ∧ exec (.mgmtPortLinkUp 1) s = .next s) ∧
  (∀ s : State, s.mgmt.up = true → exec .mgmtPortLinkDown s = .next { s with mgmt := { s.mgmt with up := false, mode := 0 } })) ∧
  ((∀ (s : State) (r : Req) (body : Bytes), Served s r .o → r.port = .mgmt → HasLength r body 5 → be body 0 1 ≤ 1 →
    be body 0 1 ≠ s.boot.source.toNat → 0 < be body 1 4 → be body 1 4 ≤ 0x04000000 →
    Completes (.fwStageBegin r body) s (fun t => t.nvm.stageSlot = some (be body 0 1, be body 1 4, 0) ∧
      t.nvm.flash = mzero s.nvm.flash (be body 0 1 * 0x04000000) 0x04000000 ∧ t.mem = s.mem ∧ t.fuses = s.fuses ∧ t.boot = s.boot)) ∧
  (∀ (s : State) (r : Req) (body : Bytes) (n len done : Nat), Served s r .o → r.port = .mgmt → 4 ≤ body.length → r.bodyLen.toNat = body.length →
    s.nvm.stageSlot = some (n, len, done) → be body 0 4 = done → body.length - 4 ≤ 32768 → done + (body.length - 4) ≤ len →
    Completes (.fwStageData r body) s (fun t => t.nvm.stageSlot = some (n, len, done + (body.length - 4)) ∧
      t.nvm.flash = mwrite s.nvm.flash (n * 0x04000000 + done) ((body.drop 4).map (· ^^^ 0xFF)) ∧ t.mem = s.mem ∧ t.fuses = s.fuses)) ∧
  (∀ (s : State) (r : Req) (body : Bytes) (n len done : Nat), Served s r .o → r.port = .mgmt → HasLength r body 0 →
    s.nvm.stageSlot = some (n, len, done) →
    Completes (.fwStageEnd r body) s (fun t => t.nvm.stageSlot = none ∧ t.fuses = s.fuses ∧ t.mem = s.mem ∧
      (slotCheck (taken s r) n (slotXspi s n) = 0 → t.nvm.staged = some n ∧ t.nvm.flash = s.nvm.flash) ∧
      (slotCheck (taken s r) n (slotXspi s n) ≠ 0 → t.nvm.staged = s.nvm.staged ∧ t.nvm.flash = mzero s.nvm.flash (n * 0x04000000) 0x04000000))) ∧
  (∀ (s : State) (r : Req) (body : Bytes), Served s r .o → r.port = .mgmt → HasLength r body 0 → s.nvm.staged ≠ none → s.nvm.activation = none →
    s.boot.source.toNat ≤ 1 →
    Completes (.fwActivate r body) s (fun t => t.nvm.activation = some (srcRead s s.boot.source.toNat 0 4096) ∧
      t.nvm.flash = mwrite s.nvm.flash (s.boot.source.toNat * 0x04000000 + 0x200) [0xFF, 0xFF, 0xFF, 0xFF] ∧ t.fuses = s.fuses ∧ t.mem = s.mem)) ∧
  (∀ (s : State) (r : Req) (body copy : Bytes), Served s r .o → r.port = .mgmt → HasLength r body 0 → s.nvm.activation = some copy →
    Completes (.fwAbandon r body) s (fun t => t.nvm.activation = none ∧
      t.nvm.flash = mwrite s.nvm.flash (s.boot.source.toNat * 0x04000000) (copy.map (· ^^^ 0xFF)) ∧ t.fuses = s.fuses ∧ t.mem = s.mem)) ∧
  (∀ (s : State) (r : Req) (body : Bytes), Served s r .o → r.port = .mgmt → HasLength r body 1 → be body 0 1 = s.fuses.svn →
    exec (.svnCommit r body) s = .next (respond r 0x0315 .ok (bytesBE 1 s.fuses.svn) (taken s r))) ∧
  (∀ (s : State) (r : Req) (body : Bytes), Served s r .o → r.port = .mgmt → HasLength r body 1 → s.fuses.svn < be body 0 1 →
    be body 0 1 ≤ s.boot.fwSvn.toNat → s.boot.source = 2 →
    Completes (.svnCommit r body) s (fun t =>
      let u : State := { s with fuses := { s.fuses with svn := be body 0 1 } }
      t.mem = s.mem ∧
      (slotCheck u 0 (slotXspi s 0) = 0 ∨ slotCheck u 1 (slotXspi s 1) = 0 → t.fuses = u.fuses) ∧
      (slotCheck u 0 (slotXspi s 0) ≠ 0 → slotCheck u 1 (slotXspi s 1) ≠ 0 → t.fuses = s.fuses))) ∧
  (∀ (s : State) (r : Req) (body : Bytes), Served s r .o → r.port = .mgmt → HasLength r body 1 → be body 0 1 ≤ 1 →
    (be body 0 1 = 0 → ∀ p < 16, (partOf s p).state = .unused) →
    exec (.deviceReset r body) s = .next (deviceReset (respond r 0x0316 .ok [] (taken s r)))) ∧
  (∀ (s : State) (r : Req) (body : Bytes), Served s r .o → r.port = .mgmt → HasLength r body 1 → be body 0 1 = 0 →
    (∃ p < 16, (partOf s p).state = .assigned ∨ (partOf s p).state = .charter ∨ (partOf s p).state = .resetting ∨ (partOf s p).state = .scrubbing) →
    Completes (.deviceReset r body) s (fun t => Answered s t r 0x0316 .conflict 0 [] ∧ t.parts = s.parts ∧ t.boot = s.boot ∧ t.keys = s.keys ∧
      t.mem = s.mem ∧ t.fuses = s.fuses)))

/-- R412-R414, R414, R416-R418, R420: Second life closes the host's sessions, zeroises the keys and runs its tests; when they end the lines
whose cells failed are retired (which fail is a free value), the record is committed, SECOND_LIVES advances, the fault log is emptied and
the device resets; the ledger is exported signed over the requester's nonce. A titleholder's challenge draws a fresh nonce that lasts 60 s
and one request; a transfer that both keys signed writes its pending record, and its rows follow in their order: the owner-epoch fuse, the
title record with new keys and an empty fault log, the ledger's title entry with the response and the end of the management sessions (at
their latest times: the model's choice, log entry 141); the operator root and the co-signing rule change by the titleholder; retirement,
signed by the titleholder, zeroises keys, scrubs memory and burns RETIRED. What is signed is Config's (log entry 3): the effect is stated
for either outcome.
Commands that it says complete: secondLife, secondLifeTestDone, ledgerExport, titleChallenge, titleTransfer, operatorRootSet, cosignSet,
retire, debugToken, titleNonceExpiry. -/
def Obligations.LedgerAndTitle : Prop :=
  ((∀ (s : State) (r : Req) (body : Bytes), Served s r .o → r.port = .mgmt → HasLength r body 0 → s.fuses.lifecycle = .prod →
    (∀ p < 16, (partOf s p).state = .unused) → s.mgmt.slRun = false →
    Completes (.secondLife r body) s (fun t => t.nvm.secondLife = true ∧ t.mgmt.slRun = true ∧ t.boot.secondLifeWait = true ∧ t.fuses = s.fuses ∧
      (∀ n, n < 0x400 → keyOf t n = []) ∧ (∀ n, (sessOf s n).port = .host → (sessOf t n).phase = .closed))) ∧
  (∀ s : State, fwRuns s = true → s.mgmt.slRun = true → tget 0 s.ledger.counters 13 < 0xFFFE →
    Completes .secondLifeTestDone s (fun t => t.nvm.slDone = true ∧ t.nvm.faultLog = [] ∧ tget 0 t.ledger.counters 13 = tget 0 s.ledger.counters 13 + 1 ∧
      t.ledger.scrubTotal = s.ledger.scrubTotal + 1 ∧ t.nvm.ledger = t.ledger ∧ (∀ n, n < 0x400 → keyOf t n = []) ∧ t.mem = [] ∧ t.fuses.svn = s.fuses.svn ∧
      t.nvm.fold = ((Config.testFaults (draw s).1).foldl (fun u x => retireLine x.1.toNat (x.2.1.toNat, x.2.2.1, x.2.2.2.toNat, false) u)
        (draw s).2).nvm.fold)) ∧
  (∀ (s : State) (r : Req) (body : Bytes), Admitted s r .any → r.port = .mgmt → HasLength r body 64 →
    exec (.ledgerExport r body) s = .next (respond r 0x0320 .ok (ledgerImage s body ++
      padTo 132 (Config.ecdsaSign (keyOf s slotIdentity) (ascii "KAZBA-LEDGER-V1" ++ ledgerImage s body))) (taken s r)))) ∧
  ((∀ (s : State) (r : Req) (body : Bytes), Admitted s r .h → s.fuses.lifecycle ≠ .retired → r.port = .mgmt → HasLength r body 0 →
    Completes (.titleChallenge r body) s (fun t => ∃ v : Nat, t.mgmt.challenge = some (digestOf (bytesBE 64 v), now s) ∧ t.fuses = s.fuses ∧
      t.keys = s.keys ∧ t.mem = s.mem)) ∧
  (∀ (s : State) (n : Digest × Nat), s.mgmt.challenge = some n →
    exec .titleNonceExpiry s = .next { s with mgmt := { s.mgmt with challenge := none } }) ∧
  (∀ (s : State) (r : Req) (body : Bytes), Admitted s r .h → s.fuses.lifecycle ≠ .retired → r.port = .mgmt → HasLength r body 590 → s.fuses.ownerEpoch < 64 → be body 197 1 ≤ 1 →
    Completes (.titleTransfer r body) s (fun t =>
      let msg := ascii "KAZBA-TITLE-V1" ++ bytesBE 8 s.fuses.serial.toNat ++ bytesBE 1 s.fuses.ownerEpoch ++ slice body 262 64 ++ slice body 0 326
      let holder := if s.fuses.ownerEpoch = 0 then Config.titleKeyOf s.fuses.titleKey else (sessOf s r.sess).cred
      let granted := s.fuses.lifecycle = .prod ∧ titleNonce s (slice body 262 64) = true ∧
        Config.ecdsaVerify holder msg (slice body 326 132) = true ∧ Config.ecdsaVerify (slice body 0 133) msg (slice body 458 132) = true ∧
        allIdle s = true ∧ s.nvm.activation = none ∧ s.mgmt.titleRun = none
      t.mgmt.challenge = none ∧ t.mem = s.mem ∧ t.fuses = s.fuses ∧ t.keys = s.keys ∧ t.ledger = s.ledger ∧
      (granted → t.nvm = { s.nvm with pendTitle := some (
          { holder := Config.sha512 (slice body 0 133), opRoot := digestOf (slice body 133 64), cosign := be body 197 1 == 1,
            cosignKey := digestOf (slice body 198 64) }, s.fuses.ownerEpoch + 1) } ∧
        t.mgmt.titleRun = some ⟨r, 1, now s⟩ ∧ (r.tag, 0x0331) ∈ (sessOf t r.sess).busy) ∧
      (¬ granted → t.nvm = s.nvm ∧ t.mgmt.titleRun = s.mgmt.titleRun))) ∧
  (∀ (s : State) (q : TitleRun) (x : Title) (e : Nat), s.mgmt.titleRun = some q → s.nvm.pendTitle = some (x, e) →
    (q.done = 1 → titleStep s = if now s < q.at_ + 50000000 then s else
      { s with fuses := { s.fuses with ownerEpoch := e }, mgmt := { s.mgmt with titleRun := some { q with done := 2 } } }) ∧
    (q.done = 2 → now s < q.at_ + 60000000 → titleStep s = s) ∧
    (q.done = 2 → q.at_ + 60000000 ≤ now s → let t := titleStep s
      t.nvm.title = x ∧ t.nvm.faultLog = [] ∧ t.fuses = s.fuses ∧ t.mem = s.mem ∧ t.mgmt.titleRun = some { q with done := 3 }) ∧
    (q.done = 3 → now s < q.at_ + 100000000 → titleStep s = s) ∧
    (q.done = 3 → q.at_ + 100000000 ≤ now s → let t := titleStep s
      t.mgmt.titleRun = none ∧ t.nvm.pendTitle = none ∧ t.ledger.titleTotal = s.ledger.titleTotal + 1 ∧ t.ledger.ownerEpoch = e ∧
      t.nvm.ledger = t.ledger ∧ t.fuses = s.fuses ∧ (∀ n, (sessOf s n).port = .mgmt → (sessOf t n).phase = .closed))) ∧
  (∀ (s : State) (r : Req) (body : Bytes), Served s r .h → r.port = .mgmt → HasLength r body 64 →
    Completes (.operatorRootSet r body) s (fun t => t.nvm.title = { s.nvm.title with opRoot := digestOf body } ∧ t.fuses = s.fuses ∧ t.mem = s.mem ∧
      (∀ n, (sessOf s n).role = .operator → (sessOf t n).phase = .closed))) ∧
  (∀ (s : State) (r : Req) (body : Bytes), Served s r .h → r.port = .mgmt → HasLength r body 65 → be body 0 1 = 0 → s.nvm.activation = none →
    exec (.cosignSet r body) s = .next (respond r 0x0333 .ok [] { taken s r with
      nvm := { s.nvm with title := { s.nvm.title with cosign := false, cosignKey := digestOf (slice body 1 64) } } })) ∧
  (∀ (s : State) (r : Req) (body : Bytes), Served s r .h → r.port = .mgmt → HasLength r body 132 → s.fuses.lifecycle = .prod →
    Completes (.retire r body) s (fun t =>
      let nonce := match s.mgmt.challenge with | some (d, _) => digestBytes d | none => []
      let granted := titleNonce s nonce = true ∧ allIdle s = true ∧
        Config.ecdsaVerify (sessOf s r.sess).cred (ascii "KAZBA-RETIRE-V1" ++ bytesBE 8 s.fuses.serial.toNat ++ nonce) body = true
      t.mgmt.challenge = none ∧
      (granted → t.fuses = { s.fuses with lifecycle := .retired } ∧ (∀ n, n < 0x400 → keyOf t n = []) ∧ t.ledger.retireSig = body ∧
        t.nvm.ledger = t.ledger) ∧
      (¬ granted → t.fuses = s.fuses ∧ t.keys = s.keys ∧ t.mem = s.mem ∧ t.ledger = s.ledger))) ∧
  (∀ (s : State) (r : Req) (body : Bytes), Served s r .o → r.port = .mgmt → r.bodyLen.toNat = body.length → s.jtag.tokMgmt = none →
    Completes (.debugToken r body) s (fun t => t.fuses = s.fuses ∧ t.keys = s.keys ∧ t.mem = s.mem ∧
      (∀ k, Config.tokenOf body = some k → t.jtag.tokMgmt = some (k, r)) ∧ (Config.tokenOf body = none → t.jtag.tokMgmt = none))))

/-! ## Matrix arrays (chapters 5 and 6) -/

/-- R12, R125, R132, R134, R136, R148-R150, R157: The core takes the head of the queue whose turn it is, after the retirements that wait have
come into force. A descriptor that fails a check completes with the first failed check's code, also one with a zero extent; a MATMUL with no
work that fails none completes with OK; a completion carries one status per split in a split mode. Of any other every split is looked at:
where none conforms the descriptor completes with the first one's status and each split's own, and where one at least conforms it runs with
its latched slot, grain core and epoch, its groups cleared unless it accumulates; no register of a grain core, no other core and no byte of
memory changes. A MATDRAIN row leaves a MATMUL where it stands, and the other way round. The next load of an array fills the bank it goes to
and makes it READY; a bank that its array has released is FILLING again; nothing else changes. A fill for the wrong bank, and a release of a
bank that is not RELEASING, change nothing.
Commands that it says complete: matmul, matdrain, bankFillDone, bankRelease. -/
def Obligations.DescriptorAndBanks : Prop :=
  ((∀ (s : State) (core : BitVec 5) (g : Nat) (d : BitVec 512) (both : Bool), matHead s core.toNat = some (g, d, both) →
    coreLive s core.toNat = true → (arrOf s core.toNat).run = none → matNoop d = true →
    (let p := matPopped core.toNat g both (foldBoundary core.toNat s)
     firstFailure (matChecks p core.toNat g d) = none → exec (.matmul core) s = .next (matEnd core.toNat g d .ok p))) ∧
  (∀ (s : State) (core : BitVec 5) (g : Nat) (d : BitVec 512) (both : Bool) (st : Status), matHead s core.toNat = some (g, d, both) →
    coreLive s core.toNat = true → (arrOf s core.toNat).run = none →
    (let p := matPopped core.toNat g both (foldBoundary core.toNat s)
     firstFailure (matChecks p core.toNat g d) = some st →
     exec (if isDrainOp d then .matdrain core else .matmul core) s = .next (matEnd core.toNat g d st p)) ∧
    exec (if isDrainOp d then .matmul core else .matdrain core) s = .next s) ∧
  (∀ (s : State) (core : BitVec 5) (g : Nat) (d : BitVec 512) (both : Bool), matHead s core.toNat = some (g, d, both) →
    coreLive s core.toNat = true → (arrOf s core.toNat).run = none → matNoop d = false →
    (let p := matPopped core.toNat g both (foldBoundary core.toNat s)
     firstFailure (matChecks p core.toNat g d) = none →
     (∃ sp ∈ activeSplits d, splitFail p core.toNat d (cfgSlot s core.toNat (mCfg d)) sp sp = none) →
     Completes (if isDrainOp d then .matdrain core else .matmul core) s (fun t => ∃ r, (arrOf t core.toNat).run = some r ∧ r.desc = d ∧ r.grain = g ∧
       r.cfg = cfgSlot s core.toNat (mCfg d) ∧ r.epoch = (coreOf s core.toNat).epoch ∧
       tget [] (arrOf t core.toNat).queue g = (tget [] (arrOf s core.toNat).queue g).drop 1 ∧
       (arrOf t core.toNat).groups = (if isDrainOp d || accums d then (arrOf s core.toNat).groups else []) ∧
       (coreOf t core.toNat).grains = (coreOf s core.toNat).grains ∧ (∀ i, i ≠ core.toNat → coreOf t i = coreOf s i) ∧ t.mem = s.mem))) ∧
  (∀ (s : State) (core : BitVec 5) (g : Nat) (d : BitVec 512) (both : Bool) (a : Nat) (l : List Nat) (e : Nat × Nat × Status),
    matHead s core.toNat = some (g, d, both) → coreLive s core.toNat = true → (arrOf s core.toNat).run = none → matNoop d = false →
    activeSplits d = a :: l →
    (let p := matPopped core.toNat g both (foldBoundary core.toNat s)
     let q := cfgSlot s core.toNat (mCfg d)
     firstFailure (matChecks p core.toNat g d) = none → splitFail p core.toNat d q a a = some e →
     (∀ sp ∈ activeSplits d, splitFail p core.toNat d q sp sp ≠ none ∧ splitFail p core.toNat d q a sp ≠ none) →
     Completes (if isDrainOp d then .matdrain core else .matmul core) s (fun t => (arrOf t core.toNat).run = none ∧ t.mem = s.mem ∧
       tget TagState.idle (grainOf (coreOf t core.toNat) g).tags (dTag d) = .done (BitVec.ofNat 16 (statusCode e.2.2)) ∧
       (splitCount d ≠ 0 → tget [] (grainOf (coreOf t core.toNat) g).splitStat (dTag d) =
         (List.range (nSplits d)).map (fun sp => BitVec.ofNat 16 (statusCode
           (if sp ∈ activeSplits d then ((splitFail p core.toNat d q a sp).map (·.2.2)).getD .ok else .ok)))))))) ∧
  ((∀ (s : State) (core : BitVec 5) (a : BitVec 2) (b : BitVec 1) (r : MatRun) (cp ch : Nat), Running s core.toNat r → r.saving = false →
    arrIn s core.toNat a.toNat = true → (loadSeq s core.toNat r)[tget 0 r.loads a.toNat]? = some (cp, ch) →
    tget 0 r.loads a.toNat % 2 = b.toNat → (tget ({} : Bank) (arrOf s core.toNat).banks (2 * a.toNat + b.toNat)).state = .filling →
    Completes (.bankFillDone core a b) s (fun t => ∃ r', (arrOf t core.toNat).run = some r' ∧ tget 0 r'.loads a.toNat = tget 0 r.loads a.toNat + 1 ∧
      (∀ n, n ≠ a.toNat → tget 0 r'.loads n = tget 0 r.loads n) ∧ r'.desc = r.desc ∧ r'.cur = r.cur ∧
      (tget ({} : Bank) (arrOf t core.toNat).banks (2 * a.toNat + b.toNat)).state = .ready ∧
      (tget ({} : Bank) (arrOf t core.toNat).banks (2 * a.toNat + b.toNat)).chunk = ch ∧
      (tget ({} : Bank) (arrOf t core.toNat).banks (2 * a.toNat + b.toNat)).cpass = cp ∧
      (∀ n, n ≠ 2 * a.toNat + b.toNat → tget ({} : Bank) (arrOf t core.toNat).banks n = tget {} (arrOf s core.toNat).banks n) ∧
      (arrOf t core.toNat).groups = (arrOf s core.toNat).groups ∧ t.mem = s.mem ∧ (∀ i, i ≠ core.toNat → coreOf t i = coreOf s i))) ∧
  (∀ (s : State) (core : BitVec 5) (a : BitVec 2) (b : BitVec 1), coreLive s core.toNat = true →
    (tget ({} : Bank) (arrOf s core.toNat).banks (2 * a.toNat + b.toNat)).state = .releasing →
    exec (.bankRelease core a b) s = .next (modArr core.toNat (fun x => { x with
      banks := tmod {} x.banks (2 * a.toNat + b.toNat) (fun k => { k with state := .filling }) }) s)) ∧
  (∀ (s : State) (core : BitVec 5) (a : BitVec 2) (b : BitVec 1),
    (tget ({} : Bank) (arrOf s core.toNat).banks (2 * a.toNat + b.toNat)).state ≠ .releasing → exec (.bankRelease core a b) s = .next s) ∧
  (∀ (s : State) (core : BitVec 5) (a : BitVec 2) (b : BitVec 1) (r : MatRun), (arrOf s core.toNat).run = some r →
    tget 0 r.loads a.toNat % 2 ≠ b.toNat → exec (.bankFillDone core a b) s = .next s))

/-- R129, R131, R138, R142-R144, R151, R163: At a place of the fold loop whose banks are loaded, and where no drain waits, one wavefront enters
with the tag that the place gives; it is left out and counted instead exactly where every streamed tile under it is a zero or skip tile
(R144), or SKIP_ZEROS is set, every streamed value is a zero and the bank's k-block holds no special value (R143). Either way the loop moves
on by one place. Where the bank is not yet loaded nothing enters, but for the marker-only wavefront that carries the tail marker of a bank
still in use where every wavefront of the load between was left out (R160). A cell meets its next wavefront: the operands of its split meet
its group, and it moves past; the drain marker moves the drained group into the read-out register and clears the group. No other cell's
group, no bank and no byte of memory changes.
Commands that it says complete: wavefrontEnter, cellWindowAdd, drainMarkerCapture. -/
def Obligations.WavefrontAndCells : Prop :=
  ((∀ (s : State) (core : BitVec 5) (r : MatRun) (it : MatItem) (b : RowBlk), Running s core.toNat r → r.saving = false →
    isDrainOp r.desc = false → r.pendDrain = none → r.drain = none → r.plan[r.cur.item]? = some it → it.blks[r.cur.block]? = some b →
    (r.cur.item = 0 ∨ it.dry = true ∨ ∀ q, r.plan[r.cur.item - 1]? = some q → q.dry = false) →
    (∀ a ∈ busyArrays s core.toNat r.desc it.cpass, loadAt s core.toNat r r.cur.item r.cur.chunk < tget 0 r.loads a) →
    (let w := kWidth s core.toNat r
     let k0 := r.cur.chunk * chunkK s core.toNat r + r.cur.kblk * w
     let bank := loadAt s core.toNat r r.cur.item r.cur.chunk % 2
     let omitted := allNoneTiles s core.toNat r b k0 w = true ∨
       (mSkip r.desc = true ∧ allZeroVals s core.toNat r b k0 w = true ∧ ∀ a ∈ busyArrays s core.toNat r.desc it.cpass,
         r.cur.kblk ∉ (tget ({} : Bank) (arrOf s core.toNat).banks (2 * a + bank)).special)
     Completes (.wavefrontEnter core) s (fun t => ∃ r', (arrOf t core.toNat).run = some r' ∧ r'.desc = r.desc ∧ r'.plan = r.plan ∧
      r'.cur = (cursorNext s core.toNat r it).1 ∧ t.mem = s.mem ∧ (∀ i, i ≠ core.toNat → coreOf t i = coreOf s i) ∧
      (arrOf t core.toNat).groups = (arrOf s core.toNat).groups ∧
      (omitted → (arrOf t core.toNat).flight = (arrOf s core.toNat).flight ∧
        (ctxOf t (coreCtx s core.toNat)).skipped = (ctxOf s (coreCtx s core.toNat)).skipped + 1 ∧
        (arrOf t core.toNat).banks = (arrOf s core.toNat).banks) ∧
      (¬ omitted → (ctxOf t (coreCtx s core.toNat)).skipped = (ctxOf s (coreCtx s core.toNat)).skipped ∧
        (∀ a ∈ arraysIn s core.toNat, (tget ({} : Bank) (arrOf t core.toNat).banks (2 * a + bank)).state = .active) ∧
        ∃ x : Wave, (arrOf t core.toNat).flight = (arrOf s core.toNat).flight ++ [x] ∧ x.blk = b ∧ x.cpass = it.cpass ∧
          tOperands x.tag = true)))) ∧
  (∀ (s : State) (core : BitVec 5) (r : MatRun) (it : MatItem) (b : RowBlk), (arrOf s core.toNat).run = some r →
    isDrainOp r.desc = false → r.pendDrain = none → r.plan[r.cur.item]? = some it → it.blks[r.cur.block]? = some b →
    r.cur.item = 0 → (∃ a ∈ busyArrays s core.toNat r.desc it.cpass, tget 0 r.loads a ≤ loadAt s core.toNat r r.cur.item r.cur.chunk) →
    (let load := loadAt s core.toNat r r.cur.item r.cur.chunk
     let serves := fun a => (tget ({} : Bank) (arrOf s core.toNat).banks (2 * a + load % 2)).state = .active
     ((load = 0 ∨ ∀ a ∈ busyArrays s core.toNat r.desc it.cpass, ¬serves a) → exec (.wavefrontEnter core) s = .next s) ∧
     (Running s core.toNat r → r.saving = false → 0 < load → (∃ a ∈ busyArrays s core.toNat r.desc it.cpass, serves a) →
       Completes (.wavefrontEnter core) s (fun t => ∃ r', (arrOf t core.toNat).run = some r' ∧ r'.cur = r.cur ∧ r'.desc = r.desc ∧
         (∃ w : Wave, (arrOf t core.toNat).flight = (arrOf s core.toNat).flight ++ [w] ∧ tOperands w.tag = false ∧ fld w.tag 55 55 = 1 - load % 2) ∧
         (∀ a ∈ arraysIn s core.toNat, (tget ({} : Bank) (arrOf t core.toNat).banks (2 * a + load % 2)).state ≠ .active) ∧
         (arrOf t core.toNat).groups = (arrOf s core.toNat).groups ∧ t.mem = s.mem)))) ∧
  (∀ (s : State) (core : BitVec 5), (arrOf s core.toNat).run = none → exec (.wavefrontEnter core) s = .next s)) ∧
  ((∀ (s : State) (core : BitVec 5) (a : BitVec 2) (row col : BitVec 7) (r : MatRun) (n : Nat) (done : Bool) (w : Wave) (sp i : Nat),
    Running s core.toNat r → row.toNat ≤ 64 → col.toNat < 68 →
    nextWave s core.toNat (cellKey a.toNat row.toNat col.toNat) = some (n, done, w) → (tDrain w.tag = true → done = true) →
    cellSplit s core.toNat a.toNat col.toNat w.cpass r = some sp → logicalRow s core.toNat a.toNat row.toNat = some i →
    tOperands w.tag = true → tValid w.tag sp = true →
    (i = 64 ∨ i < ((w.blk.parts.find? (fun p => p.1 == sp)).map (fun p => p.2.2)).getD 0) → (row.toNat ≠ 64 ∨ col.toNat < 64) →
    Completes (.cellWindowAdd core a row col) s (fun t =>
      tget 0 (arrOf t core.toNat).groups (groupKey w.cpass (cellKey a.toNat row.toNat col.toNat) (tGroup w.tag)) =
        (cellAdd (tget 0 (arrOf s core.toNat).groups (groupKey w.cpass (cellKey a.toNat row.toNat col.toNat) (tGroup w.tag)))
          (tget [] w.a (sp * 128 + i)) (tget [] w.b (a.toNat * 128 + col.toNat))).1 ∧
      (∀ k, k ≠ groupKey w.cpass (cellKey a.toNat row.toNat col.toNat) (tGroup w.tag) →
        tget 0 (arrOf t core.toNat).groups k = tget 0 (arrOf s core.toNat).groups k) ∧
      tget 0 (arrOf t core.toNat).pos (cellKey a.toNat row.toNat col.toNat) = 2 * (n + 1) ∧
      (arrOf t core.toNat).flight = (arrOf s core.toNat).flight ∧ (arrOf t core.toNat).banks = (arrOf s core.toNat).banks ∧ t.mem = s.mem)) ∧
  (∀ (s : State) (core : BitVec 5) (a : BitVec 2) (row col : BitVec 7) (r : MatRun) (n : Nat) (w : Wave) (dr : MatDrain),
    Running s core.toNat r → r.drain = some dr → row.toNat ≤ 64 → col.toNat < 68 →
    nextWave s core.toNat (cellKey a.toNat row.toNat col.toNat) = some (n, false, w) → tDrain w.tag = true →
    Completes (.drainMarkerCapture core a row col) s (fun t =>
      tget 0 (arrOf t core.toNat).readout (cellKey a.toNat row.toNat col.toNat) =
        tget 0 (arrOf s core.toNat).groups (groupKey dr.cpass (cellKey a.toNat row.toNat col.toNat) (tDrainGroup w.tag)) ∧
      tget 0 (arrOf t core.toNat).groups (groupKey dr.cpass (cellKey a.toNat row.toNat col.toNat) (tDrainGroup w.tag)) = 0 ∧
      (∀ k, k ≠ groupKey dr.cpass (cellKey a.toNat row.toNat col.toNat) (tDrainGroup w.tag) →
        tget 0 (arrOf t core.toNat).groups k = tget 0 (arrOf s core.toNat).groups k) ∧
      tget 0 (arrOf t core.toNat).pos (cellKey a.toNat row.toNat col.toNat) = (if tOperands w.tag = true then 2 * n + 1 else 2 * (n + 1)) ∧
      OnlyCore core.toNat s t)) ∧
  (∀ (s : State) (core : BitVec 5) (a : BitVec 2) (row col : BitVec 7) (n : Nat) (w : Wave),
    nextWave s core.toNat (cellKey a.toNat row.toNat col.toNat) = some (n, false, w) → tDrain w.tag = true →
    exec (.cellWindowAdd core a row col) s = .next s))

/-- R164, R165: a finite sum s·2^e that is not zero meets a group with NAN = 0. While SHED stays 0 the group's value grows by exactly
that sum, and no flag changes; SHED is sticky; where no infinity is made the group's value differs from the exact one by less than one
unit of its window's last place, and a value that is positive does not turn negative. -/
def Obligations.WindowAddIsExactUntilShed : Prop :=
  ∀ (g : Group) (sm e : Int) (code : Nat), gNan g = false → sm ≠ 0 → -1040 ≤ e →
    (gShed (windowAdd g sm e code).1 = false →
      groupInt (windowAdd g sm e code).1 = groupInt g + sm * 2 ^ (e + 1040).toNat ∧ (windowAdd g sm e code).2 = false ∧
      fld (windowAdd g sm e code).1 111 107 = fld g 111 107) ∧
    (gShed g = true → gShed (windowAdd g sm e code).1 = true) ∧
    (gPinf (windowAdd g sm e code).1 = false → gNinf (windowAdd g sm e code).1 = false →
      (groupInt g + sm * 2 ^ (e + 1040).toNat - groupInt (windowAdd g sm e code).1).natAbs < 2 ^ gAnchor (windowAdd g sm e code).1 ∧
      (0 ≤ groupInt g + sm * 2 ^ (e + 1040).toNat → 0 ≤ groupInt (windowAdd g sm e code).1) ∧
      (groupInt g + sm * 2 ^ (e + 1040).toNat ≤ 0 → groupInt (windowAdd g sm e code).1 ≤ 0) ∧
      (groupInt (windowAdd g sm e code).1).natAbs < 2 ^ (95 + gAnchor (windowAdd g sm e code).1))

/-- R151, R155, R157, R173, R174, R175, R176, R191: A captured row of the draining block is read out once, and not while a running descriptor of
another unit retains the output tile's slot; when every row of a split and its checksum row have been read, the split is compared, and the
drain ends when each split of the block has been compared. Mismatches that await a decision. The timeout keeps each of them; KEEP keeps
those found a third time; FAIL_STEP keeps each and marks the descriptor as failed; REEXECUTE takes those found the first time: while the
stream runs they are marked for the re-execution, and at its end their rows run again from the retained grids, counted; RETIRE_AND_REEXECUTE
takes those found a second time at one and the same cell, and the retirement of its column comes into force with the re-execution, or waits
where groups are held. A compare's decisions change no group, no byte of memory and no fold map but so. With nothing undecided a decision
changes nothing.
Commands that it says complete: rowReadout, checksumCompare, reexecute, retireAndReexecute, keep, failStep, mismatchDecisionTimeout. -/
def Obligations.ReadOutAndDecisions : Prop :=
  ((∀ (s : State) (core : BitVec 5) (sp : BitVec 2) (row : BitVec 7) (r : MatRun) (dr : MatDrain) (p : RowPart), Running s core.toNat r →
    r.drain = some dr → dr.blk.parts.find? (fun q => q.1 == sp.toNat) = some p →
    (∀ x ∈ rowCells s core.toNat r.desc sp.toNat dr.cpass row.toNat, 2 * dr.wave + 1 ≤ tget 0 (arrOf s core.toNat).pos (cellKey x.1 x.2.1 x.2.2)) →
    sp.toNat * 128 + row.toNat ∉ dr.rows → (row.toNat = 64 ∨ row.toNat < p.2.2) →
    outStalls s core.toNat r sp.toNat ((p.2.1 + row.toNat) / natMax 1 (mOutRows r.desc)) = false →
    Completes (.rowReadout core sp row) s (fun t => ∃ r' dr', (arrOf t core.toNat).run = some r' ∧ r'.drain = some dr' ∧ r'.desc = r.desc ∧
      dr'.rows = dr.rows ++ [sp.toNat * 128 + row.toNat] ∧ dr'.blk = dr.blk ∧ dr'.cmp = dr.cmp ∧
      (arrOf t core.toNat).groups = (arrOf s core.toNat).groups ∧ (∀ i, i ≠ core.toNat → coreOf t i = coreOf s i) ∧
      (row.toNat = 64 → t.mem = s.mem))) ∧
  (∀ (s : State) (core : BitVec 5) (sp : BitVec 2) (row : BitVec 7) (r : MatRun) (dr : MatDrain) (p : RowPart), (arrOf s core.toNat).run = some r →
    r.drain = some dr → dr.blk.parts.find? (fun q => q.1 == sp.toNat) = some p →
    outStalls s core.toNat r sp.toNat ((p.2.1 + row.toNat) / natMax 1 (mOutRows r.desc)) = true →
    exec (.rowReadout core sp row) s = .next s) ∧
  (∀ (s : State) (core : BitVec 5) (sp : BitVec 2) (r : MatRun) (dr : MatDrain) (p : RowPart), Running s core.toNat r → r.drain = some dr →
    dr.blk.parts.find? (fun q => q.1 == sp.toNat) = some p → sp.toNat ∉ dr.cmp →
    (∀ i ∈ List.range p.2.2 ++ [64], sp.toNat * 128 + i ∈ dr.rows) →
    Completes (.checksumCompare core sp) s (fun t => ∃ r', (arrOf t core.toNat).run = some r' ∧ r'.desc = r.desc ∧
      ((∀ q ∈ dr.blk.parts, q.1 = sp.toNat ∨ q.1 ∈ dr.cmp) → r'.drain = none) ∧
      ((∃ q ∈ dr.blk.parts, q.1 ≠ sp.toNat ∧ q.1 ∉ dr.cmp) → r'.drain = some { dr with cmp := dr.cmp ++ [sp.toNat] }) ∧
      (arrOf t core.toNat).groups = (arrOf s core.toNat).groups ∧ (∀ i, i ≠ core.toNat → coreOf t i = coreOf s i))) ∧
  (∀ (s : State) (core : BitVec 5) (sp : BitVec 2) (r : MatRun) (dr : MatDrain) (i : Nat) (p : RowPart), (arrOf s core.toNat).run = some r →
    r.drain = some dr → dr.blk.parts.find? (fun q => q.1 == sp.toNat) = some p → i < p.2.2 → sp.toNat * 128 + i ∉ dr.rows →
    exec (.checksumCompare core sp) s = .next s)) ∧
  ((∀ (s : State) (core : BitVec 5) (r : MatRun), Running s core.toNat r → undecided r = true →
    Completes (.mismatchDecisionTimeout core) s (fun t => (matOf t core.toNat).mism = r.mism.filter (·.again) ∧ (matOf t core.toNat).desc = r.desc ∧
      (matOf t core.toNat).kept = r.kept ++ r.mism.filter (fun m => !m.again) ∧ (arrOf t core.toNat).groups = (arrOf s core.toNat).groups ∧
      t.nvm.fold = s.nvm.fold) ∧
    (planDone r = false → Completes (.failStep core) s (fun t => (matOf t core.toNat).mism = r.mism.filter (·.again) ∧
      (matOf t core.toNat).kept = r.kept ++ r.mism.filter (fun m => !m.again) ∧ (matOf t core.toNat).failStep = true ∧ t.nvm.fold = s.nvm.fold ∧
      (arrOf t core.toNat).groups = (arrOf s core.toNat).groups)) ∧
    ((∀ m ∈ r.mism, m.again = false ∧ 2 ≤ tget 0 r.reexec (blkKey m)) → Completes (.keep core) s (fun t =>
      (matOf t core.toNat).mism = [] ∧ (matOf t core.toNat).kept = r.kept ++ r.mism ∧ (matOf t core.toNat).reexec = r.reexec ∧ t.nvm.fold = s.nvm.fold))) ∧
  (∀ (s : State) (core : BitVec 5) (r : MatRun), Running s core.toNat r → undecided r = true →
    (∀ m ∈ r.mism, m.again = false ∧ tget 0 r.reexec (blkKey m) = 0) →
    (planDone r = false → Completes (.reexecute core) s (fun t => (matOf t core.toNat).mism = r.mism.map (fun m => { m with again := true }) ∧
      (matOf t core.toNat).kept = r.kept ∧ (matOf t core.toNat).reexec = r.reexec ∧ (arrOf t core.toNat).groups = (arrOf s core.toNat).groups ∧
      t.mem = s.mem ∧ t.nvm.fold = s.nvm.fold)) ∧
    (planDone r = true → (∀ m ∈ r.mism, 0 < m.rows) → arraysIn s core.toNat ≠ [] → 0 < rowHeight s core.toNat → (coreOf s core.toNat).pendFold = [] →
      Completes (.reexecute core) s (fun t => (matOf t core.toNat).mism = [] ∧ planDone (matOf t core.toNat) = false ∧
        (matOf t core.toNat).kept = r.kept ∧ (∀ m ∈ r.mism, 0 < tget 0 (matOf t core.toNat).reexec (blkKey m)) ∧
        t.mem = s.mem ∧ t.nvm.fold = s.nvm.fold))) ∧
  (∀ (s : State) (core : BitVec 5) (a : BitVec 2) (i : BitVec 6) (r : MatRun), Running s core.toNat r → undecided r = true →
    popcount 64 (foldOf s core.toNat a.toNat).cols.toNat < 4 →
    (∀ m ∈ r.mism, m.again = false ∧ tget 0 r.reexec (blkKey m) = 1 ∧ m.kind = 1 ∧ m.array = a.toNat ∧ m.col = i.toNat ∧
      (tget {} r.placed (blkKey m)).kind = 1 ∧ (tget {} r.placed (blkKey m)).array = a.toNat ∧ (tget {} r.placed (blkKey m)).row = m.row ∧
      (tget {} r.placed (blkKey m)).col = i.toNat) →
    (planDone r = false → Completes (.retireAndReexecute core a false i) s (fun t =>
      (matOf t core.toNat).mism = r.mism.map (fun m => { m with again := true }) ∧
      (coreOf t core.toNat).pendFold = (coreOf s core.toNat).pendFold ++ [(a.toNat, false, i.toNat, false)] ∧ t.nvm.fold = s.nvm.fold ∧ t.mem = s.mem)) ∧
    (planDone r = true → foldWaits s core.toNat = false → (coreOf s core.toNat).pendFold = [] →
      Completes (.retireAndReexecute core a false i) s (fun t => (matOf t core.toNat).mism = [] ∧ (coreOf t core.toNat).pendFold = [] ∧
        ((foldOf t core.toNat a.toNat).retired = true ∨ bit (foldOf t core.toNat a.toNat).cols i.toNat = true) ∧
        (∀ c b, b < 4 → (c ≠ core.toNat ∨ b ≠ a.toNat) → foldOf t c b = foldOf s c b)))) ∧
  (∀ (s : State) (core : BitVec 5) (r : MatRun) (a : BitVec 2) (isRow : Bool) (i : BitVec 6), (arrOf s core.toNat).run = some r → undecided r = false →
    exec (.keep core) s = .next s ∧ exec (.failStep core) s = .next s ∧ exec (.reexecute core) s = .next s ∧
    exec (.retireAndReexecute core a isRow i) s = .next s ∧ exec (.mismatchDecisionTimeout core) s = .next s))

/-- R136, R153, R171, R186: once everything is streamed, drained, compared and decided, and every tile finished, the descriptor
completes: its tag is DONE with the first split status that is not OK, with one status per split in a split mode, the arrays are free
and groups that a hold mode keeps stay held. A SAVE that a switch or a fence asked for freezes the groups once no decision is awaited
and no block is being read out, and its marker enters the arrays.
Commands that it says complete: matrixCompletion, arraySave. -/
def Obligations.MatrixCompletionAndSave : Prop :=
  (∀ (s : State) (core : BitVec 5) (r : MatRun), Running s core.toNat r → planDone r = true → r.mism = [] → drains r.desc = false → r.failStep = false →
    Completes (.matrixCompletion core) s (fun t => (arrOf t core.toNat).run = none ∧ (arrOf t core.toNat).flight = [] ∧
      (holdsMode r.desc = true → ∃ h, (arrOf t core.toNat).held = some h ∧ h.shape = heldShape r.desc ∧ h.grain = r.grain) ∧
      (∃ st, tget TagState.idle (grainOf (coreOf t core.toNat) r.grain).tags (dTag r.desc) = .done st) ∧ t.mem = s.mem)) ∧
  (∀ (s : State) (core : BitVec 5) (r : MatRun), Running s core.toNat r → planDone r = true → r.mism = [] → drains r.desc = true → r.failStep = false →
    (∀ sp ∈ liveSplits r, ∀ i < ceilDiv (mM r.desc sp) (natMax 1 (mOutRows r.desc)), (tget {} r.tiles (tileKey sp i)).final = true) →
    Completes (.matrixCompletion core) s (fun t => (arrOf t core.toNat).run = none ∧ (arrOf t core.toNat).held = none ∧
      tget TagState.idle (grainOf (coreOf t core.toNat) r.grain).tags (dTag r.desc) = .done (BitVec.ofNat 16 (statusCode (matStatus r))) ∧
      (splitCount r.desc ≠ 0 → tget [] (grainOf (coreOf t core.toNat) r.grain).splitStat (dTag r.desc) =
        (List.range (nSplits r.desc)).map (fun sp => BitVec.ofNat 16 (statusCode (tget Status.ok r.split sp)))) ∧ t.mem = s.mem)) ∧
  (∀ (s : State) (core : BitVec 5) (r : MatRun), (arrOf s core.toNat).run = some r → planDone r = false → exec (.matrixCompletion core) s = .next s) ∧
  (∀ (s : State) (core : BitVec 5) (c : Nat), isReady s = true → (coreOf s core.toNat).ctx = some c → (ctxOf s c).switching = true →
    (arrOf s core.toNat).run = none →
    Completes (.arraySave core) s (fun t => (arrOf t core.toNat).save = (arrOf s core.toNat).groups ∧ (arrOf t core.toNat).groups = (arrOf s core.toNat).groups ∧
      (∃ w : Wave, (arrOf t core.toNat).flight = (arrOf s core.toNat).flight ++ [w] ∧ fld w.tag 58 58 = 1 ∧ tOperands w.tag = false) ∧
      OnlyCore core.toNat s t)) ∧
  (∀ (s : State) (core : BitVec 5) (c : Nat) (r : MatRun), isReady s = true → (coreOf s core.toNat).ctx = some c → (ctxOf s c).state = .fencing →
    (ctxOf s c).saveReq = true → (arrOf s core.toNat).run = some r → undecided r = false → r.drain = none → r.saving = false →
    Completes (.arraySave core) s (fun t => (arrOf t core.toNat).save = (arrOf t core.toNat).groups ∧ (matOf t core.toNat).saving = true ∧
      (matOf t core.toNat).desc = r.desc ∧ (matOf t core.toNat).mism = r.mism ∧ t.mem = s.mem))

/-! ## The vector engine (chapter 7) -/

/-- R187, R190, R191, R205, R209, R210, R212: The head of a queue starts where its channels are free and its turn has come. One that fails a
check ends with the first failed check's code, also one with nothing to do (R12, R13); one with nothing to do that fails none ends with OK;
a chain whose source tiles pass runs on the channels of its mask, each at its first row; a source tile that fails ends it with the failure's
code. A parameter update whose source tiles pass updates every element in one row of the table: its channels are done, its run waits for
completion, and no byte outside the tiles of its destinations changes. Where no tile is read and written, the weight tile holds at every
point the weight that R212 makes of the gradient, the weight and the moments there. One element's update stores its weight and keeps its
moments for the scales of their rows, and counts a gradient that is not finite. A run whose channels are all done completes: its channels
and its run are gone, and its tag is DONE with the run's status; a stopped run writes no tile. A run with a channel that goes on does not
complete.
Commands that it says complete: vchain, optUpdate, vectorCompletion. -/
def Obligations.ChainStartAndEnd : Prop :=
  ((∀ (s : State) (core : BitVec 5) (g : BitVec 1) (d : VDesc), VecReady s core g d → firstFailure (vChecks s core.toNat d) = none → vNoop d = true →
    exec (if isUpdate d then .optUpdate core g else .vchain core g) s =
      .next (tagDone core.toNat g.toNat (dTag d.hdr) .ok (summNoop core.toNat g.toNat d (vecPopped core.toNat g (vecTurn s core.toNat g.toNat).2 s)))) ∧
  (∀ (s : State) (core : BitVec 5) (g : BitVec 1) (d : VDesc) (st : Status), VecReady s core g d →
    firstFailure (vChecks s core.toNat d) = some st →
    exec (if isUpdate d then .optUpdate core g else .vchain core g) s =
      .next (vecRefuse core.toNat g.toNat d st (vecPopped core.toNat g (vecTurn s core.toNat g.toNat).2 s))) ∧
  (∀ (s : State) (core : BitVec 5) (g : BitVec 1) (d : VDesc), VecReady s core g d → vNoop d = false → isUpdate d = false →
    firstFailure (vChecks s core.toNat d) = none → (∀ e ∈ sourceTiles d, sourceFail s core.toNat (viewOf d e.1) e.2 = none) →
    Completes (.vchain core g) s (fun t => (runOf t core.toNat (((vChans d).head?).getD 0)).d = d ∧
      (runOf t core.toNat (((vChans d).head?).getD 0)).grain = g.toNat ∧ (runOf t core.toNat (((vChans d).head?).getD 0)).epoch = (coreOf s core.toNat).epoch ∧
      (∀ ch ∈ vChans d, (chanOf t core.toNat ch).busy = true ∧ (chanOf t core.toNat ch).row = firstRow d ch ∧ (chanOf t core.toNat ch).pc = 0 ∧
        (chanOf t core.toNat ch).done = decide (nRows d ≤ firstRow d ch)) ∧
      (∀ ch, ch ∉ vChans d → chanOf t core.toNat ch = chanOf s core.toNat ch) ∧
      tget [] (coreOf t core.toNat).vec.queue g.toNat = (tget [] (coreOf s core.toNat).vec.queue g.toNat).drop 1 ∧
      (coreOf t core.toNat).grains = (coreOf s core.toNat).grains ∧ t.mem = s.mem ∧ ∀ i, i ≠ core.toNat → coreOf t i = coreOf s i)) ∧
  (∀ (s : State) (core : BitVec 5) (g : BitVec 1) (d : VDesc) (o : Nat) (st : Status), VecReady s core g d → vNoop d = false →
    firstFailure (vChecks s core.toNat d) = none → (sourceTiles d).findSome? (fun e => sourceFail s core.toNat (viewOf d e.1) e.2) = some (o, st) →
    Completes (if isUpdate d then .optUpdate core g else .vchain core g) s (fun t =>
      tget TagState.idle (grainOf (coreOf t core.toNat) g.toNat).tags (dTag d.hdr) = .done (BitVec.ofNat 16 (statusCode st)) ∧
      (coreOf t core.toNat).vec.runs = (coreOf s core.toNat).vec.runs ∧ t.mem = s.mem))) ∧
  ((∀ (s : State) (core : BitVec 5) (g : BitVec 1) (d : VDesc), VecReady s core g d → vNoop d = false → isUpdate d = true →
    firstFailure (vChecks s core.toNat d) = none → (∀ e ∈ sourceTiles d, sourceFail s core.toNat (viewOf d e.1) e.2 = none) →
    Completes (.optUpdate core g) s (fun t => (runOf t core.toNat (((vChans d).head?).getD 0)).d = d ∧
      (runOf t core.toNat (((vChans d).head?).getD 0)).grain = g.toNat ∧
      (∀ ch ∈ vChans d, (chanOf t core.toNat ch).busy = true ∧ (chanOf t core.toNat ch).done = true) ∧
      tget [] (coreOf t core.toNat).vec.queue g.toNat = (tget [] (coreOf s core.toNat).vec.queue g.toNat).drop 1 ∧
      (∀ a, (∀ n ∈ updOuts d, ∀ k < vwTiles (viewOf d n), a < vwAddr core.toNat (viewOf d n) k ∨
          vwAddr core.toNat (viewOf d n) k + 64 + vwPayload (viewOf d n) ≤ a) → mget t.mem a = mget s.mem a) ∧
      (Memory.wf s.mem = true → (updOuts d).Pairwise (fun n m => Apart (viewOf d n) (viewOf d m)) →
        (∀ hi ∈ [143, 137, 131, 125], ∀ n ∈ updOuts d, Apart (updView d hi) (viewOf d n)) →
        (∀ q < nRows d, ∀ q' < nRows d, ∀ j < ((vExts d)[0]?).getD 0, ∀ j' < ((vExts d)[0]?).getD 0, (q, j) ≠ (q', j') →
          vwPlace (updView d 119) (vwElem (updView d 119) (j :: rowPoint d q)) ≠ vwPlace (updView d 119) (vwElem (updView d 119) (j' :: rowPoint d q'))) →
        ∀ q < nRows d, ∀ j < ((vExts d)[0]?).getD 0, let i := j :: rowPoint d q
          (∀ hi ∈ [143, 137, 131, 125], hSkip (tileHdr s.mem (vwAddr core.toNat (updView d hi) (vwPlace (updView d hi) (vwElem (updView d hi) i)).1)) = false) →
          storedCode t.mem core.toNat (updView d 119) i = viewCode d (updView d 119)
            ((decode32 (updResult s core.toNat d (biasCorr d (BitVec.ofNat 32 (updNum d 511))).1 (biasCorr d (BitVec.ofNat 32 (updNum d 479))).1 i).1.toNat).1, 0)) ∧
      ∀ i, i ≠ core.toNat → coreOf t i = coreOf s i)) ∧
  (∀ (s : State) (x : VX) (c1 c2 : W32) (j : Nat), isUpdate x.d = true → StoresPlain s x (updView x.d 119) → vwFmt (updView x.d 119) = 0x0A →
    (∀ hi ∈ [113, 107], vwMode (updView x.d hi) = 3) → (updOuts x.d).Pairwise (fun n m => Apart (viewOf x.d n) (viewOf x.d m)) →
    (∀ n ∈ updOuts x.d, (vwPlace (viewOf x.d n) (vwElem (viewOf x.d n) (j :: rowPoint x.d x.row))).1 < vwTiles (viewOf x.d n) ∧
      viewBad (viewOf x.d n) = false ∧ footprint (vwPayload (viewOf x.d n)) ≤ vwSlot (viewOf x.d n) * 64) →
    pointSkip s x (j :: rowPoint x.d x.row) = false → x.n = 0 → j < 2 ^ 24 → Fresh s x (updView x.d 119) (j :: rowPoint x.d x.row) →
    (let t := updOne x c1 c2 j s
     let r := updResult s x.core x.d c1 c2 (j :: rowPoint x.d x.row)
     storedCode t.mem x.core (updView x.d 119) (j :: rowPoint x.d x.row) = viewCode x.d (updView x.d 119) ((decode32 r.1.toNat).1, 0) ∧
     tget vzero (chanOf t x.core x.ch).hold (1 * 2 ^ 24 + j) = (decode32 r.2.1.toNat).1 ∧
     tget vzero (chanOf t x.core x.ch).hold (2 * 2 ^ 24 + j) = (decode32 r.2.2.1.toNat).1 ∧
     (runOf t x.core x.key).nonfin = if r.2.2.2 = true then natMin ((runOf s x.core x.key).nonfin + 1) (2 ^ 64 - 1) else (runOf s x.core x.key).nonfin)) ∧
  (∀ (s : State) (core : BitVec 5) (ch : BitVec 3) (key : Nat) (r : VecRun), coreLive s core.toNat = true → runKey s core.toNat ch.toNat = some key →
    runOf s core.toNat key = r → (∀ c ∈ vChans r.d, (chanOf s core.toNat c).done = true) → vecStalled s core.toNat r.d = false →
    Completes (.vectorCompletion core ch) s (fun t => (∀ e ∈ (coreOf t core.toNat).vec.runs, e.1 ≠ key) ∧
      (∀ c ∈ vChans r.d, chanOf t core.toNat c = {}) ∧ (∀ c, c ∉ vChans r.d → chanOf t core.toNat c = chanOf s core.toNat c) ∧
      tget TagState.idle (grainOf (coreOf t core.toNat) r.grain).tags (dTag r.d.hdr) =
        .done (BitVec.ofNat 16 (statusCode (if r.status ≠ .ok then r.status else if r.crcBad then .checksumFail else .ok))) ∧
      (r.status ≠ .ok → t.mem = s.mem) ∧ ∀ i, i ≠ core.toNat → coreOf t i = coreOf s i)) ∧
  (∀ (s : State) (core : BitVec 5) (ch : BitVec 3) (key c : Nat), runKey s core.toNat ch.toNat = some key → c ∈ vChans (runOf s core.toNat key).d →
    (chanOf s core.toNat c).done = false → exec (.vectorCompletion core ch) s = .next s))

/-- R195-R197: ADD, SUB, MUL, FMA, DIV, SQRT, MAX, MIN, ABS, NEG and FUNC write VD of each active lane with the operation's result on
VA, VB and VC as the instruction's type has them, and change no other register, no memory, no other channel and no other core. At the
end of a phase the channel goes on to the next phase or row.
Commands that it says complete: vecAdd, vecSub, vecMul, vecFma, vecDiv, vecSqrt, vecMax, vecMin, vecAbs, vecNeg, vecFunc. -/
def Obligations.LaneArithmetic : Prop :=
  ∀ (i : BitVec 5 → BitVec 3 → Instr) (op : Nat) (sub : Nat) (f : Val → Val → Val → Val × Exc) (h : Int → Int → Int),
    (i, op, f, h) ∈ [(Instr.vecAdd, 0x10, (fun a b _ => vAdd a b), (fun a b => a + b)), (Instr.vecSub, 0x11, (fun a b _ => vSub a b), (fun a b => a - b)),
      (Instr.vecMul, 0x12, (fun a b _ => vMul a b), (fun a b => a * b)), (Instr.vecFma, 0x13, vFma, (fun a _ => a)),
      (Instr.vecDiv, 0x14, (fun a b _ => vDiv a b), (fun a _ => a)), (Instr.vecSqrt, 0x15, (fun a _ _ => vSqrt a), (fun a _ => a)),
      (Instr.vecMax, 0x16, (fun a b _ => Machine.vMax a b), (fun a b => if a < b then b else a)),
      (Instr.vecMin, 0x17, (fun a b _ => Machine.vMin a b), (fun a b => if b < a then b else a)),
      (Instr.vecAbs, 0x18, (fun a _ _ => (vabs a, 0)), (fun a _ => (a.natAbs : Int))),
      (Instr.vecNeg, 0x19, (fun a _ _ => (vneg a, 0)), (fun a _ => -a)),
      (Instr.vecFunc, 0x1A, (fun a _ _ => vFunc sub a), (fun a _ => a))] →
    ∀ (s : State) (core : BitVec 5) (ch : BitVec 3) (x : VX), AtInstr s core ch x → xOp x.w = op → (op = 0x1A → xSub x.w = sub) →
      exec (i core ch) s = .next (advance x (aluStep x f h s)) ∧
      (Inside s x → LanesWritten s (advance x (aluStep x f h s)) x (aluResult x f h (chanOf s x.core x.ch)))

/-- R80, R190, R195, R196, R198, R200, R203, R204: LDC, CMP, SEL, CVT, LOGIC, POS, PERM and W96ADD give each active lane its result (PERM none
where the lane it takes has none, R80) and change no other register and no memory. An instruction of another opcode than the row's changes
nothing. LD, GATHER and EXPAND bring the addressed element of the view into each lane in the register's type, and a lane whose element a
SKIP_TILE holds has no result; ST and COMPRESS store each lane's value, converted once, at its place in the tiles that the view gives and
touch no other byte; an index outside its range under IDX_MODE 10 stops the chain with OUT_OF_REGION.
Commands that it says complete: vecLd, vecSt, vecLdc, vecCmp, sel, cvt, logic, perm, gather, pos, compress, expand, w96add. -/
def Obligations.LaneMovesAndMemory : Prop :=
  ((∀ (s : State) (core : BitVec 5) (ch : BitVec 3) (x : VX), AtInstr s core ch x → Inside s x →
    (xOp x.w = 0x03 → Completes (.vecLdc core ch) s (fun t => LanesWritten s t x (fun _ =>
      BitVec.ofNat 32 (fld x.d.hdr (159 + 32 * xImm x.w) (128 + 32 * xImm x.w))))) ∧
    (xOp x.w = 0x20 → Completes (.vecCmp core ch) s (fun t => LanesWritten s t x (fun l =>
      if cmpVal (xSub x.w) (rval (chanOf s x.core x.ch) (xType x.w) (xA x.w) l).1 (rval (chanOf s x.core x.ch) (xType x.w) (xB x.w) l).1 then 1 else 0))) ∧
    (xOp x.w = 0x21 → xType x.w ≠ 3 → Completes (.sel core ch) s (fun t => LanesWritten s t x (fun l =>
      rget (chanOf s x.core x.ch) (if rget (chanOf s x.core x.ch) (xB x.w) l = 0 then xC x.w else xA x.w) l))) ∧
    (xOp x.w = 0x21 → xType x.w = 3 → Completes (.sel core ch) s (fun t => WideWritten s t x (fun l =>
      rgetW (chanOf s x.core x.ch) (if rget (chanOf s x.core x.ch) (xB x.w) l = 0 then xC x.w else xA x.w) l))) ∧
    (xOp x.w = 0x22 → xType x.w ≠ 3 → Completes (.cvt core ch) s (fun t => LanesWritten s t x (fun l =>
      BitVec.ofNat 32 (toReg (xType x.w) (rval (chanOf s x.core x.ch) (xSub x.w % 4) (xA x.w) l).1).1))) ∧
    (xOp x.w = 0x22 → xType x.w = 3 → xSub x.w % 4 ≠ 3 → Completes (.cvt core ch) s (fun t => WideWritten s t x (fun l =>
      (toReg 3 (rval (chanOf s x.core x.ch) (xSub x.w % 4) (xA x.w) l).1).1))) ∧
    (xOp x.w = 0x22 → xType x.w = 3 → xSub x.w % 4 = 3 → Completes (.cvt core ch) s (fun t => WideWritten s t x (fun l =>
      (readW96 (rgetW (chanOf s x.core x.ch) (xA x.w) l) 2).1.toNat))) ∧
    (xOp x.w = 0x23 → Completes (.logic core ch) s (fun t => LanesWritten s t x (fun l =>
      let a := rget (chanOf s x.core x.ch) (xA x.w) l
      let b := rget (chanOf s x.core x.ch) (xB x.w) l
      if xSub x.w = 0 then a &&& b else if xSub x.w = 1 then a ||| b else if xSub x.w = 2 then a ^^^ b else ~~~ a))) ∧
    (xOp x.w = 0x32 → Completes (.pos core ch) s (fun t => LanesWritten s t x (fun l =>
      BitVec.ofNat 32 (fld x.d.hdr 127 108 + ((vPoint x l)[fld x.d.hdr 107 105]?).getD 0)))) ∧
    (xOp x.w = 0x30 → IndexesFit s x (vLen x) → Completes (.perm core ch) s (fun t => LanesWrittenBut (laneOff t x) s t x (fun l =>
      match indexed s x (vLen x) l with | some j => rget (chanOf s x.core x.ch) (xA x.w) j | none => 0) ∧
      LanesLost s t x (fun l => match indexed s x (vLen x) l with | some j => pointSkip s x (vPoint x j) | none => false))) ∧
    (xOp x.w = 0x60 → Completes (.w96add core ch) s (fun t => WideWritten s t x (fun l =>
      (canonW96 (addW96 (readW96 (rgetW (chanOf s x.core x.ch) (xA x.w) l) 2).1 (readW96 (rgetW (chanOf s x.core x.ch) (xB x.w) l) 2).1 2).1).toNat)))) ∧
  (∀ (s : State) (core : BitVec 5) (ch : BitVec 3) (x : VX), AtInstr s core ch x →
    (xOp x.w ≠ 0x03 → exec (.vecLdc core ch) s = .next s) ∧ (xOp x.w ≠ 0x20 → exec (.vecCmp core ch) s = .next s) ∧
    (xOp x.w ≠ 0x21 → exec (.sel core ch) s = .next s) ∧ (xOp x.w ≠ 0x32 → exec (.pos core ch) s = .next s))) ∧
  ((∀ (s : State) (core : BitVec 5) (ch : BitVec 3) (x : VX), AtInstr s core ch x → Inside s x →
    (xOp x.w = 0x01 → xType x.w % 2 = 0 → Completes (.vecLd core ch) s (fun t => LanesWritten s t x (fun l =>
      BitVec.ofNat 32 (loadElem s x (viewOf x.d (xView x.w)) (vPoint x l) (xType x.w)).1))) ∧
    (xOp x.w = 0x01 → xType x.w = 3 → Completes (.vecLd core ch) s (fun t => WideWritten s t x (fun l =>
      (loadElem s x (viewOf x.d (xView x.w)) (vPoint x l) 3).1))) ∧
    (xOp x.w = 0x01 → xType x.w = 1 → Completes (.vecLd core ch) s (fun t => LanesWritten s t x (fun l =>
      BitVec.ofNat 32 ((loadElem s x (viewOf x.d (xView x.w)) (vPoint x (2 * l)) 1).1 +
        (if 2 * l + 1 < vLen x then (loadElem s x (viewOf x.d (xView x.w)) (vPoint x (2 * l + 1)) 1).1
         else fld (rget (chanOf s x.core x.ch) (xD x.w) l) 31 16) * 2 ^ 16)))) ∧
    (xOp x.w = 0x31 → xType x.w ≠ 3 → IndexesFit s x (((vExts x.d)[0]?).getD 0) → Completes (.gather core ch) s (fun t => LanesWrittenBut (laneOff t x) s t x (fun l =>
      match indexed s x (((vExts x.d)[0]?).getD 0) l with
      | some j => BitVec.ofNat 32 (loadElem s x (viewOf x.d (xView x.w)) (j :: rowPoint x.d x.row) (xType x.w)).1 | none => 0) ∧
      LanesLost s t x (fun l => match indexed s x (((vExts x.d)[0]?).getD 0) l with
        | some j => elemSkip s x (viewOf x.d (xView x.w)) (j :: rowPoint x.d x.row) | none => false))) ∧
    (xOp x.w = 0x31 → xType x.w = 3 → IndexesFit s x (((vExts x.d)[0]?).getD 0) → Completes (.gather core ch) s (fun t => WideWrittenBut (laneOff t x) s t x (fun l =>
      match indexed s x (((vExts x.d)[0]?).getD 0) l with
      | some j => (loadElem s x (viewOf x.d (xView x.w)) (j :: rowPoint x.d x.row) 3).1 | none => 0) ∧
      LanesLost s t x (fun l => match indexed s x (((vExts x.d)[0]?).getD 0) l with
        | some j => elemSkip s x (viewOf x.d (xView x.w)) (j :: rowPoint x.d x.row) | none => false))) ∧
    (xOp x.w = 0x31 → xIdx x.w = 2 → ¬ IndexesFit s x (((vExts x.d)[0]?).getD 0) →
      Completes (.gather core ch) s (fun t => (runOf t x.core x.key).status = .outOfRegion ∧ (∀ c ∈ vChans x.d, (chanOf t x.core c).done = true) ∧
        (chanOf t x.core x.ch).regs = (chanOf s x.core x.ch).regs ∧ t.mem = s.mem)) ∧
    (xOp x.w = 0x30 → ¬ IndexesFit s x (vLen x) → Completes (.perm core ch) s (fun t => (runOf t x.core x.key).status = .outOfRegion ∧
      (∀ c ∈ vChans x.d, (chanOf t x.core c).done = true) ∧ (chanOf t x.core x.ch).regs = (chanOf s x.core x.ch).regs ∧ t.mem = s.mem)) ∧
    (xOp x.w = 0x51 → Completes (.expand core ch) s (fun t => LanesWrittenBut (laneOff t x) s t x (fun l =>
      if rget (chanOf s x.core x.ch) (xB x.w) l = 0 then rget (chanOf s x.core x.ch) (xC x.w) l
      else BitVec.ofNat 32 (loadElem s x (viewOf x.d (xView x.w)) ((tget 0 (chanOf s x.core x.ch).packed x.n +
        ((List.range l).filter (fun j => rget (chanOf s x.core x.ch) (xB x.w) j != 0)).length) :: rowPoint x.d x.row) (xType x.w)).1) ∧
      LanesLost s t x (fun l => rget (chanOf s x.core x.ch) (xB x.w) l != 0 && elemSkip s x (viewOf x.d (xView x.w))
        ((tget 0 (chanOf s x.core x.ch).packed x.n + ((List.range l).filter (fun j => rget (chanOf s x.core x.ch) (xB x.w) j != 0)).length) ::
          rowPoint x.d x.row)))) ∧
    (let v := viewOf x.d (xView x.w)
     let n := if xType x.w = 1 then vLen x else vLanes x
     xOp x.w = 0x02 → StoresPlain s x v → Completes (.vecSt core ch) s (fun t => ∀ k < n,
      (if xType x.w = 1 then pointSkip s x (vPoint x k) else laneOff s x k) = false → Fresh s x v (vPoint x k) →
      (∀ j < n, j ≠ k → vwPlace v (vwElem v (vPoint x j)) ≠ vwPlace v (vwElem v (vPoint x k))) →
      storedCode t.mem x.core v (vPoint x k) = viewCode x.d v (stValue s x k))) ∧
    (let v := viewOf x.d (xView x.w)
     let at_ := fun (l : Nat) => (tget 0 (chanOf s x.core x.ch).packed x.n +
       ((lanesOn s x).filter (fun j => j < l && rget (chanOf s x.core x.ch) (xB x.w) j != 0)).length) :: rowPoint x.d x.row
     xOp x.w = 0x50 → StoresPlain s x v → Completes (.compress core ch) s (fun t => ∀ l ∈ lanesOn s x, rget (chanOf s x.core x.ch) (xB x.w) l ≠ 0 →
      Fresh s x v (at_ l) → (∀ j ∈ lanesOn s x, j ≠ l → rget (chanOf s x.core x.ch) (xB x.w) j ≠ 0 →
        vwPlace v (vwElem v (at_ j)) ≠ vwPlace v (vwElem v (at_ l))) →
      storedCode t.mem x.core v (at_ l) = viewCode x.d v
        ((rval (chanOf s x.core x.ch) (xType x.w) (xA x.w) l).1, toW96 (rval (chanOf s x.core x.ch) (xType x.w) (xA x.w) l).1))) ∧
    (xOp x.w = 0x02 → viewBad (viewOf x.d (xView x.w)) = false → Completes (.vecSt core ch) s (fun t => RegsKept s t x ∧
      ∀ a, (∀ k < vLen x, a < vwAddr x.core (viewOf x.d (xView x.w)) (vwPlace (viewOf x.d (xView x.w)) (vwElem (viewOf x.d (xView x.w)) (vPoint x k))).1 ∨
        vwAddr x.core (viewOf x.d (xView x.w)) (vwPlace (viewOf x.d (xView x.w)) (vwElem (viewOf x.d (xView x.w)) (vPoint x k))).1 + 64 +
          vwPayload (viewOf x.d (xView x.w)) ≤ a) → (0 < vLen x) → mget t.mem a = mget s.mem a)) ∧
    (xOp x.w = 0x50 → viewBad (viewOf x.d (xView x.w)) = false → Completes (.compress core ch) s (fun t => RegsKept s t x ∧
      tget 0 (chanOf t x.core x.ch).packed x.n = tget 0 (chanOf s x.core x.ch).packed x.n +
        ((lanesOn s x).filter (fun l => rget (chanOf s x.core x.ch) (xB x.w) l != 0)).length ∧
      ∀ a, (∀ j < 64, a < vwAddr x.core (viewOf x.d (xView x.w)) (vwPlace (viewOf x.d (xView x.w)) (vwElem (viewOf x.d (xView x.w))
          ((tget 0 (chanOf s x.core x.ch).packed x.n + j) :: rowPoint x.d x.row))).1 ∨
        vwAddr x.core (viewOf x.d (xView x.w)) (vwPlace (viewOf x.d (xView x.w)) (vwElem (viewOf x.d (xView x.w))
          ((tget 0 (chanOf s x.core x.ch).packed x.n + j) :: rowPoint x.d x.row))).1 + 64 + vwPayload (viewOf x.d (xView x.w)) ≤ a) →
        mget t.mem a = mget s.mem a))))

/-- R201, R202: RED takes the active lanes, in lane order, into the channel's running value of the instruction; SUMM takes them into
the channel's partial of the summary. Neither changes a register or memory.
Commands that it says complete: red, summ. -/
def Obligations.ReductionsAndSummaries : Prop :=
  ∀ (s : State) (core : BitVec 5) (ch : BitVec 3) (x : VX), AtInstr s core ch x → Inside s x →
    (xOp x.w = 0x40 → Completes (.red core ch) s (fun t => RegsKept s t x ∧ t.mem = s.mem ∧
      (redOf (chanOf t x.core x.ch) x.n).acc = ((lanesOn s x).foldl (fun a l =>
        (redTake (xSub x.w) (xType x.w) x.row a (rval (chanOf s x.core x.ch) (xType x.w) (xA x.w) l).1).1) (redOf (chanOf s x.core x.ch) x.n)).acc ∧
      (redOf (chanOf t x.core x.ch) x.n).int = ((lanesOn s x).foldl (fun a l =>
        (redTake (xSub x.w) (xType x.w) x.row a (rval (chanOf s x.core x.ch) (xType x.w) (xA x.w) l).1).1) (redOf (chanOf s x.core x.ch) x.n)).int)) ∧
    (xOp x.w = 0x41 → dryRun s x = false → Completes (.summ core ch) s (fun t => RegsKept s t x ∧ t.mem = s.mem ∧
      (summOf (runOf t x.core x.key) (x.n * 8 + x.ch)).acc = ((lanesOn s x).foldl (fun a l =>
        (redTake (xSub x.w) (xType x.w) x.row a (rval (chanOf s x.core x.ch) (xType x.w) (xA x.w) l).1).1) (summOf (runOf s x.core x.key) (x.n * 8 + x.ch))).acc ∧
      (summOf (runOf t x.core x.key) (x.n * 8 + x.ch)).int = ((lanesOn s x).foldl (fun a l =>
        (redTake (xSub x.w) (xType x.w) x.row a (rval (chanOf s x.core x.ch) (xType x.w) (xA x.w) l).1).1) (summOf (runOf s x.core x.key) (x.n * 8 + x.ch))).int)) ∧
    (xOp x.w = 0x41 → dryRun s x = true → Completes (.summ core ch) s (fun t => RegsKept s t x ∧ t.mem = s.mem ∧
      (runOf t x.core x.key) = (runOf s x.core x.key)))

/-! ## Grain cores (chapter 7) -/

/-- R214, R215: the ALU writes XD with the result that FUNC names of XA and XB, shift amounts taken modulo 64; ADDI to SHRI do the same
with the sign-extended immediate. X0 discards the result; no other register and no other part of the device changes.
Commands that it says complete: alu, addi, andi, ori, xori, shli, shri. -/
def Obligations.AluInstructions : Prop :=
  (∀ (func : Nat) (f : W64 → W64 → W64),
    (func, f) ∈ [(0, fun a b => BitVec.ofNat 64 (a.toNat + b.toNat)), (1, fun a b => BitVec.ofInt 64 (a.toInt - b.toInt)), (2, fun a b => a &&& b),
      (3, fun a b => a ||| b), (4, fun a b => a ^^^ b), (5, fun a b => BitVec.ofNat 64 (a.toNat * 2 ^ (b.toNat % 64))),
      (6, fun a b => BitVec.ofNat 64 (a.toNat / 2 ^ (b.toNat % 64))), (7, fun a b => BitVec.ofInt 64 (a.toInt / 2 ^ (b.toNat % 64))),
      (8, fun a b => BitVec.ofNat 64 (a.toNat * b.toNat)), (9, fun a b => BitVec.ofNat 64 (a.toNat * b.toNat / 2 ^ 64)),
      (10, fun a b => if a.toInt < b.toInt then 1 else 0), (11, fun a b => if a.toNat < b.toNat then 1 else 0),
      (12, fun a b => if a.toInt < b.toInt then a else b), (13, fun a b => if a.toInt < b.toInt then b else a)] →
    ∀ (s : State) (core : BitVec 5) (g : BitVec 1) (w : Nat), AtWord s core.toNat g.toNat w → iOp w = 0x01 → iFunc w = func →
      Completes (.alu core g) s (fun t => Wrote s t core.toNat g.toNat w
        (f (reg s core.toNat g.toNat (iA w)) (reg s core.toNat g.toNat (iB w))))) ∧
  (∀ (i : BitVec 5 → BitVec 1 → Instr) (op : Nat) (f : W64 → Int → W64),
    (i, op, f) ∈ [(Instr.addi, 0x02, fun a k => BitVec.ofInt 64 (a.toInt + k)), (Instr.andi, 0x03, fun a k => a &&& BitVec.ofInt 64 k),
      (Instr.ori, 0x04, fun a k => a ||| BitVec.ofInt 64 k), (Instr.xori, 0x05, fun a k => a ^^^ BitVec.ofInt 64 k),
      (Instr.shli, 0x06, fun a k => BitVec.ofNat 64 (a.toNat * 2 ^ (k % 64).toNat)), (Instr.shri, 0x07, fun a k => BitVec.ofNat 64 (a.toNat / 2 ^ (k % 64).toNat))] →
    ∀ (s : State) (core : BitVec 5) (g : BitVec 1) (w : Nat), AtWord s core.toNat g.toNat w → iOp w = op →
      Completes (i core g) s (fun t => Wrote s t core.toNat g.toNat w (f (reg s core.toNat g.toNat (iA w)) (iImm w))))

/-- R213, R214, R215, R219: LD and ST reach the eight bytes of data scratch at XA + IMM, LDK the word pair of the program store at IMM. An
address that is not a multiple of 8 stops the grain core with kind 0x02, one past the scratch's 16 KiB with kind 0x03; either fences the
context. A branch goes to pc + IMM where its comparison of the two registers holds, else to the next word; JAL and JR write the address of
the next word to XD and jump; a jump reads XA before it writes XD. Nothing else changes.
Commands that it says complete: ldk, ld, st, beq, bne, blt, bge, bltu, bgeu, jal, jr. -/
def Obligations.ScratchAndBranches : Prop :=
  ((∀ (s : State) (core : BitVec 5) (g : BitVec 1) (w a : Nat), AtWord s core.toNat g.toNat w → iOp w = 0x0A →
    (reg s core.toNat g.toNat (iA w) + BitVec.ofInt 64 (iImm w)).toNat = a → a % 8 = 0 → a + 8 ≤ 16384 →
    Completes (.ld core g) s (fun t => Wrote s t core.toNat g.toNat w (BitVec.ofNat 64 (mnum (grainOf (coreOf s core.toNat) g.toNat).scratch a 8)))) ∧
  (∀ (s : State) (core : BitVec 5) (g : BitVec 1) (w a : Nat), AtWord s core.toNat g.toNat w → iOp w = 0x0B →
    (reg s core.toNat g.toNat (iA w) + BitVec.ofInt 64 (iImm w)).toNat = a → a % 8 = 0 → a + 8 ≤ 16384 →
    exec (.st core g) s = .next (modGrain core.toNat g.toNat (fun x => { x with
      pc := x.pc + 1, waiting := .none,
      scratch := mwrite x.scratch a (bytesLE 8 (xget x (iD w)).toNat) }) s)) ∧
  (∀ (s : State) (core : BitVec 5) (g : BitVec 1) (w : Nat), AtWord s core.toNat g.toNat w → iOp w = 0x09 → iImm w % 2 = 0 → 0 ≤ iImm w →
    iImm w < 16384 →
    Completes (.ldk core g) s (fun t => Wrote s t core.toNat g.toNat w
      (BitVec.ofNat 64 (mnum (grainOf (coreOf s core.toNat) g.toNat).prog (4 * (iImm w).toNat) 8)))) ∧
  (∀ (s : State) (core : BitVec 5) (g : BitVec 1) (w a kind : Nat), AtWord s core.toNat g.toNat w → iOp w = 0x0A ∨ iOp w = 0x0B →
    (reg s core.toNat g.toNat (iA w) + BitVec.ofInt 64 (iImm w)).toNat = a →
    (a % 8 ≠ 0 ∧ kind = 0x02) ∨ (a % 8 = 0 ∧ 16384 < a + 8 ∧ kind = 0x03) →
    exec (if iOp w = 0x0A then .ld core g else .st core g) s =
      .next (grainFault core.toNat g.toNat kind (grainOf (coreOf s core.toNat) g.toNat).pc w s))) ∧
  ((∀ (i : BitVec 5 → BitVec 1 → Instr) (op : Nat) (p : W64 → W64 → Prop),
    (i, op, p) ∈ [(Instr.beq, 0x10, fun a b => a = b), (Instr.bne, 0x11, fun a b => a ≠ b), (Instr.blt, 0x12, fun a b => a.toInt < b.toInt),
      (Instr.bge, 0x13, fun a b => b.toInt ≤ a.toInt), (Instr.bltu, 0x14, fun a b => a.toNat < b.toNat), (Instr.bgeu, 0x15, fun a b => b.toNat ≤ a.toNat)] →
    ∀ (s : State) (core : BitVec 5) (g : BitVec 1) (w : Nat), AtWord s core.toNat g.toNat w → iOp w = op →
      (p (reg s core.toNat g.toNat (iD w)) (reg s core.toNat g.toNat (iA w)) →
        exec (i core g) s = .next (modGrain core.toNat g.toNat (fun x => { x with pc := pcPlus x.pc (iImm w) }) s)) ∧
      (¬ p (reg s core.toNat g.toNat (iD w)) (reg s core.toNat g.toNat (iA w)) →
        exec (i core g) s = .next (modGrain core.toNat g.toNat (fun x => { x with pc := x.pc + 1 }) s))) ∧
  (∀ (s : State) (core : BitVec 5) (g : BitVec 1) (w : Nat), AtWord s core.toNat g.toNat w → iOp w = 0x16 →
    exec (.jal core g) s = .next (modGrain core.toNat g.toNat (fun x =>
      { x with regs := (xset x (iD w) (BitVec.ofNat 64 (x.pc + 1))).regs, pc := pcPlus x.pc (iOff22 w) }) s)) ∧
  (∀ (s : State) (core : BitVec 5) (g : BitVec 1) (w : Nat), AtWord s core.toNat g.toNat w → iOp w = 0x17 →
    exec (.jr core g) s = .next (modGrain core.toNat g.toNat (fun x =>
      { x with regs := (xset x (iD w) (BitVec.ofNat 64 (x.pc + 1))).regs, pc := (reg s core.toNat g.toNat (iA w) + BitVec.ofInt 64 (iImm w)).toNat }) s)))

/-- R215, R216, R217: An ISSUE of a descriptor whose tag is IDLE and whose queue has room puts it at the queue's end, makes the tag OUTSTANDING
and writes 0 to XD; a tag in use writes CONFLICT and queues nothing; at a full queue (16 descriptors of a grain core, 512 of a tile mover)
the grain core stalls. A slot or a view is written at once. WAIT and POLL of a DONE tag give its status and free it, of an IDLE tag
BAD_DESCRIPTOR; an outstanding tag makes WAIT wait and POLL read all ones. WAITALL with nothing outstanding gives the first status that is
not OK and frees every tag. RDSUM of a valid summary register gives its value or its flags, and joins its owner set to the program's.
Commands that it says complete: issueMatrix, issueVector, issueTileMover, issueOutCfg, issueView, wait, poll, waitall, rdsum. -/
def Obligations.IssueAndWaits : Prop :=
  ((∀ (s : State) (core : BitVec 5) (g : BitVec 1) (w : Nat) (b : Bytes), AtWord s core.toNat g.toNat w → iOp w = 0x20 → nbits w 2 0 = 0 →
    issueBytes s core.toNat g.toNat w 64 = .inl b →
    (tagIdle s core.toNat g.toNat (dTag (descOf b)) = true → (tget [] (coreOf s core.toNat).arr.queue g.toNat).length < 16 →
      Completes (.issueMatrix core g) s (fun t => tget [] (coreOf t core.toNat).arr.queue g.toNat = tget [] (coreOf s core.toNat).arr.queue g.toNat ++ [descOf b] ∧
        tget TagState.idle (grainOf (coreOf t core.toNat) g.toNat).tags (dTag (descOf b)) = .outstanding ∧
        reg t core.toNat g.toNat (iD w) = 0 ∧ (grainOf (coreOf t core.toNat) g.toNat).pc = (grainOf (coreOf s core.toNat) g.toNat).pc + 1 ∧
        OnlyCore core.toNat s t)) ∧
    (tagIdle s core.toNat g.toNat (dTag (descOf b)) = false →
      Completes (.issueMatrix core g) s (fun t => Wrote s t core.toNat g.toNat w 0x0601)) ∧
    (tagIdle s core.toNat g.toNat (dTag (descOf b)) = true → 16 ≤ (tget [] (coreOf s core.toNat).arr.queue g.toNat).length →
      exec (.issueMatrix core g) s = .next (modGrain core.toNat g.toNat (fun x => { x with waiting := .issue }) s))) ∧
  (∀ (s : State) (core : BitVec 5) (g : BitVec 1) (w : Nat) (b c : Bytes), AtWord s core.toNat g.toNat w → iOp w = 0x20 → nbits w 2 0 = 1 →
    issueBytes s core.toNat g.toNat w 64 = .inl b → issueBytes s core.toNat g.toNat w (if dOp (descOf b) = 0x40 then 192 else 64) = .inl c →
    tagIdle s core.toNat g.toNat (dTag (descOf c)) = true →
    (16 ≤ (tget [] (coreOf s core.toNat).vec.queue g.toNat).length →
      exec (.issueVector core g) s = .next (modGrain core.toNat g.toNat (fun x => { x with waiting := .issue }) s)) ∧
    ((tget [] (coreOf s core.toNat).vec.queue g.toNat).length < 16 → Completes (.issueVector core g) s (fun t => ∃ d : VDesc,
      tget [] (coreOf t core.toNat).vec.queue g.toNat = tget [] (coreOf s core.toNat).vec.queue g.toNat ++ [d] ∧
      d.hdr = descOf (c.take 64) ∧ d.views = (coreOf s core.toNat).views ∧
      (∀ r ∈ summRegs d, bit (tget 0 (grainOf (coreOf t core.toNat) g.toNat).sums r) 85 = false) ∧
      tget TagState.idle (grainOf (coreOf t core.toNat) g.toNat).tags (dTag d.hdr) = .outstanding ∧ reg t core.toNat g.toNat (iD w) = 0 ∧
      OnlyCore core.toNat s t))) ∧
  (∀ (s : State) (core : BitVec 5) (g : BitVec 1) (w m : Nat) (b : Bytes), AtWord s core.toNat g.toNat w → iOp w = 0x20 → nbits w 2 0 = m + 2 → m < 2 →
    issueBytes s core.toNat g.toNat w 64 = .inl b → tagIdle s core.toNat g.toNat (dTag (descOf b)) = true →
    (512 ≤ (tget ({} : Mover) (coreOf s core.toNat).movers m).queue.length →
      exec (.issueTileMover core g) s = .next (modGrain core.toNat g.toNat (fun x => { x with waiting := .issue }) s)) ∧
    ((tget ({} : Mover) (coreOf s core.toNat).movers m).queue.length < 512 → Completes (.issueTileMover core g) s (fun t => (tget ({} : Mover) (coreOf t core.toNat).movers m).queue =
        (tget ({} : Mover) (coreOf s core.toNat).movers m).queue ++ [(descOf b, g.toNat)] ∧
      tget TagState.idle (grainOf (coreOf t core.toNat) g.toNat).tags (dTag (descOf b)) = .outstanding ∧ reg t core.toNat g.toNat (iD w) = 0 ∧
      OnlyCore core.toNat s t))) ∧
  (∀ (s : State) (core : BitVec 5) (g : BitVec 1) (w : Nat) (b : Bytes), AtWord s core.toNat g.toNat w → iOp w = 0x20 →
    issueBytes s core.toNat g.toNat w 64 = .inl b →
    (nbits w 2 0 = 4 → Completes (.issueOutCfg core g) s (fun t => (coreOf t core.toNat).outCfg = tset (coreOf s core.toNat).outCfg (nbits w 8 3) (descOf b) ∧
      (coreOf t core.toNat).views = (coreOf s core.toNat).views ∧ reg t core.toNat g.toNat (iD w) = 0 ∧ OnlyCore core.toNat s t)) ∧
    (nbits w 2 0 = 5 → Completes (.issueView core g) s (fun t => (coreOf t core.toNat).views = tset (coreOf s core.toNat).views (nbits w 8 3) (descOf b) ∧
      (coreOf t core.toNat).outCfg = (coreOf s core.toNat).outCfg ∧ reg t core.toNat g.toNat (iD w) = 0 ∧ OnlyCore core.toNat s t)))) ∧
  ((∀ (s : State) (core : BitVec 5) (g : BitVec 1) (w : Nat), AtWord s core.toNat g.toNat w → iOp w = 0x21 ∨ iOp w = 0x22 →
    (∀ (st : W16), tget TagState.idle (grainOf (coreOf s core.toNat) g.toNat).tags (nbits w 7 0) = .done st →
      exec (if iOp w = 0x21 then .wait core g else .poll core g) s =
        .next (writeNext core.toNat g.toNat w (st.setWidth 64) (modGrain core.toNat g.toNat (fun x => tagFree x (nbits w 7 0)) s))) ∧
    (tget TagState.idle (grainOf (coreOf s core.toNat) g.toNat).tags (nbits w 7 0) = .idle →
      Completes (if iOp w = 0x21 then .wait core g else .poll core g) s (fun t => Wrote s t core.toNat g.toNat w 0x0203)) ∧
    (tget TagState.idle (grainOf (coreOf s core.toNat) g.toNat).tags (nbits w 7 0) = .outstanding → iOp w = 0x21 →
      exec (.wait core g) s = .next (modGrain core.toNat g.toNat (fun x => { x with waiting := .tag }) s)) ∧
    (tget TagState.idle (grainOf (coreOf s core.toNat) g.toNat).tags (nbits w 7 0) = .outstanding → iOp w = 0x22 →
      Completes (.poll core g) s (fun t => Wrote s t core.toNat g.toNat w (BitVec.allOnes 64)))) ∧
  (∀ (s : State) (core : BitVec 5) (g : BitVec 1) (w : Nat), AtWord s core.toNat g.toNat w → iOp w = 0x23 →
    (anyOutstanding (grainOf (coreOf s core.toNat) g.toNat) = false → Completes (.waitall core g) s (fun t =>
      (grainOf (coreOf t core.toNat) g.toNat).tags = [] ∧ (grainOf (coreOf t core.toNat) g.toNat).pc = (grainOf (coreOf s core.toNat) g.toNat).pc + 1 ∧
      ((∀ k ∈ (grainOf (coreOf s core.toNat) g.toNat).doneOrder, tget TagState.idle (grainOf (coreOf s core.toNat) g.toNat).tags k = .done 0) →
        reg t core.toNat g.toNat (iD w) = 0) ∧
      (∀ pre k st post, (grainOf (coreOf s core.toNat) g.toNat).doneOrder = pre ++ k :: post → st ≠ 0 →
        (∀ j ∈ pre, tget TagState.idle (grainOf (coreOf s core.toNat) g.toNat).tags j = .done 0) →
        tget TagState.idle (grainOf (coreOf s core.toNat) g.toNat).tags k = .done st → iD w ≠ 0 → reg t core.toNat g.toNat (iD w) = st.setWidth 64) ∧
      OnlyCore core.toNat s t)) ∧
    (anyOutstanding (grainOf (coreOf s core.toNat) g.toNat) = true →
      exec (.waitall core g) s = .next (modGrain core.toNat g.toNat (fun x => { x with waiting := .all }) s))) ∧
  (∀ (s : State) (core : BitVec 5) (g : BitVec 1) (w : Nat) (v : BitVec 86), AtWord s core.toNat g.toNat w → iOp w = 0x28 →
    tget 0 (grainOf (coreOf s core.toNat) g.toNat).sums (nbits w 3 0) = v → bit v 85 = true →
    exec (.rdsum core g) s = .next (writeNext core.toNat g.toNat w
      (BitVec.ofNat 64 (if nbit w 4 then fld v 84 77 * 2 ^ 13 + fld v 76 64 else fld v 63 0))
      (modGrain core.toNat g.toNat (fun x => { x with owner := x.owner ||| BitVec.ofNat 8 (fld v 84 77) }) s))))

/-- R217, R218, R219, R220, R221: EPOCH advances the core's epoch by one or leaves it, and any other value is a fault of kind 0x05; PMARK adds
one record to the context's mark ring, or counts it as lost when the ring holds 4,096, and with SYNC it waits while a tag is OUTSTANDING;
RDTIME reads the time base; GSEND puts a value and the sender's owner set into the other inbox while it holds fewer than four, GRECV takes
the oldest. SETTRAP writes the trap vector, and 0 discards the traps that wait; a trap is taken at an instruction boundary: the program
counter is saved and the handler entered, its cause and tag readable by RDTRAP; a grain core that stalls at an ISSUE or in a PMARK with
SYNC, which R218 does not list among the waits that are abandoned, takes none; TRAPRET resumes at the saved address. An illegal word stops
the grain core with kind 0x01, a program counter past the store with kind 0x04.
Commands that it says complete: epoch, pmark, rdtime, settrap, trapret, rdtrap, gsend, grecv, trapTake, illegalInstruction. -/
def Obligations.MarksAndTraps : Prop :=
  ((∀ (s : State) (core : BitVec 5) (g : BitVec 1) (w v : Nat), AtWord s core.toNat g.toNat w → iOp w = 0x30 →
    (reg s core.toNat g.toNat (iA w)).toNat = v → v < 0xFFFFFFFF →
    (v = (coreOf s core.toNat).epoch.toNat + 1 ∨ v = (coreOf s core.toNat).epoch.toNat → Completes (.epoch core g) s (fun t =>
      (coreOf t core.toNat).epoch = BitVec.ofNat 32 v ∧ (grainOf (coreOf t core.toNat) g.toNat).pc = (grainOf (coreOf s core.toNat) g.toNat).pc + 1 ∧
      OnlyCore core.toNat s t)) ∧
    (v ≠ (coreOf s core.toNat).epoch.toNat + 1 → v ≠ (coreOf s core.toNat).epoch.toNat →
      exec (.epoch core g) s = .next (grainFault core.toNat g.toNat 0x05 (grainOf (coreOf s core.toNat) g.toNat).pc w s))) ∧
  (∀ (s : State) (core : BitVec 5) (g : BitVec 1) (w c : Nat), AtWord s core.toNat g.toNat w → iOp w = 0x31 → (coreOf s core.toNat).ctx = some c → c < 256 →
    (nbit w 5 = false ∨ anyOutstanding (grainOf (coreOf s core.toNat) g.toNat) = false) →
    Completes (.pmark core g) s (fun t => (grainOf (coreOf t core.toNat) g.toNat).pc = (grainOf (coreOf s core.toNat) g.toNat).pc + 1 ∧
      ((ctxOf s c).marks.length < 4096 → (ctxOf t c).lostMks = (ctxOf s c).lostMks ∧ ∃ m, (ctxOf t c).marks = (ctxOf s c).marks ++ [m] ∧
        fld m 255 192 = now s ∧ fld m 191 160 = (coreOf s core.toNat).epoch.toNat ∧ fld m 95 92 = nbits w 3 0) ∧
      (4096 ≤ (ctxOf s c).marks.length → (ctxOf t c).marks = (ctxOf s c).marks ∧ (ctxOf t c).lostMks = natMin ((ctxOf s c).lostMks + 1) 0xFFFFFFFF) ∧
      t = { s with cores := t.cores, ctxs := t.ctxs })) ∧
  (∀ (s : State) (core : BitVec 5) (g : BitVec 1) (w : Nat), AtWord s core.toNat g.toNat w → iOp w = 0x31 → nbit w 5 = true →
    anyOutstanding (grainOf (coreOf s core.toNat) g.toNat) = true →
    exec (.pmark core g) s = .next (modGrain core.toNat g.toNat (fun x => { x with waiting := .sync }) s)) ∧
  (∀ (s : State) (core : BitVec 5) (g : BitVec 1) (w : Nat), AtWord s core.toNat g.toNat w → iOp w = 0x32 →
    Completes (.rdtime core g) s (fun t => Wrote s t core.toNat g.toNat w s.time.base)) ∧
  (∀ (s : State) (core : BitVec 5) (g : BitVec 1) (w : Nat), AtWord s core.toNat g.toNat w → iOp w = 0x36 →
    ((grainOf (coreOf s core.toNat) (1 - g.toNat)).inbox.length < 4 → Completes (.gsend core g) s (fun t =>
      (grainOf (coreOf t core.toNat) (1 - g.toNat)).inbox = (grainOf (coreOf s core.toNat) (1 - g.toNat)).inbox ++
        [(reg s core.toNat g.toNat (iA w), (grainOf (coreOf s core.toNat) g.toNat).owner)] ∧
      (grainOf (coreOf t core.toNat) g.toNat).pc = (grainOf (coreOf s core.toNat) g.toNat).pc + 1 ∧ OnlyCore core.toNat s t)) ∧
    (4 ≤ (grainOf (coreOf s core.toNat) (1 - g.toNat)).inbox.length →
      exec (.gsend core g) s = .next (modGrain core.toNat g.toNat (fun x => { x with waiting := .send }) s))) ∧
  (∀ (s : State) (core : BitVec 5) (g : BitVec 1) (w : Nat), AtWord s core.toNat g.toNat w → iOp w = 0x37 →
    (∀ (v : W64) (o : Byte) (rest : List (W64 × Byte)), (grainOf (coreOf s core.toNat) g.toNat).inbox = (v, o) :: rest → exec (.grecv core g) s = .next (writeNext core.toNat g.toNat w v
      (modGrain core.toNat g.toNat (fun x => { x with inbox := rest, owner := x.owner ||| o }) s))) ∧
    ((grainOf (coreOf s core.toNat) g.toNat).inbox = [] →
      exec (.grecv core g) s = .next (modGrain core.toNat g.toNat (fun x => { x with waiting := .recv }) s)))) ∧
  ((∀ (s : State) (core : BitVec 5) (g : BitVec 1) (w : Nat), AtWord s core.toNat g.toNat w → iOp w = 0x33 →
    exec (.settrap core g) s = .next (modGrain core.toNat g.toNat (fun x => { x with
      trapVec := reg s core.toNat g.toNat (iA w), pc := x.pc + 1, waiting := .none,
      arriving := if reg s core.toNat g.toNat (iA w) = 0 then [] else x.arriving,
      trapQueue := if reg s core.toNat g.toNat (iA w) = 0 then [] else x.trapQueue }) s)) ∧
  (∀ (s : State) (core : BitVec 5) (g : BitVec 1) (cause tag : Byte), grainRuns s core.toNat g.toNat = true →
    trapDue (grainOf (coreOf s core.toNat) g.toNat) = true → (grainOf (coreOf s core.toNat) g.toNat).arriving = [(cause, tag)] →
    (grainOf (coreOf s core.toNat) g.toNat).trapQueue = [] →
    exec (.trapTake core g) s = .next (modGrain core.toNat g.toNat (fun x => { x with
      inTrap := true, trapRet := x.pc, trapCause := cause, trapTag := tag,
      arriving := [], trapsLost := natMin x.trapsLost 0xFFFF, pc := x.trapVec.toNat, waiting := .none, releasedT := false }) s)) ∧
  (∀ (s : State) (core : BitVec 5) (g : BitVec 1), (grainOf (coreOf s core.toNat) g.toNat).inTrap = true ∨ (grainOf (coreOf s core.toNat) g.toNat).trapVec = 0 ∨
    (grainOf (coreOf s core.toNat) g.toNat).arriving = [] ∨ (grainOf (coreOf s core.toNat) g.toNat).waiting = .sync ∨
    (grainOf (coreOf s core.toNat) g.toNat).waiting = .issue → exec (.trapTake core g) s = .next s) ∧
  (∀ (s : State) (core : BitVec 5) (g : BitVec 1) (w : Nat), AtWord s core.toNat g.toNat w → iOp w = 0x34 →
    exec (.trapret core g) s = .next (modGrain core.toNat g.toNat (fun x => { x with
      inTrap := false, pc := x.trapRet,
      arriving := x.trapQueue.take 1, trapQueue := x.trapQueue.drop 1, waiting := .none }) s)) ∧
  (∀ (s : State) (core : BitVec 5) (g : BitVec 1) (w : Nat), AtWord s core.toNat g.toNat w → iOp w = 0x35 →
    Completes (.rdtrap core g) s (fun t => Wrote s t core.toNat g.toNat w (BitVec.ofNat 64
      ((grainOf (coreOf s core.toNat) g.toNat).trapsLost * 2 ^ 48 + (grainOf (coreOf s core.toNat) g.toNat).trapCause.toNat * 256 +
        (grainOf (coreOf s core.toNat) g.toNat).trapTag.toNat)))) ∧
  (∀ (s : State) (core : BitVec 5) (g : BitVec 1), grainRuns s core.toNat g.toNat = true → trapDue (grainOf (coreOf s core.toNat) g.toNat) = false →
    (16384 ≤ (grainOf (coreOf s core.toNat) g.toNat).pc →
      exec (.illegalInstruction core g) s = .next (grainFault core.toNat g.toNat 0x04 (grainOf (coreOf s core.toNat) g.toNat).pc 0 s)) ∧
    ((grainOf (coreOf s core.toNat) g.toNat).pc < 16384 →
      legalWord (grainOf (coreOf s core.toNat) g.toNat) (fetchWord (grainOf (coreOf s core.toNat) g.toNat) (grainOf (coreOf s core.toNat) g.toNat).pc) = false →
      exec (.illegalInstruction core g) s = .next (grainFault core.toNat g.toNat 0x01 (grainOf (coreOf s core.toNat) g.toNat).pc
        (fetchWord (grainOf (coreOf s core.toNat) g.toNat) (grainOf (coreOf s core.toNat) g.toNat).pc) s))))

/-- R222, R215, R372: a grain core that arrives at a barrier where another has not arrived waits; the last arrival releases every member,
and goes on itself; a barrier whose identifier differs from one that a member waits on is a fault of kind 0x07. The last arrival at barrier
0xFE in a context whose partition has an ACTIVE charter is the attempt's arrival as well: WRITE is withdrawn, the banks become ARRIVED, and
STEP_ARRIVED is posted with the epoch and the verdict, which is 0xFF where audience 5 does not admit the owner set. HALT stops the grain core
with XA as its exit code.
Commands that it says complete: barrier, halt. -/
def Obligations.BarrierAndHalt : Prop :=
  (∀ (s : State) (core : BitVec 5) (g : BitVec 1) (w c : Nat), AtWord s core.toNat g.toNat w → iOp w = 0x38 → (coreOf s core.toNat).ctx = some c →
    (grainOf (coreOf s core.toNat) g.toNat).inTrap = false → (grainOf (coreOf s core.toNat) g.toNat).released = false →
    (barrierOther s c (BitVec.ofNat 8 (nbits w 7 0)) = true →
      exec (.barrier core g) s = .next (grainFault core.toNat g.toNat 0x07 (grainOf (coreOf s core.toNat) g.toNat).pc w s)) ∧
    (barrierOther s c (BitVec.ofNat 8 (nbits w 7 0)) = false → (grainOf (coreOf s core.toNat) g.toNat).barrier = none →
      (∃ m ∈ barrierMembers s c, m ≠ (core.toNat, g.toNat) ∧ (grainOf (coreOf s m.1) m.2).barrier = none) →
      exec (.barrier core g) s = .next (modGrain core.toNat g.toNat (fun x => { x with
        barrier := some (BitVec.ofNat 8 (nbits w 7 0)), arrivedIn := false,
        releasedT := false, waiting := .barrier }) s)) ∧
    (barrierOther s c (BitVec.ofNat 8 (nbits w 7 0)) = false → (grainOf (coreOf s core.toNat) g.toNat).barrier = none →
      (core.toNat, g.toNat) ∈ barrierMembers s c → nbits w 7 0 ≠ 0xFE →
      (∀ m ∈ barrierMembers s c, m ≠ (core.toNat, g.toNat) → (grainOf (coreOf s m.1) m.2).barrier = some (BitVec.ofNat 8 (nbits w 7 0))) →
      Completes (.barrier core g) s (fun t => (∀ m ∈ barrierMembers s c, (grainOf (coreOf t m.1) m.2).barrier = none) ∧
        (grainOf (coreOf t core.toNat) g.toNat).pc = (grainOf (coreOf s core.toNat) g.toNat).pc + 1 ∧ t = { s with cores := t.cores })) ∧
    (barrierOther s c 0xFE = false → (grainOf (coreOf s core.toNat) g.toNat).barrier = none →
      (core.toNat, g.toNat) ∈ barrierMembers s c → nbits w 7 0 = 0xFE →
      (∀ m ∈ barrierMembers s c, m ≠ (core.toNat, g.toNat) → (grainOf (coreOf s m.1) m.2).barrier = some 0xFE) →
      ∀ (p : Nat) (ch : Charter), p = (ctxOf s c).part.toNat → (partOf s p).charter = some ch →
      (ch.active = false → Completes (.barrier core g) s (fun t => (∀ m ∈ barrierMembers s c, (grainOf (coreOf t m.1) m.2).barrier = none) ∧
        (grainOf (coreOf t core.toNat) g.toNat).pc = (grainOf (coreOf s core.toNat) g.toNat).pc + 1 ∧ t = { s with cores := t.cores })) ∧
      (ch.active = true → ∀ (x : Grain) (verdict : Nat), x = grainOf (coreOf s ((ctxCores (ctxOf s c)).head?.getD 0)) 0 →
        verdict = (if !audience ch 5 x.owner then 0xFF else if natLE (mread x.scratch 0 8) = 0 then 0 else 1) →
        Completes (.barrier core g) s (fun t => (∀ m ∈ barrierMembers s c, (grainOf (coreOf t m.1) m.2).barrier = none) ∧
          (grainOf (coreOf t core.toNat) g.toNat).pc = (grainOf (coreOf s core.toNat) g.toNat).pc + 1 ∧
          partOf t p = { partOf s p with
            step := { (partOf s p).step with
              wrOk := false
              arrived := some (BitVec.ofNat 32 (ctxEpoch s c))
              banks := if nbit (be ch.doc 6 2) 0 = true ∧ (partOf s p).step.banks = .opened then .arrived else (partOf s p).step.banks } } ∧
          (∀ q, q ≠ p → partOf t q = partOf s q) ∧
          (s.devQueue.items.length < 4096 → ∃ e : Event, t.devQueue.items = s.devQueue.items ++ [(e, false, [])] ∧
            e.code = BitVec.ofNat 16 (0x50 + (Config.jointCode 2).toNat) ∧ e.part = BitVec.ofNat 4 p ∧
            e.body = bytesBE 4 (ctxEpoch s c) ++ bytesBE 1 verdict ∧ e.time = s.time.base) ∧
          t = { s with cores := t.cores, parts := t.parts, devQueue := t.devQueue, mgmt := t.mgmt })))) ∧
  (∀ (s : State) (core : BitVec 5) (g : BitVec 1) (w : Nat), AtWord s core.toNat g.toNat w → iOp w = 0x3F →
    Completes (.halt core g) s (fun t => (grainOf (coreOf t core.toNat) g.toNat).stopped = true ∧
      (grainOf (coreOf t core.toNat) g.toNat).exit = reg s core.toNat g.toNat (iA w) ∧
      (grainOf (coreOf t core.toNat) g.toNat).pc = (grainOf (coreOf s core.toNat) g.toNat).pc ∧ t.mem = s.mem))

/-! ## Tile movers and memory (chapter 8) -/

/-- R83, R250, R251, R252, R256, R282, R285: The head of a tile mover's queue starts under its operation's command, with the core's epoch and
the issuing grain core's owner set; refused by a check of its own fields or of its slots' rights it has that check's code at once; with no
tile to move it then has OK. Starting writes no byte of memory and touches no other core. One tile of a descriptor moves to its next
destination slot and is counted. TM_COPY takes it as it stands, into an operand cache or into HBM; TM_LAYOUT has element (i, j) at (j, i);
row k of a TM_GATHER's output is the source row that the index tile names; TM_ZERO writes the zero tile's header; TM_REDUCE hands every line
of the tile to the memory-side adders and changes no byte itself; TM_SEND queues the tile's bytes, sealed frame by frame, on its path's
link. No byte outside the slot changes. A tile mover that waits for admission, or whose tiles are all moved, moves nothing.
Commands that it says complete: tmCopy, tmLayout, tmGather, tmZero, tmZeroAcc, tmReduce, tmAccRead, tmSend, tileMove. -/
def Obligations.MoverStartAndMove : Prop :=
  (∀ (i : BitVec 5 → BitVec 1 → Instr) (op : Nat) (acc : Bool),
    (i, op, acc) ∈ [(Instr.tmCopy, 0x60, false), (Instr.tmLayout, 0x61, false), (Instr.tmGather, 0x62, false), (Instr.tmZero, 0x63, false),
      (Instr.tmZeroAcc, 0x63, true), (Instr.tmReduce, 0x64, false), (Instr.tmAccRead, 0x65, false), (Instr.tmSend, 0x66, false)] →
    ∀ (s : State) (core : BitVec 5) (m : BitVec 1) (d : BitVec 512) (g : Nat) (rest : List (BitVec 512 × Nat)), coreLive s core.toNat = true →
      (moverOf s core.toNat m.toNat).run = none → (moverOf s core.toNat m.toNat).queue = (d, g) :: rest → dOp d = op → (op = 0x63 → tAcc d = acc) →
      Completes (i core m) s (fun t => ∃ r, (moverOf t core.toNat m.toNat).run = some r ∧ r.desc = d ∧ r.grain = g ∧
        r.epoch = (coreOf s core.toNat).epoch ∧ r.owner = (grainOf (coreOf s core.toNat) g).owner ∧ r.done = 0 ∧
        (moverOf t core.toNat m.toNat).queue = rest ∧
        (∀ st, firstFailure (descChecks s core.toNat d ++ slotChecks s core.toNat d) = some st → r.status = some st) ∧
        (firstFailure (descChecks s core.toNat d ++ slotChecks s core.toNat d) = none → tCount d = 0 → r.status = some .ok) ∧
        (coreOf t core.toNat).grains = (coreOf s core.toNat).grains ∧ t.mem = s.mem ∧ ∀ k, k ≠ core.toNat → coreOf t k = coreOf s k)) ∧
  ((∀ (s : State) (core : BitVec 5) (m : BitVec 1) (r : MovRun) (x : Nat) (hb : Hdr × Bytes), Moving s core.toNat m.toNat r → dOp r.desc = 0x60 →
    Memory.wf s.mem = true → x = coreCtx s core.toNat → hb = carried s x (tSrcAt r.desc r.done) → HbmSlot s x (tDstAt r.desc r.done) (64 + hb.2.length) →
    Completes (.tileMove core m) s (fun t => (∃ r', (moverOf t core.toNat m.toNat).run = some r' ∧ r'.done = r.done + 1 ∧ r'.desc = r.desc ∧ r'.status = none) ∧
      TileWritten s t (translate s x (tDstAt r.desc r.done)) hb ∧ t.ctxs = s.ctxs ∧ ∀ k, k ≠ core.toNat → coreOf t k = coreOf s k)) ∧
  (∀ (s : State) (core : BitVec 5) (m : BitVec 1) (r : MovRun) (x src dst : Nat) (h : Hdr), Moving s core.toNat m.toNat r → dOp r.desc = 0x61 →
    Memory.wf s.mem = true → x = coreCtx s core.toNat → src = tSrcAt r.desc r.done → dst = tDstAt r.desc r.done → h = moverHdr s x src →
    UsableTile s x src → hMode h ≠ 3 → hFormat h ≠ 0x0B → CacheSlot s dst (transposeFp h) →
    Completes (.tileMove core m) s (fun t => (∃ r', (moverOf t core.toNat m.toNat).run = some r' ∧ r'.done = r.done + 1 ∧ r'.desc = r.desc ∧ r'.status = none) ∧
      (let g := tileHdr t.mem dst
       hVersion g = 1 ∧ hFormat g = hFormat h ∧ hRows g = hCols h ∧ hCols g = hRows h ∧ hVRows g = hVCols h ∧ hVCols g = hVRows h ∧
        hOwner g = hOwner h ||| r.owner) ∧
      (∀ i < hVRows h, ∀ j < hVCols h, memBits t.mem (dst + 64) (elemOff (hFormat h) (hRows h) j i) (fmtBits (hFormat h)) =
        memBits (tileSeen s x src) 64 (elemOff (hFormat h) (hCols h) i j) (fmtBits (hFormat h))) ∧
      ∀ b, b < dst ∨ dst + transposeFp h ≤ b → mget t.mem b = mget s.mem b)) ∧
  (∀ (s : State) (core : BitVec 5) (m : BitVec 1) (r : MovRun) (x ix dst v : Nat) (h : Hdr), Moving s core.toNat m.toNat r → dOp r.desc = 0x62 →
    Memory.wf s.mem = true → x = coreCtx s core.toNat → ix = unitAddr core.toNat (tIndex r.desc) → dst = tDstAt r.desc r.done →
    h = moverHdr s x (tSrc r.desc) → v = natMin (tRows r.desc) (hVCols (moverHdr s x ix) - r.done * tRows r.desc) → UsableTile s x ix →
    UsableTile s x (tSrc r.desc) → gatherSame h h = .ok → hFormat h ≠ 0x0B → CacheSlot s dst (footprint (gatherOut r.desc h).payload) →
    (∀ k < v, ∃ j : Nat, indexAt s x ix (r.done * tRows r.desc + k) = j ∧ j < tLimit r.desc ∧ UsableTile s x (tSrcAt r.desc (j / hRows h)) ∧
      gatherSame h (moverHdr s x (tSrcAt r.desc (j / hRows h))) = .ok ∧ j % hRows h < hVRows (moverHdr s x (tSrcAt r.desc (j / hRows h)))) →
    Completes (.tileMove core m) s (fun t => (∃ r', (moverOf t core.toNat m.toNat).run = some r' ∧ r'.done = r.done + 1 ∧ r'.desc = r.desc ∧ r'.status = none) ∧
      (∀ k < v, ∀ j : Nat, indexAt s x ix (r.done * tRows r.desc + k) = j → ∀ q < hVCols h,
        memBits t.mem (dst + 64) (elemOff (hFormat h) (hCols h) k q) (fmtBits (hFormat h)) =
          memBits (tileSeen s x (tSrcAt r.desc (j / hRows h))) 64 (elemOff (hFormat h) (hCols h) (j % hRows h) q) (fmtBits (hFormat h))) ∧
      ∀ b, b < dst ∨ dst + footprint (gatherOut r.desc h).payload ≤ b → mget t.mem b = mget s.mem b)) ∧
  (∀ (s : State) (core : BitVec 5) (m : BitVec 1) (r : MovRun) (x src dst : Nat) (h : Hdr), Moving s core.toNat m.toNat r → dOp r.desc = 0x64 → r.adds = [] →
    x = coreCtx s core.toNat → src = tSrcAt r.desc r.done → dst = tDstAt r.desc r.done → h = moverHdr s x src → UsableTile s x src →
    contribCheck s x dst false h = .ok →
    Completes (.tileMove core m) s (fun t => (∃ r', (moverOf t core.toNat m.toNat).run = some r' ∧ r'.done = r.done + 1 ∧ r'.desc = r.desc ∧ r'.status = none ∧
        r'.adds = [s.hbm.adds]) ∧ (contribOf t s.hbm.adds).ctx = x ∧ (contribOf t s.hbm.adds).slot = dst ∧
      (∀ a ∈ addsOf h (hFormat (hdrV s x dst)) (elemCode (tileSeen s x src) 0 h) s.hbm.adds 0 (hData (hdrV s x dst) / 64 + 1),
        a ∈ (contribOf t s.hbm.adds).todo ∨ a ∈ tget [] t.hbm.atomQ (queueAt (translate s x (dst + 64 + 64 * a.line)))) ∧ t.mem = s.mem)) ∧
  (∀ (s : State) (core : BitVec 5) (m : BitVec 1) (r : MovRun) (x key tr : Nat) (hb : Hdr × Bytes) (e : BitVec 128), Moving s core.toNat m.toNat r →
    dOp r.desc = 0x66 → sendLink r.desc = true → x = coreCtx s core.toNat → x < 256 → key = sendKey r.desc → e = entryOf s key → eValid e = true →
    eRole e = 0 → 3 ≤ (pathOf s key).phase → (r.stream = 0 → (pathOf s key).flight.length < 32768) →
    tr = (if r.stream = 0 then (pathOf s key).next.toNat else r.sent.getLast?.getD 0) → tr < 2 ^ 16 →
    hdrCheckUse (coreConsumer s core.toNat) carriedFormat (moverHdr s x (tSrcAt r.desc r.done)) = none → hb = carried s x (tSrcAt r.desc r.done) →
    Completes (.tileMove core m) s (fun t => t.mem = s.mem ∧
      (∃ r', (moverOf t core.toNat m.toNat).run = some r' ∧ r'.done = r.done + 1 ∧ r'.sent = (if r.stream = 0 then r.sent ++ [tr] else r.sent)) ∧
      (pathOf t key).seq = (pathOf s key).seq + ceilDiv (64 + hb.2.length) 8192 ∧
      ∃ fs : List TxFrame, fs.length = ceilDiv (64 + hb.2.length) 8192 ∧
        (if tBounded r.desc then (linkOf t (eOutLink e)).bndQ = (linkOf s (eOutLink e)).bndQ ++ fs
         else (linkOf t (eOutLink e)).unbQ = (linkOf s (eOutLink e)).unbQ ++ fs) ∧
        ∀ (i : Nat) (u : TxFrame), fs[i]? = some u → ∀ c : Bytes, c = ((hBytes hb.1 ++ hb.2).drop (8192 * i)).take 8192 →
          fType u.f.hdr = 1 ∧ fClass u.f.hdr = (if tBounded r.desc then 0 else 1) ∧ fTransfer u.f.hdr = tr ∧
          fOffset u.f.hdr = (r.stream + 8192 * i) % 2 ^ 32 ∧ fLength u.f.hdr = c.length ∧ fPath u.f.hdr = eOutPath e ∧
          u.f.place = slotAddr (64 * nbits (tDst r.desc) 28 0) (tDstStride r.desc) r.done ∧
          (u.f.payload, u.f.ptag) = (fun y : Bytes × BitVec 128 => (padTo c.length y.1, y.2))
            (Config.gcmSeal ((keyOf s (pathOf s key).slot).take 32) (slice (keyOf s (pathOf s key).slot) 32 4 ++ bytesBE 8 ((pathOf s key).seq + i))
              (pathAad u.f.hdr) c))) ∧
  (∀ (s : State) (core : BitVec 5) (m : BitVec 1) (r : MovRun), Moving s core.toNat m.toNat r → dOp r.desc = 0x60 → Memory.wf s.mem = true →
    CacheSlot s (tDstAt r.desc r.done) (64 + (carried s (coreCtx s core.toNat) (tSrcAt r.desc r.done)).2.length) →
    Completes (.tileMove core m) s (fun t => (∃ r', (moverOf t core.toNat m.toNat).run = some r' ∧ r'.done = r.done + 1 ∧ r'.desc = r.desc ∧ r'.status = none) ∧
      TileWritten s t (tDstAt r.desc r.done) (carried s (coreCtx s core.toNat) (tSrcAt r.desc r.done)) ∧ t.ctxs = s.ctxs ∧
      ∀ k, k ≠ core.toNat → coreOf t k = coreOf s k)) ∧
  (∀ (s : State) (core : BitVec 5) (m : BitVec 1) (r : MovRun), Moving s core.toNat m.toNat r → dOp r.desc = 0x63 → tAcc r.desc = false →
    Memory.wf s.mem = true → CacheSlot s (tDstAt r.desc r.done) 64 →
    Completes (.tileMove core m) s (fun t => (∃ r', (moverOf t core.toNat m.toNat).run = some r' ∧ r'.done = r.done + 1 ∧ r'.desc = r.desc ∧ r'.status = none) ∧
      TileWritten s t (tDstAt r.desc r.done)
        (zeroHdr core.toNat m.toNat r (coreCtx s core.toNat) (moverHdr s (coreCtx s core.toNat) (tSrc r.desc)) s, []))) ∧
  (∀ (s : State) (core : BitVec 5) (m : BitVec 1) (r : MovRun), (moverOf s core.toNat m.toNat).run = some r →
    (r.waitAdm ≠ none ∨ tCount r.desc ≤ r.done ∨ r.status ≠ none) → exec (.tileMove core m) s = .next s))

/-- R254, R258, R285: a slot that has its contributions is read out as a tile; admission is tried again at its time, for the
bounded class against its reservation's bucket: accepted, held until the next time that admission names, or refused for good; a descriptor that has
its status, or whose tiles and all that they started have ended, completes: its tag is DONE with the status, and the tile mover is free.
Commands that it says complete: accReadRelease, admitWaitExpiry, tileMoverCompletion. -/
def Obligations.MoverWaitsAndCompletion : Prop :=
  (∀ (s : State) (core : BitVec 5) (m : BitVec 1) (r : MovRun), coreLive s core.toNat = true → (moverOf s core.toNat m.toNat).run = some r →
    r.waitAcc = true → dOp r.desc = 0x65 → accReady s (coreCtx s core.toNat) (tSrcAt r.desc r.done) = true → Memory.wf s.mem = true →
    CacheSlot s (tDstAt r.desc r.done) (64 + (readOut core.toNat m.toNat r (coreCtx s core.toNat) (tSrcAt r.desc r.done) s).2.length) →
    Completes (.accReadRelease core m) s (fun t => (∃ r', (moverOf t core.toNat m.toNat).run = some r' ∧ r'.done = r.done + 1 ∧ r'.waitAcc = false) ∧
      TileWritten s t (tDstAt r.desc r.done) (readOut core.toNat m.toNat r (coreCtx s core.toNat) (tSrcAt r.desc r.done) s))) ∧
  (∀ (s : State) (core : BitVec 5) (m : BitVec 1) (r : MovRun), (moverOf s core.toNat m.toNat).run = some r →
    accReady s (coreCtx s core.toNat) (tSrcAt r.desc r.done) = false → exec (.accReadRelease core m) s = .next s) ∧
  (∀ (s : State) (core : BitVec 5) (m : BitVec 1) (r : MovRun) (e : Nat), coreLive s core.toNat = true → (moverOf s core.toNat m.toNat).run = some r →
    r.waitAdm = some e → tBounded r.desc = false → dOp r.desc ≠ 0x66 →
    exec (.admitWaitExpiry core m) s = .next (modRunM core.toNat m.toNat (fun r => { r with
      waitAdm := none
      accept := natMax (now s) e
      rate := fillRate s (resvOf s (ctxOf s (coreCtx s core.toNat)).part.toNat (tResv r.desc)) }) s)) ∧
  (∀ (s : State) (core : BitVec 5) (m : BitVec 1) (r : MovRun) (e p : Nat) (u : Admit × State), coreLive s core.toNat = true →
    (moverOf s core.toNat m.toNat).run = some r → r.waitAdm = some e → tBounded r.desc = true → sendPush r.desc = false →
    (sendLink r.desc = true → (pathOf s (sendKey r.desc)).seq < 2 ^ 48 - 1) → p = (ctxOf s (coreCtx s core.toNat)).part.toNat →
    u = admitAt (natMax (now s) e) p (tResv r.desc) r.charged s →
    (u.1 = .accepted → exec (.admitWaitExpiry core m) s = .next (modRunM core.toNat m.toNat (fun r => { r with
      waitAdm := none
      accept := natMax (now s) e
      rate := fillRate s (resvOf s p (tResv r.desc)) }) u.2)) ∧
    (u.1 = .notAdmitted → exec (.admitWaitExpiry core m) s = .next (modRunM core.toNat m.toNat (fun r => { r with
      waitAdm := none
      status := some .notAdmitted }) u.2)) ∧
    (∀ (f : Nat), u.1 = .deferred f → tWait r.desc = true →
      exec (.admitWaitExpiry core m) s = .next (modRunM core.toNat m.toNat (fun r => { r with waitAdm := some f }) u.2))) ∧
  (∀ (s : State) (core : BitVec 5) (m : BitVec 1) (r : MovRun), coreLive s core.toNat = true → (moverOf s core.toNat m.toNat).run = some r →
    (∀ (st : Status), r.status = some st → r.adds = [] → r.sent = [] → exec (.tileMoverCompletion core m) s =
      .next (tagDone core.toNat r.grain (dTag r.desc) st (setMover core.toNat m.toNat { queue := (moverOf s core.toNat m.toNat).queue } s))) ∧
    (r.status = none → moverEnded s core.toNat m.toNat r = true → exec (.tileMoverCompletion core m) s =
      .next (tagDone core.toNat r.grain (dTag r.desc) (endStatus r) (setMover core.toNat m.toNat { queue := (moverOf s core.toNat m.toNat).queue } s))) ∧
    (r.status = none → r.done < tCount r.desc → exec (.tileMoverCompletion core m) s = .next s))

/-- R225, R241, R242-R244, R246, R247, R248, R260, R372, R386, R387: A read of a line whose checks pass returns its 64 bytes, of a metadata line
as the counters and tags make it; of a poisoned line POISON and no byte; a line that fails its tag becomes poisoned and returns POISON; an
address that the master may not reach returns the check's code and no byte. Reading changes no byte of memory; the counter cache holds a
sealed line's tag line and leaf from then on. That a control window answers without data is the model's choice, log entry 132. A full-line
write stores the line and clears its poison, and in a sealed region advances its minor counter; at minor 127 the group's re-encryption
begins and the line waits for its end, or is refused where its major counter is at its end; a write to a group under re-encryption waits. A
write to a line that a snapshot has yet to copy sends its group's old bytes to the push-ahead buffer, with a staging slot and the map entry
that names it, and goes on; where the buffer or the staging area is full it stalls. A partial write changes the bytes it names alone; to a
poisoned line it answers POISON; one that passes the end of its line is refused with BAD_LENGTH.
Commands that it says complete: hbmRead, hbmWrite, partialWrite. -/
def Obligations.LineReadAndWrite : Prop :=
  ((∀ (s : State) (m : Master) (pa : W64), s.pkg.supply = .on → masterCheck s m rREAD (lineOf pa.toNat) = .ok → ctrlWindow (lineOf pa.toNat) = false →
    (isHbm s (lineOf pa.toNat) = true → isMeta s (lineOf pa.toNat) = false → poisoned s (lineOf pa.toNat) = false) →
    Completes (.hbmRead m pa .good) s (fun t => t = { s with
        out := s.out ++ [.mem m .ok (bytesLE 64 (lineOut s (lineOf pa.toNat)).toNat)]
        hbm := { s.hbm with clean := t.hbm.clean }
        free := t.free } ∧
      (isHbm s (lineOf pa.toNat) = true → isMeta s (lineOf pa.toNat) = false → sealedAt s (lineOf pa.toNat) = true → groupBusy s (lineOf pa.toNat) = false →
        s.hbm.clean.length + s.hbm.dirty.length + 8 ≤ cacheLines →
        metaHeld t (lineOf (tagPa (lineOf pa.toNat))) = true ∧ metaHeld t (leafPa (lineOf pa.toNat)) = true))) ∧
  (∀ (s : State) (m : Master) (pa : W64), s.pkg.supply = .on → masterCheck s m rREAD (lineOf pa.toNat) = .ok → isHbm s (lineOf pa.toNat) = true →
    isMeta s (lineOf pa.toNat) = false → poisoned s (lineOf pa.toNat) = true →
    Completes (.hbmRead m pa .good) s (fun t => t = { s with
      out := s.out ++ [.mem m .poison []]
      hbm := { s.hbm with clean := t.hbm.clean }
      free := t.free })) ∧
  (∀ (s : State) (m : Master) (pa : W64) (find : HbmFind), s.pkg.supply = .on → masterCheck s m rREAD (lineOf pa.toNat) ≠ .ok →
    exec (.hbmRead m pa find) s = .next { s with out := s.out ++ [.mem m (masterCheck s m rREAD (lineOf pa.toNat)) []] }) ∧
  (∀ (s : State) (m : Master) (pa : W64) (find : HbmFind), s.pkg.supply = .on → ctrlWindow (lineOf pa.toNat) = true →
    exec (.hbmRead m pa find) s = .next { s with out := s.out ++ [.mem m
      (if m = 0x5F ∨ (m = 0x51 ∧ statePort (lineOf pa.toNat) = true) then .ok else .denied) []] }) ∧
  (∀ (s : State) (m : Master) (pa : W64), s.pkg.supply = .on → masterCheck s m rREAD (lineOf pa.toNat) = .ok → isHbm s (lineOf pa.toNat) = true →
    isMeta s (lineOf pa.toNat) = false → findHits s (lineOf pa.toNat) .tagBad = true →
    Completes (.hbmRead m pa .tagBad) s (fun t => poisoned t (lineOf pa.toNat) = true ∧ t.out.getLast? = some (.mem m .poison []) ∧ t.mem = s.mem))) ∧
  ((∀ (s : State) (m : Master) (pa : W64) (d : WriteLine), s.pkg.supply = .on → writeCheck s m (lineOf pa.toNat) = .ok →
    isHbm s (lineOf pa.toNat) = true → isMeta s (lineOf pa.toNat) = false →
    NoSnapshot s (lineOf pa.toNat) → CounterOpen s (lineOf pa.toNat) → Memory.wf s.mem = true →
    Completes (.hbmWrite m pa d) s (fun t => LineWritten s t (lineOf pa.toNat) d.data ∧ t.out = s.out ++ [.mem m .ok []] ∧
      (sealedAt s (lineOf pa.toNat) = true → minorOf (ctrGroup t (lineOf pa.toNat / 4096)) (lineOf pa.toNat) =
        minorOf (ctrGroup s (lineOf pa.toNat / 4096)) (lineOf pa.toNat) + 1 ∧
        (ctrGroup t (lineOf pa.toNat / 4096)).major = (ctrGroup s (lineOf pa.toNat / 4096)).major) ∧ t.cores = s.cores ∧ t.ctxs = s.ctxs)) ∧
  (∀ (s : State) (m : Master) (pa : W64) (d : WriteLine), s.pkg.supply = .on → writeCheck s m (lineOf pa.toNat) = .ok →
    isHbm s (lineOf pa.toNat) = true → isMeta s (lineOf pa.toNat) = false → NoSnapshot s (lineOf pa.toNat) → sealedAt s (lineOf pa.toNat) = true →
    (ctrGroup s (lineOf pa.toNat / 4096)).busy = false → (ctrGroup s (lineOf pa.toNat / 4096)).shut = false →
    minorOf (ctrGroup s (lineOf pa.toNat / 4096)) (lineOf pa.toNat) = 127 → Memory.wf s.mem = true →
    ((ctrGroup s (lineOf pa.toNat / 4096)).major ≠ majorEnd → Completes (.hbmWrite m pa d) s (fun t => t.mem = s.mem ∧ t.out = s.out ∧
      (ctrGroup t (lineOf pa.toNat / 4096)).busy = true ∧
      (ctrGroup t (lineOf pa.toNat / 4096)).trig = some { pa := lineOf pa.toNat, data := d.data, master := m, reply := true })) ∧
    ((ctrGroup s (lineOf pa.toNat / 4096)).major = majorEnd → Completes (.hbmWrite m pa d) s (fun t => t.mem = s.mem ∧
      (ctrGroup t (lineOf pa.toNat / 4096)).shut = true ∧ t.out = s.out ++ [.mem m .counterExhausted []]))) ∧
  (∀ (s : State) (m : Master) (pa : W64) (d : WriteLine), s.pkg.supply = .on → writeCheck s m (lineOf pa.toNat) = .ok →
    isHbm s (lineOf pa.toNat) = true → NoSnapshot s (lineOf pa.toNat) → groupBusy s (lineOf pa.toNat) = true →
    exec (.hbmWrite m pa d) s = .next (waitOn { pa := lineOf pa.toNat, data := d.data, master := m, reply := true } s)) ∧
  (∀ (s : State) (m : Master) (pa : W64) (n : BitVec 7) (d : BitVec 512), s.pkg.supply = .on → writeCheck s m (lineOf pa.toNat) = .ok →
    isHbm s (lineOf pa.toNat) = true → isMeta s (lineOf pa.toNat) = false → NoSnapshot s (lineOf pa.toNat) → CounterOpen s (lineOf pa.toNat) →
    Memory.wf s.mem = true → poisoned s (lineOf pa.toNat) = false → 0 < n.toNat → pa.toNat % 64 + n.toNat ≤ 64 →
    Completes (.partialWrite m pa n d .good) s (fun t => t.out = s.out ++ [.mem m .ok []] ∧
      (∀ i < n.toNat, mget t.mem (pa.toNat + i) = BitVec.ofNat 8 (d.toNat / 256 ^ i)) ∧
      ∀ b, b < pa.toNat ∨ pa.toNat + n.toNat ≤ b → mget t.mem b = mget s.mem b)) ∧
  (∀ (s : State) (m : Master) (pa : W64) (n : BitVec 7) (d : BitVec 512) (find : HbmFind), s.pkg.supply = .on → writeCheck s m (lineOf pa.toNat) = .ok →
    isHbm s (lineOf pa.toNat) = true → (find = .good ∨ NoSnapshot s (lineOf pa.toNat)) → poisoned s (lineOf pa.toNat) = true → groupBusy s (lineOf pa.toNat) = false → 0 < n.toNat →
    pa.toNat % 64 + n.toNat ≤ 64 → exec (.partialWrite m pa n d find) s = .next { s with out := s.out ++ [.mem m .poison []] }) ∧
  (∀ (s : State) (m : Master) (pa : W64) (n : BitVec 7) (d : BitVec 512) (find : HbmFind), s.pkg.supply = .on → 64 < pa.toNat % 64 + n.toNat → 0 < n.toNat →
    exec (.partialWrite m pa n d find) s = .next { s with out := s.out ++ [.mem m .badLength []] }) ∧
  (∀ (s : State) (m : Master) (pa : W64) (d : WriteLine), s.pkg.supply = .on → withdrawn s (lineOf pa.toNat) = true → m ≠ 0x5F →
    exec (.hbmWrite m pa d) s = .next { s with out := s.out ++ [.mem m .denied []] }) ∧
  (∀ (s : State) (m : Master) (pa : W64) (d : WriteLine) (a p e : Nat) (n : Snapshot), s.pkg.supply = .on → a = lineOf pa.toNat → writeCheck s m a = .ok →
    isHbm s a = true → isMeta s a = false → CounterOpen s a → Memory.wf s.mem = true → d.find = .good → partOfSlice s (sliceOf a) = some p →
    n = (partOf s p).snap → needsPush n a = true → poisonIn s (a / 4096 * 4096) 4096 = false → e = mapPa n (shardGroup n a) →
    (pushFull n a = true → Completes (.hbmWrite m pa d) s (fun t => t.mem = s.mem ∧ t.out = s.out ∧ a / 4096 ∈ (partOf t p).snap.stalls ∧
      t = { s with parts := t.parts })) ∧
    (pushFull n a = false → e / 4096 ≠ a / 4096 → e % 64 + 4 ≤ 64 → isHbm s e = true → isAlias e = false → isMeta s (lineOf e) = false →
      poisoned s (lineOf e) = false → CounterOpen s (lineOf e) → Completes (.hbmWrite m pa d) s (fun t =>
        lineData t a = d.data ∧ t.out = s.out ++ [.mem m .ok []] ∧ (∀ i < 4, mget t.mem (e + i) = (bytesLE 4 (n.used + 1)).getD i 0) ∧
        (∀ b, b < a ∨ a + 64 ≤ b → b < e ∨ e + 4 ≤ b → mget t.mem b = mget s.mem b) ∧
        (partOf t p).snap = { n with
          used := n.used + 1
          pushed := n.pushed + 1
          map := tset n.map (a / 4096) (n.used + 1)
          stage := tset n.stage n.used (mread s.mem (a / 4096 * 4096) 4096)
          pbuf := n.pbuf ++ [a / 4096] }))))

/-- R242, R243, R249, R257, R258, R260, R335, R386: A line add at the head of its channel's queue leaves each element that takes part as the
adder's sum of what the line held and what the contribution brings, and no other byte; the head leaves the queue. An add to a group under
re-encryption waits at the head. A group's re-encryption ends with its major counter advanced and its minors at 0; the write that called for
it goes in with it, and a write that waited goes in after it, and each is answered; a dirty leaf's or node's write-back advances its parent
counter, a tag line's advances none; a region's zero-on-first-touch work ends with ZOT clear, and on each of its stacks at this time; a
burst of one die's oldest groups leaves the push-ahead buffer over a claimed channel and stands in the staging area. With nothing under way,
or no channel open, each changes nothing.
Commands that it says complete: lineAdd, groupReencryptDone, metadataWriteback, zotWorkDone, pushaheadDrain. -/
def Obligations.LineAddAndMetadata : Prop :=
  ((∀ (s : State) (stack : BitVec 4) (ch : BitVec 5) (a : LineAdd) (rest : List LineAdd) (k : Contrib) (pa : Nat), s.pkg.supply = .on →
    tget [] s.hbm.atomQ (stack.toNat * 32 + ch.toNat) = a :: rest → contribOf s a.id = k → 2 ≤ k.queued → linePa s k a.line = pa →
    (∀ x ∈ s.hbm.contribs, x.1 ≠ a.id → (contribOf s x.1).todo ≠ [] ∨ (contribOf s x.1).queued ≠ 0 ∨ (contribOf s x.1).whole = false) →
    isHbm s pa = true → isMeta s pa = false → poisoned s pa = false → NoSnapshot s pa → CounterOpen s pa → Memory.wf s.mem = true →
    Completes (.lineAdd stack ch .good) s (fun t => LineWritten s t pa (a.elems.foldl (fun d e =>
        setFld d (e.1 + fmtBits k.fmt.toNat - 1) e.1 (adderSum k.fmt.toNat (nbits d.toNat (e.1 + fmtBits k.fmt.toNat - 1) e.1) (hFormat k.hdr) e.2).1) (lineData s pa)) ∧
      (∃ more, tget [] t.hbm.atomQ (stack.toNat * 32 + ch.toNat) = rest ++ more) ∧ (contribOf t a.id).added = true ∧ t.cores = s.cores)) ∧
  (∀ (s : State) (stack : BitVec 4) (ch : BitVec 5) (find : HbmFind), (tget [] s.hbm.atomQ (stack.toNat * 32 + ch.toNat) = [] ∨
      ∃ a rest, tget [] s.hbm.atomQ (stack.toNat * 32 + ch.toNat) = a :: rest ∧ groupBusy s (linePa s (contribOf s a.id) a.line) = true) →
    exec (.lineAdd stack ch find) s = .next s)) ∧
  ((∀ (s : State) (g : W64) (k : CtrGroup), ctrGroup s g.toNat = k → k.busy = true → k.waiting = [] → k.trig = none → s.hbm.contribs = [] →
    Completes (.groupReencryptDone g 0) s (fun t => (ctrGroup t g.toNat).major = k.major + 1 ∧ (ctrGroup t g.toNat).minors = [] ∧
      (ctrGroup t g.toNat).busy = false ∧ (ctrGroup t g.toNat).trig = none ∧ t.mem = s.mem ∧ t.hbm.poison = s.hbm.poison ∧ t.cores = s.cores)) ∧
  (∀ (s : State) (g : W64) (k : CtrGroup) (pa : Nat) (d : BitVec 512) (m : Nat), ctrGroup s g.toNat = k → k.busy = true → k.shut = false →
    k.trig = none → k.waiting = [{ pa := pa, data := d, master := m, reply := true }] → pa / 4096 = g.toNat → pa % 64 = 0 → isHbm s pa = true → isMeta s pa = false →
    sealedAt s pa = true → s.hbm.contribs = [] → Memory.wf s.mem = true →
    Completes (.groupReencryptDone g 0) s (fun t => (ctrGroup t g.toNat).major = k.major + 1 ∧ (ctrGroup t g.toNat).minors = [(pa / 64 % 64, 1)] ∧
      (ctrGroup t g.toNat).busy = false ∧ (ctrGroup t g.toNat).waiting = [] ∧ LineWritten s t pa d ∧ t.out.getLast? = some (.mem m .ok []) ∧
      t.cores = s.cores)) ∧
  (∀ (s : State) (g : W64) (k : CtrGroup) (pa : Nat) (d : BitVec 512) (m : Nat), ctrGroup s g.toNat = k → k.busy = true → k.waiting = [] →
    k.trig = some { pa := pa, data := d, master := m, reply := true } → pa / 4096 = g.toNat → pa % 64 = 0 → s.hbm.contribs = [] → Memory.wf s.mem = true →
    Completes (.groupReencryptDone g 0) s (fun t => (ctrGroup t g.toNat).major = k.major + 1 ∧ (ctrGroup t g.toNat).minors = [] ∧
      (ctrGroup t g.toNat).busy = false ∧ LineWritten s t pa d ∧ t.out = s.out ++ [.mem m .ok []] ∧ t.cores = s.cores)) ∧
  (∀ (s : State) (g bad : W64), (ctrGroup s g.toNat).busy = false → exec (.groupReencryptDone g bad) s = .next s) ∧
  (∀ (s : State) (line : W64) (k : Nat) (i : Nat), lineOf line.toNat ∈ s.hbm.dirty → parentOf (lineOf line.toNat) = some (some k, i) →
    tget 0 s.hbm.nodes k + 1 < counterEnd →
    Completes (.metadataWriteback line) s (fun t => tget 0 t.hbm.nodes k = tget 0 s.hbm.nodes k + 1 ∧ k / 8 ∈ t.hbm.dirty ∧ t.hbm.roots = s.hbm.roots ∧
      (lineOf line.toNat ≠ k / 8 → lineOf line.toNat ∉ t.hbm.dirty) ∧ t.mem = s.mem)) ∧
  (∀ (s : State) (line : W64) (i : Nat), lineOf line.toNat ∈ s.hbm.dirty → parentOf (lineOf line.toNat) = some (none, i) → tget 0 s.hbm.roots i + 1 < counterEnd →
    Completes (.metadataWriteback line) s (fun t => tget 0 t.hbm.roots i = tget 0 s.hbm.roots i + 1 ∧ t.hbm.nodes = s.hbm.nodes ∧
      lineOf line.toNat ∉ t.hbm.dirty ∧ t.mem = s.mem)) ∧
  (∀ (s : State) (line : W64), lineOf line.toNat ∈ s.hbm.dirty → parentOf (lineOf line.toNat) = none →
    Completes (.metadataWriteback line) s (fun t => t.hbm.nodes = s.hbm.nodes ∧ t.hbm.roots = s.hbm.roots ∧ lineOf line.toNat ∉ t.hbm.dirty ∧ t.mem = s.mem)) ∧
  (∀ (s : State) (line : W64), lineOf line.toNat ∉ s.hbm.dirty → exec (.metadataWriteback line) s = .next s) ∧
  (∀ (s : State) (ctx : BitVec 8) (entry : BitVec 10) (w : ZotWork), s.hbm.zotQ = [w] → w.ctx = ctx.toNat → w.entry = entry.toNat →
    regValid (tget 0 (ctxOf s ctx.toNat).regions entry.toNat) = true →
    (w.isSealed = true → pathEnds s (sliceOf w.base) (w.base % 2 ^ 32 / 4096) ((w.base % 2 ^ 32 + w.len - 1) / 4096) = false) →
    Completes (.zotWorkDone ctx entry) s (fun t => t.hbm.zotQ = [] ∧
      (∀ k < 12, tget 0 t.hbm.zotFree k = if zotWork k w = 0 then tget 0 s.hbm.zotFree k else now s) ∧ regZot (tget 0 (ctxOf t ctx.toNat).regions entry.toNat) = false ∧
      regValid (tget 0 (ctxOf t ctx.toNat).regions entry.toNat) = true ∧ t.mem = s.mem)) ∧
  (∀ (s : State) (p : BitVec 4) (g : Nat) (rest burst : List Nat) (i core : Nat), (partOf s p.toNat).snap.pbuf = g :: rest →
    burst = ((g :: rest).filter (fun x => stackOf (x * 4096) / 3 == stackOf (g * 4096) / 3)).take 16 →
    pushChannel s p.toNat (burst.length * 32) = some (i, core) →
    Completes (.pushaheadDrain p) s (fun t => (partOf t p.toNat).snap.pbuf = (g :: rest).filter (fun x => !burst.contains x) ∧
      (partOf t p.toNat).snap.turn = i + 1 ∧ (partOf t p.toNat).snap.used = (partOf s p.toNat).snap.used ∧
      (partOf t p.toNat).snap.map = (partOf s p.toNat).snap.map)) ∧
  (∀ (s : State) (p : BitVec 4) (g k a i core : Nat), (partOf s p.toNat).snap.pbuf = [g] → tget 0 (partOf s p.toNat).snap.map g = k + 1 →
    pushChannel s p.toNat 32 = some (i, core) → a = stagePa (partOf s p.toNat).snap k → a % 64 = 0 → isAlias a = false → Memory.wf s.mem = true →
    (tget [] (partOf s p.toNat).snap.stage k).length = 4096 →
    (∀ j < 64, isHbm s (a + 64 * j) = true ∧ isMeta s (a + 64 * j) = false ∧ CounterOpen s (a + 64 * j)) →
    Completes (.pushaheadDrain p) s (fun t => (∀ j < 4096, mget t.mem (a + j) = (tget [] (partOf s p.toNat).snap.stage k).getD j 0) ∧
      (∀ b, b < a ∨ a + 4096 ≤ b → mget t.mem b = mget s.mem b) ∧ (partOf t p.toNat).snap.pbuf = [])) ∧
  (∀ (s : State) (p : BitVec 4), ((partOf s p.toNat).snap.pbuf = [] ∨ ∀ ns, pushChannel s p.toNat ns = none) → exec (.pushaheadDrain p) s = .next s))

/-! ## Links and paths (chapter 9) -/

/-- R262, R263, R264, R266, R267, R268, R275: a link's way from DOWN to UP: it trains while its clock is present and it may be tried; a cable
delay of at most 1,000 ns starts HELLO; a HELLO of the device itself, a report that does not verify, a partner that policy does
not accept and a confirmation that fails send it to DOWN with their causes; a partner that is accepted has its hop keys in their two
slots; both confirmed, it is UP with sequence numbers 0 and the credits of its shares.
Commands that it says complete: linkSignalDetect, linkTrainingDone, linkHello, linkAttest, policyVerdict, keyConfirm. -/
def Obligations.LinkHandshake : Prop :=
  (∀ (s : State) (l : BitVec 5), fwRuns s = true → linkSt s l.toNat = .down → linkEnabled (active s) l.toNat = true → linkRef s l.toNat = true →
    (linkOf s l.toNat).retryOk = true → Completes (.linkSignalDetect l) s (fun t => LinkMoved s t l.toNat .training 0 ∧ t.keys = s.keys)) ∧
  (∀ (s : State) (l : BitVec 5) (d : Nat), linkSt s l.toNat = .training → Completes (.linkTrainingDone l d) s (fun t =>
    (1000 < d → LinkFell s t l.toNat 0x05) ∧
    (d ≤ 1000 → LinkMoved s t l.toNat .hello 0 ∧ (linkOf t l.toNat).d = d ∧
      (linkOf t l.toNat).myHello = helloOf s l.toNat (linkOf t l.toNat).nonce (linkOf t l.toNat).eph ∧
      Emit.frame l.toNat (ctrlFrame 0x10 0 0 (linkOf t l.toNat).myHello) ∈ t.out))) ∧
  (∀ (s : State) (l : BitVec 5) (p : Bytes), linkSt s l.toNat = .hello → hlOk p = true → p.length = hlLen p →
    Completes (.linkHello l p) s (fun t =>
      (hlSerial p = s.fuses.serial.toNat → LinkFell s t l.toNat 0x06) ∧
      (hlSerial p ≠ s.fuses.serial.toNat → LinkMoved s t l.toNat .attest 0 ∧ (linkOf t l.toNat).hello = p ∧
        (linkOf t l.toNat).peer = BitVec.ofNat 64 (hlSerial p) ∧ (linkOf t l.toNat).myRep = report s (hlNonce p) 0xFF))) ∧
  (∀ (s : State) (l : BitVec 5) (p : Bytes), linkSt s l.toNat = .hello → hlOk p = false → exec (.linkHello l p) s = .next s) ∧
  (∀ (s : State) (l : BitVec 5) (p : Bytes), linkSt s l.toNat = .attest → (linkOf s l.toNat).report = [] →
    Completes (.linkAttest l p) s (fun t =>
      let k := linkOf s l.toNat
      (reportOk (p.take 1060) (hlCert k.hello) k.nonce k.peer.toNat = true → t = setLink s l.toNat { k with report := p.take 1060 }) ∧
      (reportOk (p.take 1060) (hlCert k.hello) k.nonce k.peer.toNat = false → LinkFell s t l.toNat 0x07))) ∧
  (∀ (s : State) (l : BitVec 5) (accept : Bool), linkSt s l.toNat = .attest → (linkOf s l.toNat).report ≠ [] →
    Completes (.policyVerdict l accept) s (fun t =>
      ((accept && partnerOk s (linkOf s l.toNat).report) = false → LinkFell s t l.toNat 0x09 ∧ (linkOf t l.toNat).polWait = true) ∧
      (accept = true → partnerOk s (linkOf s l.toNat).report = true → (linkOf s l.toNat).kcHeld = none →
        LinkMoved s t l.toNat .keyed 0 ∧ (linkOf t l.toNat).eph = 0 ∧ (keyOf t (0x120 + 2 * l.toNat)).length = 36 ∧
        (keyOf t (0x121 + 2 * l.toNat)).length = 36 ∧ ∀ n, n ≠ 0x120 + 2 * l.toNat → n ≠ 0x121 + 2 * l.toNat → keyOf t n = keyOf s n))) ∧
  (∀ (s : State) (l : BitVec 5) (f : Frame), linkSt s l.toNat = .keyed → fType f.hdr = 0x12 →
    Completes (.keyConfirm l f) s (fun t =>
      let ok := confirmOk (rxKey s l.toNat) (linkTh s l.toNat) (hlCert (linkOf s l.toNat).hello) f.payload
      (ok = true → LinkMoved s t l.toNat .up 0 ∧ (linkOf t l.toNat).txSeq = 0 ∧ (linkOf t l.toNat).rxSeq = 0 ∧
        (linkOf t l.toNat).creds = startCredits s l.toNat ∧ (linkOf t l.toNat).wait = 1 ∧ t.keys = s.keys) ∧
      (ok = false → LinkFell s t l.toNat 0x08))) ∧
  (∀ (s : State) (l : BitVec 5) (f : Frame), linkSt s l.toNat = .attest → fType f.hdr = 0x12 →
    exec (.keyConfirm l f) s = .next (setLink s l.toNat { linkOf s l.toNat with kcHeld := some f }))

/-- R263, R264, R265, R274, R277: how a link is lost and tried again. Each timeout and each reset before UP sends it to DOWN with its cause;
from UP the firmware's fence, a lost signal, 100 ms of DEGRADED and the eighth retransmission fence it; a fenced link goes to DOWN, or
is retired by the firmware's order or by five fences in one hour; the retry timer lets it be tried again.
Commands that it says complete: trainTimeout, helloTimeout, attestTimeout, keyTimeout, linkFence, linkReset, linkFencedTimeout,
linkRetryTimer, linkRetransmitTimeout, degradedFenceTimer, signalLoss. -/
def Obligations.LinkLoss : Prop :=
  (∀ (i : BitVec 5 → Instr) (st : LinkState) (cause : Nat),
    (i, st, cause) ∈ [(Instr.trainTimeout, LinkState.training, 1), (Instr.helloTimeout, .hello, 2), (Instr.attestTimeout, .attest, 3),
      (Instr.keyTimeout, .keyed, 4), (Instr.signalLoss, .training, 0x10), (Instr.signalLoss, .hello, 0x10), (Instr.signalLoss, .attest, 0x10),
      (Instr.signalLoss, .keyed, 0x10)] →
    ∀ (s : State) (l : BitVec 5), linkSt s l.toNat = st → Completes (i l) s (fun t => LinkFell s t l.toNat cause)) ∧
  (∀ (s : State) (l : BitVec 5), linkSt s l.toNat = .up → exec (.signalLoss l) s = .next s) ∧
  (∀ (s : State) (l : BitVec 5) (f : Frame), fType f.hdr = 0x13 →
    (linkSt s l.toNat = .hello ∨ linkSt s l.toNat = .attest ∨ linkSt s l.toNat = .keyed) →
    Completes (.linkReset l f) s (fun t => LinkFell s t l.toNat 0x14)) ∧
  (∀ (s : State) (l : BitVec 5) (f : Frame), Arrives s l.toNat f 0x13 2 → Completes (.linkReset l f) s (fun t => Fenced t l.toNat 0x14)) ∧
  (∀ (s : State) (l : BitVec 5) (cause : Byte), linkUp s l.toNat = true → cause ∈ ([0x10, 0x11, 0x15, 0x16] : List Byte) →
    Completes (.linkFence l cause) s (fun t => Fenced t l.toNat cause.toNat)) ∧
  (∀ (s : State) (l : BitVec 5), linkUp s l.toNat = true → (linkOf s l.toNat).degraded = true →
    Completes (.degradedFenceTimer l) s (fun t => Fenced t l.toNat 0x15)) ∧
  (∀ (s : State) (l : BitVec 5), (linkOf s l.toNat).degraded = false → exec (.degradedFenceTimer l) s = .next s) ∧
  (∀ (s : State) (l : BitVec 5), linkUp s l.toNat = true → (linkOf s l.toNat).unacked ≠ [] → Completes (.linkRetransmitTimeout l) s (fun t =>
    let k := linkOf s l.toNat
    ((∀ u ∈ k.unacked, u.tries < 7) → t = setLink s l.toNat { k with retrQ := k.unacked }) ∧
    ((∃ u ∈ k.unacked, 7 ≤ u.tries) → Fenced t l.toNat 0x12))) ∧
  (∀ (s : State) (l : BitVec 5), linkSt s l.toNat = .fenced → Completes (.linkFencedTimeout l) s (fun t =>
    let k := linkOf s l.toNat
    let recent := (k.fences.filter (fun x => now s < x + 3600000000000)).length
    (k.cause = 0x16 ∨ 5 ≤ recent → linkSt t l.toNat = .retired ∧ bit t.nvm.retiredLks l.toNat = true ∧ t.mem = s.mem ∧ t.parts = s.parts) ∧
    (k.cause ≠ 0x16 → recent < 5 → LinkFell s t l.toNat k.cause.toNat))) ∧
  (∀ (s : State) (l : BitVec 5), linkSt s l.toNat = .down → (linkOf s l.toNat).retryOk = false →
    exec (.linkRetryTimer l) s = .next (setLink s l.toNat { linkOf s l.toNat with retryOk := true, polWait := false }))

/-- R265, R272, R274, R275, R276, R277: the frames of an UP link. Control frames go before retransmissions, and these before the bounded
frame with the smallest BOUND_REMAINING among those whose credits are covered, which takes the next LINK_SEQ and spends its credits;
an ACK frees what it acknowledges, a NAK has the rest sent again, FILL is counted and discarded, the ACK timer answers with the highest
LINK_SEQ held; a frame that fails the hop check is discarded with a NAK, and the sixteenth in a row fences the link; a window of
corrected symbols sets or clears DEGRADED.
Commands that it says complete: linkTransmit, linkAck, nak, fill, linkAckTimer, fecWindow. -/
def Obligations.LinkFrames : Prop :=
  (∀ (s : State) (l : BitVec 5) (u : TxFrame) (rest : List TxFrame), linkUp s l.toNat = true → (linkOf s l.toNat).ctrlQ = u :: rest →
    exec (.linkTransmit l) s = .next (sendFrame l.toNat u.f (setLink s l.toNat { linkOf s l.toNat with ctrlQ := rest }))) ∧
  (∀ (s : State) (l : BitVec 5) (u : TxFrame) (rest : List TxFrame), linkUp s l.toNat = true → (linkOf s l.toNat).ctrlQ = [] →
    (linkOf s l.toNat).retrQ = u :: rest →
    exec (.linkTransmit l) s = .next (sendFrame l.toNat u.f (setLink s l.toNat { linkOf s l.toNat with
      retrQ := rest, unacked := retried (fSeq u.f.hdr) (linkOf s l.toNat).unacked }))) ∧
  (∀ (q : Nat) (us : List TxFrame) (i : Nat) (u : TxFrame), us[i]? = some u →
    (retried q us)[i]? = some (if fSeq u.f.hdr = q then { u with tries := u.tries + 1 } else u)) ∧
  (∀ (k : Link) (i : Nat) (u : TxFrame), boundedNext k = some (i, u) →
    k.bndQ[i]? = some u ∧ covered k u = true ∧ ∀ v ∈ k.bndQ, covered k v = true → u.bound ≤ v.bound) ∧
  (∀ (s : State) (l : BitVec 5) (i : Nat) (u : TxFrame), linkUp s l.toNat = true → (linkOf s l.toNat).ctrlQ = [] → (linkOf s l.toNat).retrQ = [] →
    (linkOf s l.toNat).unacked.length < 1024 → boundedNext (linkOf s l.toNat) = some (i, u) →
    Completes (.linkTransmit l) s (fun t =>
      (linkOf t l.toNat).txSeq = (linkOf s l.toNat).txSeq + 1 ∧ (linkOf t l.toNat).bndQ = (linkOf s l.toNat).bndQ.eraseIdx i ∧
      (∃ v, (linkOf t l.toNat).unacked = (linkOf s l.toNat).unacked ++ [v] ∧ fSeq v.f.hdr = (linkOf s l.toNat).txSeq.toNat) ∧
      tget 0 (linkOf t l.toNat).creds u.key + creditsOf (fLength u.f.hdr) = tget 0 (linkOf s l.toNat).creds u.key ∧ t.mem = s.mem ∧
      t.parts = s.parts ∧ t.paths = s.paths)) ∧
  (∀ (s : State) (l : BitVec 5) (f : Frame), Arrives s l.toNat f 0x02 2 → Completes (.linkAck l f) s (fun t => LinkOnly s t l.toNat ∧
    let u := (linkOf s l.toNat).unacked
    ((∃ v ∈ u, fSeq v.f.hdr = fSeq f.hdr) →
      (linkOf t l.toNat).unacked = (u.dropWhile (fun v => fSeq v.f.hdr != fSeq f.hdr)).drop 1) ∧
    ((∀ v ∈ u, fSeq v.f.hdr ≠ fSeq f.hdr) → (linkOf t l.toNat).unacked = u))) ∧
  (∀ (s : State) (l : BitVec 5) (f : Frame), Arrives s l.toNat f 0x03 2 → Completes (.nak l f) s (fun t =>
    let u := (linkOf s l.toNat).unacked
    let q := (fSeq f.hdr + 2 ^ 32 - 1) % 2 ^ 32
    ((∃ v ∈ u, fSeq v.f.hdr = q) → (let rest := (u.dropWhile (fun v => fSeq v.f.hdr != q)).drop 1
      (∀ v ∈ rest, v.tries < 7) → (linkOf t l.toNat).unacked = rest ∧ (rest ≠ [] → (linkOf t l.toNat).retrQ = rest) ∧ LinkOnly s t l.toNat)) ∧
    ((∀ v ∈ u, fSeq v.f.hdr ≠ q) → u ≠ [] → (∀ v ∈ u, v.tries < 7) → (linkOf t l.toNat).retrQ = u ∧ LinkOnly s t l.toNat))) ∧
  (∀ (s : State) (l : BitVec 5) (f : Frame), Arrives s l.toNat f 0x3F 1 → fSeq f.hdr = (linkOf s l.toNat).rxSeq.toNat →
    Completes (.fill l f) s (fun t => LinkOnly s t l.toNat ∧ (linkOf t l.toNat).fillRx = (linkOf s l.toNat).fillRx + 1 ∧
      (linkOf t l.toNat).rxSeq = (linkOf s l.toNat).rxSeq + 1)) ∧
  (∀ (s : State) (l : BitVec 5), linkUp s l.toNat = true → Completes (.linkAckTimer l) s (fun t => LinkOnly s t l.toNat ∧
    (linkOf t l.toNat).sinceAck = 0 ∧ ∃ f, lastCtrl t l.toNat = some f ∧ fType f.hdr = 0x02 ∧
      fSeq f.hdr = ((linkOf s l.toNat).rxSeq.toNat + 2 ^ 32 - 1) % 2 ^ 32)) ∧
  (∀ (s : State) (l : BitVec 5) (f : Frame), linkUp s l.toNat = true → fType f.hdr = 0x02 → hopOk s l.toNat f = false →
    Completes (.linkAck l f) s (fun t =>
      ((linkOf s l.toNat).hopFail < 15 → (linkOf t l.toNat).hopFail = (linkOf s l.toNat).hopFail + 1 ∧ LinkOnly s t l.toNat ∧
        (∃ g, lastCtrl t l.toNat = some g ∧ fType g.hdr = 0x03 ∧ fSeq g.hdr = (linkOf s l.toNat).rxSeq.toNat)) ∧
      (15 ≤ (linkOf s l.toNat).hopFail → Fenced t l.toNat 0x13))) ∧
  (∀ (s : State) (l : BitVec 5) (errors : Nat), linkUp s l.toNat = true → Completes (.fecWindow l errors) s (fun t =>
    (linkOf t l.toNat).degraded = degradedBy (linkOf s l.toNat).degraded (decode32 (degradeSer (active s) l.toNat).toNat).1 (symbolRatio errors) ∧ linkUp t l.toNat = true ∧
    t.paths = s.paths ∧ t.parts = s.parts ∧ t.mem = s.mem ∧ t.fuses = s.fuses))

/-- R264, R265, R269, R272, R277, R278, R333, R364: the frames that open, confirm, close, lose and reopen a path, at its far end, a transit and
its origin. A far end that cannot take the path refuses it with CONFLICT or DENIED and keeps its table; one that takes it has the entry
of a delivering device, unconfirmed until PATH_CONFIRM verifies; a transit has an entry towards the next device; PATH_ACCEPT opens the
path at its origin or ends it; a path closed or lost has no entry. A link under an exclusive claim carries no path of others: the far end
and a transit refuse it with CONFLICT (R333).
Commands that it says complete: pathOpenFrame, pathAccept, pathConfirm, pathCloseFrame, pathLost, pathDegraded, pathReopen. -/
def Obligations.PathFrames : Prop :=
  (∀ (s : State) (l : BitVec 5) (f : Frame), Arrives s l.toNat f 0x20 2 → fPath f.hdr ≠ 0 → Completes (.pathOpenFrame l f) s (fun t =>
    let key := pathKey (l.toNat / 16) (fPath f.hdr)
    (pmExtra f.payload = none → t = frameTaken s l.toNat f) ∧
    ∀ x, pmExtra f.payload = some x →
      (x.far = s.fuses.serial → eValid (entryOf s key) = true → eRole (entryOf s key) ≠ 2 →
        t = pathRefuse l.toNat (key % 4096) .conflict (frameTaken s l.toNat f)) ∧
      (x.far = s.fuses.serial → linkClosed s l.toNat x.part.toNat (62 ≤ (Config.pathWindow x).toNat) = true →
        t = pathRefuse l.toNat (key % 4096) .conflict (frameTaken s l.toNat f)) ∧
      (x.far = s.fuses.serial → eValid (entryOf s key) = false → linkClosed s l.toNat x.part.toNat (62 ≤ (Config.pathWindow x).toNat) = false →
        (reportOk (pmReport f.payload) (hlCert f.payload) (hlNonce f.payload) (hlSerial f.payload) = false ∨ partnerOk s (pmReport f.payload) = false ∨
          bindingOk s x.part.toNat x.charter (pmReport f.payload) = false) →
        t = pathRefuse l.toNat (key % 4096) .denied (frameTaken s l.toNat f)) ∧
      (x.far = s.fuses.serial → eValid (entryOf s key) = false → linkClosed s l.toNat x.part.toNat (62 ≤ (Config.pathWindow x).toNat) = false →
        reportOk (pmReport f.payload) (hlCert f.payload) (hlNonce f.payload) (hlSerial f.payload) = true → partnerOk s (pmReport f.payload) = true →
        bindingOk s x.part.toNat x.charter (pmReport f.payload) = true → (freeSlot s).isSome = true →
        eValid (entryOf t key) = true ∧ eRole (entryOf t key) = 2 ∧ ePart (entryOf t key) = x.part.toNat ∧ eSendCtx (entryOf t key) = x.ctx.toNat ∧
        eSendGen (entryOf t key) = x.gen.toNat ∧ (pathOf t key).phase = 2 ∧ (pathOf t key).links = [l.toNat] ∧
        freeSlot s = some (pathOf t key).slot ∧ t.mem = s.mem) ∧
      (x.far ≠ s.fuses.serial → fHops f.hdr = 0 → t = misrouted l.toNat (frameTaken s l.toNat f)) ∧
      (x.far ≠ s.fuses.serial → fHops f.hdr ≠ 0 → (linkClosed s l.toNat 16 false || linkClosed s (Config.pathRoute x).1.toNat 16 false) = true →
        t = pathRefuse l.toNat (key % 4096) .conflict (frameTaken s l.toNat f)) ∧
      (x.far ≠ s.fuses.serial → fHops f.hdr ≠ 0 → (linkClosed s l.toNat 16 false || linkClosed s (Config.pathRoute x).1.toNat 16 false) = false →
        eValid (entryOf s key) = false → x.left = 0 →
        t = pathRefuse l.toNat (key % 4096) .linkLost (frameTaken s l.toNat f)) ∧
      (x.far ≠ s.fuses.serial → fHops f.hdr ≠ 0 → (linkClosed s l.toNat 16 false || linkClosed s (Config.pathRoute x).1.toNat 16 false) = false →
        eValid (entryOf s key) = false → x.left ≠ 0 →
        linkUp s (Config.pathRoute x).1.toNat = true → (Config.pathRoute x).1.toNat ≠ l.toNat →
        eValid (entryOf t key) = true ∧ eRole (entryOf t key) = 1 ∧ eOutLink (entryOf t key) = (Config.pathRoute x).1.toNat ∧
        (∃ g p, lastCtrl t (Config.pathRoute x).1.toNat = some g ∧ g = pathFrame 0x20 (key % 4096) 0 (fHops f.hdr - 1) p) ∧ t.mem = s.mem))) ∧
  (∀ (s : State) (l : BitVec 5) (f : Frame) (key : Nat), Arrives s l.toNat f 0x21 2 → backEntry s l.toNat (fPath f.hdr) = some key →
    (eRole (entryOf s key) = 1 → fHops f.hdr ≠ 0 →
      exec (.pathAccept l f) s = .next (passOn (backLink s key) (key % 4096) f (frameTaken s l.toNat f))) ∧
    (eRole (entryOf s key) = 0 → (pathOf s key).phase ≠ 1 → exec (.pathAccept l f) s = .next (frameTaken s l.toNat f)) ∧
    (eRole (entryOf s key) = 0 → (pathOf s key).phase = 1 → Completes (.pathAccept l f) s (fun t => ∀ y, pmExtra f.payload = some y →
      let ok := hlSerial f.payload == (pathOf s key).extra.far.toNat &&
        reportOk (pmReport f.payload) (hlCert f.payload) (hlNonce (pathOf s key).opn) (hlSerial f.payload) && partnerOk s (pmReport f.payload) &&
        bindingOk s (ePart (entryOf s key)) y.charter (pmReport f.payload)
      (ok = false → entryOf t key = 0 ∧ (pathOf t key).phase = 0) ∧
      (ok = true → (pathOf t key).phase = 3 ∧ (pathOf t key).seq = 0 ∧ (pathOf t key).degr = (pathOf s key).degr ∧ (pathOf t key).accept = f.payload ∧
        (∀ i, i < 50 ∨ 61 < i → bit (entryOf t key) i = bit (entryOf s key) i))))) ∧
  (∀ (s : State) (l : BitVec 5) (f : Frame), Arrives s l.toNat f 0x22 2 → (let key := pathKey (l.toNat / 16) (fPath f.hdr)
    eValid (entryOf s key) = true →
    (eRole (entryOf s key) = 1 → fHops f.hdr ≠ 0 → exec (.pathConfirm l f) s =
      .next (passOn (eOutLink (entryOf s key)) (eOutPath (entryOf s key)) f (frameTaken s l.toNat f))) ∧
    (eRole (entryOf s key) = 2 → (pathOf s key).phase = 2 → Completes (.pathConfirm l f) s (fun t =>
      let ok := confirmOk (keyOf s ((pathOf s key).slot + 1)) (pathTh (pathOf s key)) (hlCert (pathOf s key).opn) f.payload
      (ok = true → t = setPath (frameTaken s l.toNat f) key { pathOf s key with phase := 3 }) ∧
      (ok = false → entryOf t key = 0 ∧ (pathOf t key).phase = 0 ∧ t.mem = s.mem))))) ∧
  (∀ (s : State) (l : BitVec 5) (f : Frame), Arrives s l.toNat f 0x23 2 → (let key := pathKey (l.toNat / 16) (fPath f.hdr)
    (eValid (entryOf s key) = false → exec (.pathCloseFrame l f) s = .next (misrouted l.toNat (frameTaken s l.toNat f))) ∧
    (eValid (entryOf s key) = true → (eRole (entryOf s key) = 1 ∧ fHops f.hdr ≠ 0) ∨ eRole (entryOf s key) = 2 →
      Completes (.pathCloseFrame l f) s (fun t => entryOf t key = 0 ∧ (pathOf t key).phase = 0)))) ∧
  (∀ (s : State) (l : BitVec 5) (f : Frame) (key : Nat), Arrives s l.toNat f 0x24 2 → backEntry s l.toNat (fPath f.hdr) = some key →
    (eRole (entryOf s key) = 1 → fHops f.hdr ≠ 0) → Completes (.pathLost l f) s (fun t => entryOf t key = 0 ∧ (pathOf t key).phase = 0)) ∧
  (∀ (s : State) (l : BitVec 5) (f : Frame) (key : Nat), Arrives s l.toNat f 0x25 2 → backEntry s l.toNat (fPath f.hdr) = some key →
    eRole (entryOf s key) = 0 → Completes (.pathDegraded l f) s (fun t =>
      (∀ w, w ∈ (pathOf t key).degr ↔ (w ∈ (pathOf s key).degr ∧ w ≠ (be f.payload 2 8, be f.payload 1 1)) ∨
        (f.payload.head?.getD 1 ≠ 0 ∧ w = (be f.payload 2 8, be f.payload 1 1))) ∧ entryOf t key = entryOf s key ∧ t.mem = s.mem ∧ t.cores = s.cores)) ∧
  (∀ (s : State) (die : BitVec 1) (path : BitVec 12), (let key := pathKey die.toNat path.toNat
    (eValid (entryOf s key) = true → eRole (entryOf s key) = 0 → (pathOf s key).phase = 3 → (pathOf s key).notice = true →
      (pathOf s key).flight = [] → sendsOn s key = false → linkUp s (eOutLink (entryOf s key)) = true → Completes (.pathReopen die path) s (fun t =>
        (pathOf t key).phase = 1 ∧ (pathOf t key).accept = [] ∧ t.paths.table = s.paths.table ∧ t.mem = s.mem ∧
        ∃ g p, lastCtrl t (eOutLink (entryOf s key)) = some g ∧
          g = pathFrame 0x20 (eOutPath (entryOf s key)) 0 (eHops (entryOf s key)) p)) ∧
    ((pathOf s key).notice = false → exec (.pathReopen die path) s = .next s)))

/-- R273, R278, R280, R281, R282, R286, R387: a DATA frame at a transit goes on with one hop less under the next path, or is MISROUTED without
one; at its delivering device a frame of a dead generation, outside its window or with a bad tag is refused with its code and stores nothing.
One that passes is opened and stored at its slot in the window: a tile's first frame with HDR_VERSION 0 until all of the tile is there, and
when the transfer's last tile is whole DELIVERED goes back with its LATE bit. A frame behind one of its path that waits on push-ahead waits
too. DELIVERED and REFUSED end the transfer at its origin, whose mover notes the status; a late one counts for its partition.
Commands that it says complete: data, delivered, refused. -/
def Obligations.TransferOutcomes : Prop :=
  (∀ (s : State) (l : BitVec 5) (f : Frame) (cls : Nat), Arrives s l.toNat f 0x01 cls → cls < 2 → fSeq f.hdr = (linkOf s l.toNat).rxSeq.toNat →
    (let key := pathKey (l.toNat / 16) (fPath f.hdr)
     let e := entryOf s key
     let p := ePart e
     let w := tget 0 (partOf s p).windows (eWindow e)
     let tr := fTransfer f.hdr
     (eValid e = false → Completes (.data l f) s (fun t => LinkOnly s t l.toNat ∧ (linkOf t l.toNat).misroute = (linkOf s l.toNat).misroute + 1)) ∧
     (eValid e = true → eRole e = 1 → fHops f.hdr = 0 → Completes (.data l f) s (fun t =>
        LinkOnly s t l.toNat ∧ (linkOf t l.toNat).misroute = (linkOf s l.toNat).misroute + 1)) ∧
     (eValid e = true → eRole e = 1 → fHops f.hdr ≠ 0 → Completes (.data l f) s (fun t =>
        t.mem = s.mem ∧ t.paths = s.paths ∧ t.parts = s.parts ∧ ∃ u,
          (if cls = 0 then (linkOf t (eOutLink e)).bndQ = (linkOf s (eOutLink e)).bndQ ++ [u] else (linkOf t (eOutLink e)).unbQ = (linkOf s (eOutLink e)).unbQ ++ [u]) ∧
          fHops u.f.hdr + 1 = fHops f.hdr ∧ fPath u.f.hdr = eOutPath e ∧ u.f.payload = f.payload ∧ u.f.ptag = f.ptag ∧ u.pool = 16)) ∧
     (eValid e = true → eRole e = 2 → (pathOf s key).phase = 3 → (∃ x ∈ s.paths.held, x.2.1 = key) → Completes (.data l f) s (fun t =>
        t.paths.held = s.paths.held ++ [(l.toNat, key, f)] ∧ t.mem = s.mem ∧ t.parts = s.parts ∧ t.cores = s.cores)) ∧
     (eValid e = true → eRole e = 2 → (pathOf s key).phase = 3 → (∀ x ∈ s.paths.held, x.2.1 ≠ key) → (rxOf s key tr).fail = none →
       (rxOf s key tr).add = none →
       (fGen f.hdr ≠ eSendGen e ∨ winGen w ≠ (ctxOf s (winCtx w)).gen.toNat → Completes (.data l f) s (fun t =>
          t.mem = s.mem ∧ (rxOf t key tr).fail = some .staleGeneration ∧ (partOf t p).staleGen = (partOf s p).staleGen + 1 ∧ t.cores = s.cores)) ∧
       (fPart f.hdr = p → fCtx f.hdr = eSendCtx e → fGen f.hdr = eSendGen e → ctxLive s (winCtx w) p = true → winGen w = (ctxOf s (winCtx w)).gen.toNat →
        winGen w ≠ 0 → (wReduce w = true → fEpoch f.hdr = wEpoch w ∧ wDiscard w = false) → fFirst f.hdr = true →
        (windowHolds s p (eWindow e) w f.place (tileVa s p (eWindow e) w f) 0 (fLength f.hdr) = false →
          Completes (.data l f) s (fun t => t.mem = s.mem ∧ (rxOf t key tr).fail = some .outOfRegion ∧
            (partOf t p).oorCount = (partOf s p).oorCount + 1 ∧ t.cores = s.cores)) ∧
        (windowHolds s p (eWindow e) w f.place (tileVa s p (eWindow e) w f) 0 (fLength f.hdr) = true →
          (Completes (.data l f) s (fun t => opened s key f = none → t.mem = s.mem ∧ (rxOf t key tr).fail = some .tagFail)) ∧
          (∀ (b plain : Bytes) (h : Hdr) (va pa : Nat), plain = padTo (fLength f.hdr) b → h = BitVec.ofNat 512 (natLE (plain.take 64)) → va = tileVa s p (eWindow e) w f → pa = translate s (winCtx w) va →
            wReduce w = false → mirrorWin s p (eWindow e) = none → hdrCheckUse none carriedFormat h = none →
            accessCheck s (winCtx w) [rWRITE] va (fLength f.hdr) = .ok → 64 ≤ fLength f.hdr → fLength f.hdr % 64 = 0 → HbmSlot s (winCtx w) va (fLength f.hdr) →
            Memory.wf s.mem = true →
            (fLength f.hdr < footprint (hPayload h) → fLast f.hdr = false → Completes (.data l f) s (fun t => opened s key f = some b →
              mget t.mem pa = 0 ∧ (∀ i, 0 < i → i < fLength f.hdr → mget t.mem (pa + i) = plain.getD i 0) ∧
              (∀ a, a < pa ∨ pa + fLength f.hdr ≤ a → mget t.mem a = mget s.mem a) ∧ (rxOf t key tr).buf = plain ∧ (rxOf t key tr).fail = none ∧
              t.cores = s.cores)) ∧
            (footprint (hPayload h) = fLength f.hdr → fLast f.hdr = true → wNotify w = 0 → Completes (.data l f) s (fun t => opened s key f = some b →
              (∀ i < fLength f.hdr, mget t.mem (pa + i) = plain.getD i 0) ∧
              (∀ a, a < pa ∨ pa + fLength f.hdr ≤ a → mget t.mem a = mget s.mem a) ∧ rxOf t key tr = {} ∧ t.cores = s.cores ∧
              ∃ g, lastCtrl t (backLink s key) = some g ∧ fType g.hdr = 0x30 ∧ fTransfer g.hdr = tr ∧ fPath g.hdr = key % 4096 ∧
                fLate g.hdr = (cls == 0 && (fLate f.hdr || decide (fBound f.hdr < (linkOf s l.toNat).d))))))))))) ∧
  (∀ (i : BitVec 5 → Frame → Instr) (ty : Nat) (st : Frame → Status),
    (i, ty, st) ∈ [((Instr.delivered, 0x30, fun f => if fLate f.hdr then .late else .ok) : (BitVec 5 → Frame → Instr) × Nat × (Frame → Status)),
      (Instr.refused, 0x31, fun f => statusOf (be f.payload 0 2))] →
    ∀ (s : State) (l : BitVec 5) (f : Frame) (key : Nat) (x : Transfer) (run : MovRun), Arrives s l.toNat f ty 2 →
      backEntry s l.toNat (fPath f.hdr) = some key → eRole (entryOf s key) = 0 → (partOf s (ePart (entryOf s key))).charter = none →
      (pathOf s key).flight.find? (fun y => y.1 == fTransfer f.hdr) = some (fTransfer f.hdr, x) → x.mirror = none →
      (coreOf s x.core).ctx = some (eSendCtx (entryOf s key)) → (moverOf s x.core x.mover).run = some run →
      Completes (i l f) s (fun t =>
        (pathOf t key).flight = (pathOf s key).flight.filter (fun y => y.1 != fTransfer f.hdr) ∧
        (moverOf t x.core x.mover).run = some { run with stats := tset run.stats (fTransfer f.hdr) (st f) } ∧
        (partOf t (ePart (entryOf s key))).lateCnt = (partOf s (ePart (entryOf s key))).lateCnt + (if st f = .late then 1 else 0) ∧
        t.mem = s.mem ∧ t.ctxs = s.ctxs ∧ t.paths.table = s.paths.table ∧ ∀ c, c ≠ x.core → coreOf t c = coreOf s c))

/-! ## Host port, sessions, bulk transfers (chapter 10) -/

/-- R284, R293, R294, R296, R297, R310, R325: the host port comes up in an allowed mode at its rate, and down with every transfer ended;
PFC pauses exactly the priorities it names; what cannot be answered is counted at its port; LLDP is kept and sent, ARP and neighbour
solicitations for an address of the port are answered with its MAC address, and an echo request is returned with a checksum that stays
valid.
Commands that it says complete: pfcPauseFrame, lldpFrame, lldpTransmit, arpFrame, neighbourDiscovery, icmpEcho, hostLinkUp, hostLinkDown,
droppedFrame. -/
def Obligations.HostPortFrames : Prop :=
  (∀ (s : State) (mode : Byte), s.host.up = false → (fwRuns s = true ∨ s.boot.phase = .hostBoot) → bit s.pkg.refclk 2 = true →
    modeAllowed s mode.toNat = true → Completes (.hostLinkUp mode) s (fun t =>
      t.host.up = true ∧ t.host.mode = mode ∧ t.host.rate = modeRate mode.toNat ∧ t.mem = s.mem ∧ t.sess = s.sess ∧ t.cores = s.cores ∧
      t.bulk = s.bulk ∧ (modeRate mode.toNat = s.host.rate → t.parts = s.parts))) ∧
  (∀ s : State, s.host.up = true → Completes .hostLinkDown s (fun t =>
    t.host.up = false ∧ t.host.held = [] ∧ t.host.paused = [] ∧ t.bulk = [] ∧ t.mem = s.mem ∧ t.fuses = s.fuses)) ∧
  (∀ (s : State) (prios : Byte) (ns : Nat), hostUp s = true → Completes (.pfcPauseFrame prios ns) s (fun t =>
    (∀ i < 8, tget 0 t.host.paused i = if bit prios i then now s + ns else tget 0 s.host.paused i) ∧
    t = { s with host := { s.host with paused := t.host.paused, pauseNs := t.host.pauseNs }, bulk := t.bulk } ∧
    t.bulk.map (·.1) = s.bulk.map (·.1))) ∧
  (∀ s : State, s.pkg.supply = .on →
    exec (.droppedFrame .host) s = .next { s with host := { s.host with drops := s.host.drops + 1 } } ∧
    exec (.droppedFrame .mgmt) s = .next { s with mgmt := { s.mgmt with drops := s.mgmt.drops + 1 } }) ∧
  (∀ (s : State) (b : Bytes), hostUp s = true → exec (.lldpFrame b) s = .next { s with host := { s.host with lldp := b.take 512 } }) ∧
  (∀ s : State, fwRuns s = true → hostUp s = true → lldpEn s = true → Completes .lldpTransmit s (fun t =>
    ∃ b, t = emit s (.eth 0 b) ∧ slice b 0 9 = [2, 7, 4] ++ macOf 0x02 s)) ∧
  (∀ (s : State) (b : Bytes), fwRuns s = true → hostUp s = true → ipv4Present s = true → 28 ≤ b.length → slice b 0 8 = [0, 1, 8, 0, 6, 4, 0, 1] →
    slice b 24 4 = ipv4Addr s → exec (.arpFrame b) s =
      .next (emit s (.eth 1 ([0, 1, 8, 0, 6, 4, 0, 2] ++ macOf 0x02 s ++ ipv4Addr s ++ slice b 8 10)))) ∧
  (∀ (s : State) (b : Bytes), fwRuns s = true → hostUp s = true → slice b 24 4 ≠ ipv4Addr s → exec (.arpFrame b) s = .next s) ∧
  (∀ (s : State) (b : Bytes), fwRuns s = true → hostUp s = true → 24 ≤ b.length → b.head? = some 135 → slice b 8 16 ∈ hostV6 s →
    exec (.neighbourDiscovery b) s =
      .next (emit s (.eth 2 ([136, 0, 0, 0, 0x60, 0, 0, 0] ++ slice b 8 16 ++ [2, 1] ++ macOf 0x02 s)))) ∧
  (∀ (s : State) (b : Bytes), fwRuns s = true → hostUp s = true → 8 ≤ b.length → be b 0 1 = 8 ∨ be b 0 1 = 128 → Completes (.icmpEcho b) s (fun t =>
    ∃ p, t = emit s (.eth 3 p) ∧ p.length = b.length ∧ be p 0 1 = (if be b 0 1 = 8 then 0 else 129) ∧ p.drop 4 = b.drop 4 ∧ slice p 1 1 = slice b 1 1 ∧
      (be p 0 2 + be p 2 2) % 65535 = (be b 0 2 + be b 2 2) % 65535))

/-- R298, R299, R300: PTP. The transmitter of best rank is selected; its Sync starts ACQUIRING; each Follow_Up gives the offset, 16 good
ones lock and 4 bad ones unlock; behind by 1 ms or more the time base takes one forward step, and the acceptance times of bulk transfers move
with it; ahead by 1 ms or more it runs at half rate until the offset is removed; where PPS_IN gives the phase only whole seconds count; the
delay is half of the two measured; a Sync timeout holds over, an Announce timeout deselects. Another domain's message moves nothing; with
PTP_SOURCE 3 the network moves nothing, and only a fabric manager's relay does. When PPS_IN gives the phase is the model's choice, log entry
159.
Commands that it says complete: ptpAnnounce, ptpSync, ptpFollowUp, ptpDelayResp, ptpDelayReqTimer, ptpSyncTimeout, ptpAnnounceTimeout,
ptpRelay. -/
def Obligations.PrecisionTime : Prop :=
  (∀ (s : State) (h : PtpHdr) (rank : Nat), fwRuns s = true → hostUp s = true → ptpSource s ≠ 3 → h.domain.toNat = ptpDomain s →
    Completes (.ptpAnnounce h rank) s (fun t => t = { s with time := { s.time with master := t.time.master } } ∧
      (s.time.master = none → t.time.master = some (rank, h.source)) ∧
      (∀ r i, s.time.master = some (r, i) → t.time.master =
        if h.source = i ∨ rank < r ∨ (rank = r ∧ h.source < i) then some (rank, h.source) else some (r, i)))) ∧
  (∀ (s : State) (h : PtpHdr) (r i t2 : Nat), fwRuns s = true → hostUp s = true → ptpSource s ≠ 3 → h.domain.toNat = ptpDomain s →
    s.time.master = some (r, i) →
    (h.source = i → Completes (.ptpSync h t2) s (fun t =>
      t.time.syncSeq = h.seq ∧ t.time.syncT2 = t2 ∧ t = { s with time := t.time } ∧ t.time.base = s.time.base ∧ t.time.pair = s.time.pair ∧
      (s.time.ptp = .freeRun ∨ s.time.ptp = .holdover → t.time.ptp = .acquiring) ∧
      (s.time.ptp = .acquiring ∨ s.time.ptp = .locked → t.time.ptp = s.time.ptp))) ∧
    (h.source ≠ i → exec (.ptpSync h t2) s = .next s)) ∧
  (∀ (s : State) (h : PtpHdr) (r t1 : Nat), fwRuns s = true → hostUp s = true → ptpSource s ≠ 3 → h.domain.toNat = ptpDomain s →
    s.time.master = some (r, h.source) → h.seq = s.time.syncSeq →
    s.time.ptp = .acquiring ∨ s.time.ptp = .locked → Completes (.ptpFollowUp h t1) s (fun t =>
      let o : Int := (s.time.syncT2 : Int) - t1 - s.time.delay
      let y : Int := if ppsRules s then wholeSeconds o else o
      t.time.offset = o ∧ t.time.pair = some (t1, s.time.syncT2) ∧
      (s.time.ptp = .acquiring → o.natAbs < 100 → 15 ≤ s.time.goodSyncs → t.time.ptp = .locked) ∧
      (s.time.ptp = .acquiring → (100 ≤ o.natAbs ∨ s.time.goodSyncs < 15) → t.time.ptp = .acquiring) ∧
      (s.time.ptp = .locked → 100 ≤ o.natAbs → 3 ≤ s.time.badSyncs → t.time.ptp = .acquiring) ∧
      (s.time.ptp = .locked → (o.natAbs < 100 ∨ s.time.badSyncs < 3) → t.time.ptp = .locked) ∧
      (y ≤ -1000000 → t.time.base = s.time.base + BitVec.ofNat 64 y.natAbs ∧ t.time.steps = s.time.steps + 1 ∧ t.time.half = false ∧
        t.time.lastPps = s.time.lastPps.map (· + y.natAbs) ∧
        t.bulk.map (fun e => (e.1, e.2.accept)) = s.bulk.map (fun e => (e.1, e.2.accept + y.natAbs))) ∧
      (1000000 ≤ y ∨ (0 < y ∧ s.time.half = true) → t.time.base = s.time.base ∧ t.time.half = true ∧ t.time.ahead = y.natAbs) ∧
      (-1000000 < y → y < 1000000 → (y ≤ 0 ∨ s.time.half = false) → (y ≠ 0 ∨ ppsRules s = false) →
        t.time.base = s.time.base ∧ t.time.half = false ∧ -500000 ≤ t.time.ppb ∧ t.time.ppb ≤ 500000) ∧
      (y = 0 → ppsRules s = true → t.time.base = s.time.base ∧ t.time.half = s.time.half ∧ t.time.ppb = s.time.ppb) ∧
      t.mem = s.mem ∧ t.sess = s.sess)) ∧
  (∀ (s : State) (m : PtpResp) (r t1 t2 : Nat), fwRuns s = true → hostUp s = true → ptpSource s ≠ 3 → m.h.domain.toNat = ptpDomain s →
    s.time.master = some (r, m.h.source) → s.time.reqT3 ≠ 0 → s.time.pair = some (t1, t2) →
    exec (.ptpDelayResp m) s = .next { s with time := { s.time with
      delay := (((t2 : Int) - t1) + ((m.t4 : Int) - s.time.reqT3)) / 2
      reqT3 := 0 } }) ∧
  (∀ s : State, (∀ (h : PtpHdr) (a : Nat), ptpSource s = 3 ∨ h.domain.toNat ≠ ptpDomain s → exec (.ptpAnnounce h a) s = .next s ∧ exec (.ptpSync h a) s = .next s ∧
    exec (.ptpFollowUp h a) s = .next s ∧ exec (.ptpDelayResp ⟨h, a⟩) s = .next s)) ∧
  (∀ (s : State) (n q rank : Nat) (m : PtpRelay) (h : PtpHdr), (sessOf s n).port = .host → refusedDatagram .host n m.head s = none →
    q = m.head.seq.getD ((sessOf s n).rxSeq + 1) → seqsOpen (sessOf s n) q q = true → q < 2 ^ 48 - 2 ^ 20 →
    (∀ u ∈ (sessOf s n).unacked, ackCovers m.acks.ackSeq m.acks.sack u.seq = false) → m.msg = .announce h rank → h.domain.toNat = ptpDomain s →
    Completes (.ptpRelay n m) s (fun t =>
      ((sessOf s n).role = .fabric → ptpSource s = 3 → s.time.master = none → t.time.master = some (rank, h.source) ∧ t.time.relay = some n) ∧
      ((sessOf s n).role ≠ .fabric ∨ ptpSource s ≠ 3 → t.time = s.time) ∧ (q ≤ (sessOf t n).rxSeq ∨ q ∈ (sessOf t n).rxMap) ∧
      t.mem = s.mem ∧ t.parts = s.parts)) ∧
  (∀ s : State, fwRuns s = true → hostUp s = true → s.time.master ≠ none → s.time.ptp = .acquiring ∨ s.time.ptp = .locked →
    (ptpSource s ≠ 3 → classPaused s 0 = false → exec .ptpDelayReqTimer s =
      .next (emit { s with time := { s.time with reqT3 := now s } } (.eth 4 (bytesBE 8 (now s))))) ∧
    (ptpSource s ≠ 3 → classPaused s 0 = true → exec .ptpDelayReqTimer s = .next s) ∧
    (∀ (n : Nat), ptpSource s = 3 → s.time.relay = some n → SendsNow s n 8 → Completes .ptpDelayReqTimer s (fun t => t.time = { s.time with reqT3 := now s } ∧
      ∃ h c g, t.out = s.out ++ [.sealed n h c g, .relay n (bytesBE 8 (now s))]))) ∧
  (∀ s : State, s.time.ptp = .acquiring ∨ s.time.ptp = .locked → Completes .ptpSyncTimeout s (fun t =>
    t.time.ptp = .holdover ∧ t.time.ppb = s.time.ppb ∧ t.time.base = s.time.base ∧ t = { s with time := t.time })) ∧
  (∀ s : State, (s.time.master ≠ none → exec .ptpAnnounceTimeout s = .next { s with time := { s.time with
      master := none
      relay := none } }) ∧
    (s.time.master = none → exec .ptpAnnounceTimeout s = .next s))

/-- R304-R309, R402: opening and closing a session. A CLIENT_HELLO that passes its checks opens half a session and is answered with
DEVICE_HELLO; one that fails is refused with the first failed check's code and leaves no session; a signature that verifies opens the
session, another leaves none; in BOOT_HALT the management port refuses with NOT_READY; on a port that is down nothing happens; a half-open
session that times out is gone; without a session a report is given for the asker's nonce.
Commands that it says complete: clientHello, clientFinish, halfOpenTimeout, attestOnly, sessionTimeout. -/
def Obligations.SessionOpening : Prop :=
  (∀ (s : State) (port : Port) (peer : Nat) (b : Bytes) (st : Status), portOpen s port = true → firstFailure (helloChecks s port b) = some st →
    Completes (.clientHello port peer b) s (fun t => Said s t port 0x07 (bytesBE 2 (statusCode st)) ∧
      t = { s with out := t.out, host := { s.host with replies := t.host.replies } })) ∧
  (∀ (s : State) (port : Port) (peer : Nat) (b : Bytes), portOpen s port = false →
    (bootHalted s = true → port = .mgmt → Completes (.clientHello port peer b) s (fun t => Said s t .mgmt 0x07 (bytesBE 2 (statusCode .notReady)) ∧
      t = { s with out := t.out })) ∧
    ((bootHalted s = false ∨ port = .host) → exec (.clientHello port peer b) s = .next s)) ∧
  (∀ (s : State) (port : Port) (peer : Nat) (b : Bytes) (role : Role) (n : Nat), portOpen s port = true →
    firstFailure (helloChecks s port b) = none → reportWait s = none → helloRole port b = some role → freeSession s port = some n →
    Completes (.clientHello port peer b) s (fun t =>
      (sessOf t n).phase = .half ∧ (sessOf t n).port = port ∧ (sessOf t n).role = role ∧ (sessOf t n).peer = peer ∧ (sessOf t n).chello = b ∧
      some (sessOf t n).cred = credKey s role (chCred b) ∧ (∀ k, k ≠ n → sessOf t k = sessOf s k) ∧ t.keys = s.keys ∧ t.mem = s.mem ∧
      (n < 128 ↔ port = .host) ∧ ∃ p, Said s t port 0x02 p)) ∧
  (∀ (s : State) (n : Nat) (b : Bytes), (sessOf s n).phase = .half → portOpen s (sessOf s n).port = true → roleFull s (sessOf s n).role = false →
    Completes (.clientFinish n b) s (fun t =>
      let q := sessOf s n
      let ok := b.length == 133 && b.head? == some 3 &&
        Config.ecdsaVerify q.cred (ascii "KAZBA-KHT-V1" ++ helloDigest q.chello q.dhello) (b.drop 1)
      (ok = true → q.unacked = [] → q.txHold = [] → ctrlPaused s n = false → q.txSeq < 2 ^ 47 → 200 ≤ q.dgram → (sessOf t n).phase = .opened ∧ (sessOf t n).eph = 0 ∧ (sessOf t n).txSeq = q.txSeq + 1 ∧
        (∃ h c g, t.out = s.out ++ [.sealed n h c g, .sessioned n 0x0006 (bytesBE 2 q.dgram)] ∧ fld h 191 144 = q.txSeq) ∧
        (q.port = .host → (keyOf t (0x260 + 2 * n)).length = 36 ∧ (keyOf t (0x261 + 2 * n)).length = 36) ∧ t.mem = s.mem) ∧
      (ok = false → sessOf t n = sessionReset ∧ t.keys = s.keys ∧ t.mem = s.mem))) ∧
  (∀ (s : State) (n : Nat), (sessOf s n).phase = .half → exec (.halfOpenTimeout n) s = .next (setSess s n sessionReset)) ∧
  (∀ (s : State) (n : Nat), (sessOf s n).phase = .opened → exec (.halfOpenTimeout n) s = .next s) ∧
  (∀ (s : State) (port : Port) (peer : Nat) (b : Bytes), portOpen s port = true ∨ (bootHalted s = true ∧ port = .mgmt) → b.head? = some 5 →
    b.length = 65 → reportWait s = none → Completes (.attestOnly port peer b) s (fun t =>
      Said s t port 0x06 (report s (b.drop 1) 0xFF ++ eventLogBytes s ++ idCertBytes s) ∧ t.sess = s.sess ∧ t.mem = s.mem ∧ t.keys = s.keys)) ∧
  (∀ (s : State) (n : Nat), (sessOf s n).phase = .opened → Completes (.sessionTimeout n) s (fun t =>
    (sessOf t n).phase = .closed ∧ (∀ e ∈ t.bulk, e.2.sess ≠ n) ∧ (n < 128 → keyOf t (0x260 + 2 * n) = [] ∧ keyOf t (0x261 + 2 * n) = []) ∧
    (∀ k, k ≠ n → sessOf t k = sessOf s k) ∧ t.mem = s.mem ∧ t.fuses = s.fuses))

/-- R301, R302, R303, R312, R325, R344: a session's datagrams. An ACK frees what it covers, and an event that its last receiver has
acknowledged leaves its queue; one whose header breaks the layout is dropped and counted, one whose tag fails is counted by the session; the
ACK timer answers with what was received; the oldest unacknowledged datagram goes again, at the sixteenth retry the session closes; neither
leaves while the peer pauses its priority (R296) or the port is down; a request that has no answer at its bound is answered UNRESPONSIVE for
the firmware; the oldest event not yet sent goes to the queue's one session within the queue's rate, and a partition reset's from its own
slot, where it stays until it is acknowledged.
Commands that it says complete: khtAck, khtAckTimer, khtRetransmitTimeout, mailboxBoundExpiry, eventSend. -/
def Obligations.SessionTraffic : Prop :=
  (∀ (s : State) (n a : Nat) (m : KhtAck), refusedDatagram (sessOf s n).port n m.head s = none → m.head.seq.getD 0 = 0 → (sessOf s n).txHold = [] →
    (∀ p < 16, (partOf s p).snap.state ≠ .copying) →
    ((∀ u ∈ (sessOf s n).unacked, u.what = .plain) → Completes (.khtAck n a m) s (fun t =>
      sessOf t n = { sessOf s n with unacked := (sessOf s n).unacked.filter (fun u => !ackCovers a m.sack u.seq) } ∧
      (∀ k, k ≠ n → sessOf t k = sessOf s k) ∧ t = { s with sess := t.sess })) ∧
    (∀ (u : TxRec) (q : Nat) (e : Event), (sessOf s n).unacked = [u] → u.what = .event q e.qseq.toNat → q < 18 → ackCovers a m.sack u.seq = true →
      (queueOf s q).items = [(e, true, [n])] → (queueOf s q).lost = 0 → (queueOf s q).final = none →
      Completes (.khtAck n a m) s (fun t => (queueOf t q).items = [] ∧ (sessOf t n).unacked = [] ∧ t.mem = s.mem))) ∧
  (∀ (s : State) (n a : Nat) (m : KhtAck), portOpen s (sessOf s n).port = true →
    ((m.head.seq.getD 0 ≠ 0 ∨ headBad m.head = true ∨ (sessOf s n).phase ≠ .opened) → exec (.khtAck n a m) s = .next (countDrop (sessOf s n).port s)) ∧
    (m.head.seq.getD 0 = 0 → headBad m.head = false → (sessOf s n).phase = .opened → m.head.peer.getD (sessOf s n).peer = (sessOf s n).peer →
      m.head.tagBad = true → exec (.khtAck n a m) s = .next (setSess s n { sessOf s n with tagFail := (sessOf s n).tagFail + 1 }))) ∧
  (∀ (s : State) (n : Nat), (sessOf s n).phase = .opened →
    (ctrlPaused s n = false → portOpen s (sessOf s n).port = true → Completes (.khtAckTimer n) s (fun t =>
      t.out = s.out ++ [sealOf s n 5 false 0 [], .khtAck n (sessOf s n).rxSeq (sackMap (sessOf s n).rxSeq (sessOf s n).rxMap)] ∧
      t = { s with sess := t.sess, out := t.out } ∧ sessOf t n = { sessOf s n with rxSince := 0 } ∧ ∀ k, k ≠ n → sessOf t k = sessOf s k)) ∧
    (ctrlPaused s n = true ∨ portOpen s (sessOf s n).port = false → exec (.khtAckTimer n) s = .next s)) ∧
  (∀ (s : State) (n : Nat) (u : TxRec) (rest : List TxRec), (sessOf s n).phase = .opened → (sessOf s n).unacked = u :: rest →
    (whatPaused s n u.what = true ∨ portOpen s (sessOf s n).port = false → exec (.khtRetransmitTimeout n) s = .next s) ∧
    (whatPaused s n u.what = false → portOpen s (sessOf s n).port = true → Completes (.khtRetransmitTimeout n) s (fun t =>
      (u.retries < 15 → t = emit (setSess s n { sessOf s n with unacked := { u with retries := u.retries + 1 } :: rest }) (.resend n u.seq)) ∧
      (15 ≤ u.retries → (sessOf t n).phase = .closed ∧ t.mem = s.mem)))) ∧
  (∀ (s : State) (n : Nat) (tag op : W16), SendsNow s n 32 → (sessOf s n).busy.find? (fun b => b.1 == tag) = some (tag, op) →
    Completes (.mailboxBoundExpiry n tag) s (fun t =>
      (sessOf t n).busy = (sessOf s n).busy.filter (fun b => b.1 != tag) ∧
      (∃ h c g, t.out = s.out ++ [.sealed n h c g, .response (sessOf s n).port n (op + 0x8000) tag .unresponsive 0 0 0 0 []]) ∧
      (s.devQueue.items.length < 4096 → ∃ e, e.code = 0x0002 ∧ t.devQueue.items = s.devQueue.items ++ [(e, false, [])]) ∧ t.mem = s.mem)) ∧
  (∀ (s : State) (n : Nat) (tag : W16), tag ∉ (sessOf s n).busy.map (·.1) → exec (.mailboxBoundExpiry n tag) s = .next s) ∧
  (∀ (s : State) (q n : Nat) (e : Event) (b : Bool) (l : List Nat), q < 18 → portsUp s = true → receivers s q = [n] → (queueOf s q).final = none →
    (queueOf s q).items.find? (fun x => !x.2.1) = some (e, b, l) → SendsNow s n (eventHeader e ++ e.body).length → Completes (.eventSend q) s (fun t =>
      (eventDebt s q + 1000000 ≤ eventBurst q → (∃ h c g, t.out = s.out ++ [.sealed n h c g, .event n e]) ∧ (queueOf t q).debt = eventDebt s q + 1000000 ∧
        (queueOf t q).items = (queueOf s q).items.map (fun x => if x.1.qseq == e.qseq then (x.1, true, [n]) else x)) ∧
      (eventBurst q < eventDebt s q + 1000000 → t = s) ∧ t.mem = s.mem)) ∧
  (∀ (s : State) (q n : Nat) (e : Event), q < 18 → portsUp s = true → receivers s q = [n] → (queueOf s q).final = some e → (queueOf s q).finalTo = none →
    SendsNow s n (eventHeader e ++ e.body).length → Completes (.eventSend q) s (fun t =>
      (∃ h c g, t.out = s.out ++ [.sealed n h c g, .event n e]) ∧ (queueOf t q).final = some e ∧ (queueOf t q).finalTo = some [n] ∧
      (queueOf t q).items = (queueOf s q).items ∧ t.mem = s.mem))

/-! ## Tenants: regions, windows, paths, bulk transfers, contexts, partitions (chapters 9 to 11) -/

/-- R231, R232, R249, R269, R278, R280, R313, R314, R315: a tenant's tables. A region entry that passes its checks is written with ZOT set,
its memory reads as zero and no other byte changes; VALID 0 and REGION_CLEAR remove it; a receive window and a bulk window hold what was
written; PATH_OPEN writes an origin entry and sends the handshake on its link, PATH_CLOSE removes the entry.
Commands that it says complete: regionSet, regionClear, windowSet, pathOpen, pathClose, bulkWindowSet, bulkWindowClear. -/
def Obligations.TenantTables : Prop :=
  (∀ (s : State) (r : Req) (body : Bytes), Served s r .t → HasLength r body 18 → Usable s r →
    (let i := be body 0 2
     let e : BitVec 128 := BitVec.ofNat 128 (be body 2 16)
     let c := r.ctx.toNat
     i < 1024 → fld e 35 1 = 0 →
     (bit e 0 = true → AllPass (regionChecks s c r.part.toNat i e) → regGranules e ≠ 0 → entryNamed s c i = false →
       Completes (.regionSet r body) s (fun t => tget 0 (ctxOf t c).regions i = setBit e 42 true ∧
         (∀ j, j ≠ i → tget 0 (ctxOf t c).regions j = tget 0 (ctxOf s c).regions j) ∧ (∀ d, d ≠ c → ctxOf t d = ctxOf s d) ∧
         (∀ a, regPBase e ≤ a → a < regPBase e + regSize e → mget t.mem a = 0) ∧
         (∀ a, a < regPBase e ∨ regPBase e + regSize e ≤ a → mget t.mem a = mget s.mem a) ∧
         t.hbm.zotQ = s.hbm.zotQ ++ [{ ctx := c, entry := i, base := regPBase e, len := regSize e, isSealed := regSealed e, since := now s }] ∧ t.keys = s.keys ∧ Answered s t r 0x0210 .ok 0 [])) ∧
     (bit e 0 = true → regGranules e = 0 →
       exec (.regionSet r body) s = .next (respond r 0x0210 .ok [] (taken s r))) ∧
     (bit e 0 = false → entryNamed s c i = false →
       exec (.regionSet r body) s = .next (respond r 0x0210 .ok [] (setCtx (taken s r) c
         { ctxOf s c with regions := tdrop (fun j => j == i) (ctxOf s c).regions }))) ∧
     (entryNamed s c i = true → bit e 0 = false → Completes (.regionSet r body) s (fun t =>
       (ctxOf t c).regions = (ctxOf s c).regions ∧ t.mem = s.mem ∧ Answered s t r 0x0210 .conflict 0 [])))) ∧
  (∀ (s : State) (r : Req) (body : Bytes), Served s r .t → HasLength r body 2 → Usable s r → be body 0 2 < 1024 →
    entryNamed s r.ctx.toNat (be body 0 2) = false →
    exec (.regionClear r body) s = .next (respond r 0x0211 .ok [] (setCtx (taken s r) r.ctx.toNat
      { ctxOf s r.ctx.toNat with regions := tdrop (fun j => j == be body 0 2) (ctxOf s r.ctx.toNat).regions }))) ∧
  (∀ (s : State) (r : Req) (body : Bytes), Served s r .t → HasLength r body 33 →
    (let i := be body 0 1
     let w : RecvWindow := BitVec.ofNat 256 (be body 1 32)
     let p := r.part.toNat
     ctxLive s (winCtx w) p = true → (ctxOf s (winCtx w)).gen.toNat = winGen w → ctxUsual (ctxOf s (winCtx w)).state = none →
     i < 62 ∨ (i < 64 ∧ (partOf s p).charter = none) → fld w 79 0 = 0 → fld w 162 161 < 2 → wVBase w % 64 = 0 →
     wNotify w = 0 ∨ (wNotify w % 64 = 0 ∧ accessCheck s (winCtx w) [rATOMIC] (wNotify w) 64 = .ok) → fld w 207 179 ≠ 0 → fld w 207 179 ≠ 2 ^ 29 - 1 →
     isAlias (wVBase w) = false → accessCheck s (winCtx w) [if wReduce w then rATOMIC else rWRITE] (wVBase w) (wSize w) = .ok →
     Completes (.windowSet r body) s (fun t => tget 0 (partOf t p).windows i = w ∧
       (∀ j, j ≠ i → tget 0 (partOf t p).windows j = tget 0 (partOf s p).windows j) ∧ t.mem = s.mem ∧ t.ctxs = s.ctxs ∧
       Answered s t r 0x0220 .ok 0 []))) ∧
  (∀ (s : State) (r : Req) (body : Bytes), Served s r .t → HasLength r body 65 →
    AllPass (windowChecks s r.part.toNat (BitVec.ofNat 512 (be body 1 64))) → be body 0 1 < 64 →
    (be body 0 1 = 63 → ∀ c ∈ ctxsOf s r.part.toNat, (ctxOf s c).dumpRec = []) →
    Completes (.bulkWindowSet r body) s (fun t => tget 0 (sessOf t r.sess).wins (be body 0 1) = BitVec.ofNat 512 (be body 1 64) ∧
      (∀ j, j ≠ be body 0 1 → tget 0 (sessOf t r.sess).wins j = tget 0 (sessOf s r.sess).wins j) ∧ t.mem = s.mem ∧ t.bulk = s.bulk ∧
      Answered s t r 0x0230 .ok 0 [])) ∧
  (∀ (s : State) (r : Req) (body : Bytes), Served s r .t → HasLength r body 1 → be body 0 1 < 64 →
    Completes (.bulkWindowClear r body) s (fun t => tget 0 (sessOf t r.sess).wins (be body 0 1) = 0 ∧ t.bulk = s.bulk ∧
      (∀ j, j ≠ be body 0 1 → tget 0 (sessOf t r.sess).wins j = tget 0 (sessOf s r.sess).wins j) ∧ Answered s t r 0x0231 .ok 0 [])) ∧
  (∀ (s : State) (r : Req) (body : Bytes) (path : Nat), Served s r .t → HasLength r body 12 → Usable s r →
    (let die := be body 0 1
     let l := be body 9 1
     let p := r.part.toNat
     let key := pathKey die path
     die ≤ 1 → l < 32 → be body 10 1 ≤ 3 → rValid (resvOf s p (be body 11 1)) = false → freePath s die = some path →
     (freeSlot s).isSome = true → linkClosed s l p (mirrorPathFree s p l key) = false → linkUp s l = true →
     Completes (.pathOpen r body) s (fun t => eValid (entryOf t key) = true ∧ eRole (entryOf t key) = 0 ∧ eOutLink (entryOf t key) = l ∧
       ePart (entryOf t key) = p ∧ eSendCtx (entryOf t key) = r.ctx.toNat ∧ eSendGen (entryOf t key) = r.gen.toNat ∧
       (pathOf t key).phase = 1 ∧ (pathOf t key).req = some r ∧ some (pathOf t key).slot = freeSlot s ∧
       (r.tag, (0x0221 : W16)) ∈ (sessOf t r.sess).busy ∧ (∃ g, lastCtrl t l = some g ∧ g.hdr = setFld (ctrlHdr 0x20 path 0 g.payload.length) 241 240 (be body 10 1)) ∧
       t.mem = s.mem ∧ t.ctxs = s.ctxs))) ∧
  (∀ (s : State) (r : Req) (body : Bytes), Served s r .t → HasLength r body 3 →
    (let key := pathKey (be body 0 1) (be body 1 2)
     be body 0 1 ≤ 1 → be body 1 2 ≠ 0 → be body 1 2 < 4096 → eValid (entryOf s key) = true → eRole (entryOf s key) = 0 ∨ eRole (entryOf s key) = 2 →
     ePart (entryOf s key) = r.part.toNat → Completes (.pathClose r body) s (fun t => entryOf t key = 0 ∧ (pathOf t key).phase = 0)))

/-- R284, R285: admission. A charge above the bucket's depth is never admitted; a charge that the bucket's tokens do not cover is deferred to
exactly the time at which it is admitted, and not one nanosecond earlier; an admitted charge takes its tokens and no other bucket
changes. -/
def Obligations.AdmissionDeferral : Prop :=
  (∀ (s : State) (t p j c : Nat), depthOf (resvOf s p j) < c * 10000000 → admitAt t p j c s = (.notAdmitted, s)) ∧
  (∀ (s u : State) (t p j c e : Nat), admitAt t p j c s = (.deferred e, u) → 0 < fillRate s (resvOf s p j) →
    t < e ∧ (∃ v, admitAt e p j c u = (.accepted, v)) ∧ (t < e - 1 → ∃ f v, admitAt (e - 1) p j c u = (.deferred f, v))) ∧
  (∀ (s u : State) (t p j c : Nat), admitAt t p j c s = (.accepted, u) →
    tokens u (resvOf s p j) (tget {} (partOf u p).buckets j) t + c * 10000000 =
      tokens s (resvOf s p j) (tget {} (partOf s p).buckets j) t ∧
    (∀ q i, q ≠ p ∨ i ≠ j → tget {} (partOf u q).buckets i = tget {} (partOf s q).buckets i) ∧ u = { s with parts := u.parts })

/-- R302, R303, R316, R317, R318, R319, R321: bulk transfers. An open whose checks pass is accepted with its acceptance time, or deferred or
refused by admission; COUNT 0 does nothing. A datagram is taken once: one already received changes nothing, one whose tag fails is
counted, the last SEQ ends the session, one that fits no transfer is an orphan; a chunk is written at its place in the tile of its slot, which
gets its final header with its last byte. A chunk of an out transfer leaves in order under its window's key; a poisoned or damaged tile
ends it.
Commands that it says complete: bulkDatagram, bulkOutChunk, bulkInOpen, bulkOutOpen. -/
def Obligations.BulkTransfers : Prop :=
  (∀ (i : Req → Bytes → Instr) (op : Nat) (dir : Bool), (i, op, dir) ∈ [(Instr.bulkInOpen, 0x0232, false), (Instr.bulkOutOpen, 0x0233, true)] →
    ∀ (s : State) (r : Req) (body : Bytes), Served s r .t → HasLength r body 11 →
    (let id := be body 0 4
     let win := be body 4 1
     let first := be body 5 3
     let count := be body 8 3
     let p := r.part.toNat
     let w := tget 0 (sessOf s r.sess).wins win
     AllPass (openChecks s r.sess p dir id win first count) →
     (count = 0 → exec (i r body) s = .next (respond r op .ok (bytesBE 8 (now s)) (taken s r))) ∧
     (count ≠ 0 → (∀ k ∈ namedSlots first count, zotBlocks s (bwCtx w) (bwSlotVa w k) (bwSlot w) = none) →
       Completes (i r body) s (fun t => t.mem = s.mem ∧ t.ctxs = s.ctxs ∧
         (bwBounded w = false → ∃ b : Bulk, t.bulk.find? (fun e => e.1 == bulkKey r.sess id) = some (bulkKey r.sess id, b) ∧ b.out = dir ∧ b.first = first ∧
           b.count = count ∧ b.copy = w ∧ b.accept = now s ∧ b.seen = [] ∧ b.slot = 0 ∧ Answered s t r op .ok 0 (bytesBE 8 (now s))))))) ∧
  (∀ (s : State) (n q : Nat) (h : BulkHead) (cipher : Bytes) (tag : BitVec 128), portOpen s (sessOf s n).port = false →
    exec (.bulkDatagram n q h cipher tag) s = .next s) ∧
  (∀ (s : State) (n q : Nat) (h : BulkHead) (cipher : Bytes) (tag : BitVec 128), (sessOf s n).port = .host → refusedDatagram .host n h.head s = none →
    (let text := openBulk s n q h cipher tag
     let failed := setSess s n { sessOf s n with tagFail := (sessOf s n).tagFail + 1 }
     (seqsOpen (sessOf s n) q q = false → exec (.bulkDatagram n q h cipher tag) s = .next (if text = none then failed else s)) ∧
     (seqsOpen (sessOf s n) q q = true → Completes (.bulkDatagram n q h cipher tag) s (fun t => (text = none → t = failed) ∧
       (text ≠ none → 2 ^ 48 - 1 ≤ q → (sessOf t n).phase = .closed ∧ t.mem = s.mem))))) ∧
  (∀ (s : State) (n q : Nat) (h : BulkHead) (cipher : Bytes) (tag : BitVec 128) (chunk : Bytes) (sub : BitVec 256), (sessOf s n).port = .host →
    refusedDatagram .host n h.head s = none → seqsOpen (sessOf s n) q q = true → q < 2 ^ 47 →
    (∀ x ∈ (sessOf s n).unacked, ackCovers h.acks.ackSeq h.acks.sack x.seq = false) → subWindow sub ≠ 0xC0 →
    (chunkFits s n sub chunk.length = none → Completes (.bulkDatagram n q h cipher tag) s (fun t =>
      openBulk s n q h cipher tag = some (bytesBE 32 sub.toNat ++ chunk) → t = orphan (rxTake n q s))) ∧
    (∀ (key : Nat) (b : Bulk), chunkFits s n sub chunk.length = some (key, b) →
      (let i := subSlot sub
       let x := bwCtx b.copy
       let va := bwSlotVa b.copy i
       let tile := bwTile s b.copy b.epoch i
       let fp := footprint tile.payload
       let a := translate s x va
       let at_ := a + 64 + subOffset sub
       (bulkAccess s b.copy va fp ≠ .ok → Completes (.bulkDatagram n q h cipher tag) s (fun t =>
         openBulk s n q h cipher tag = some (bytesBE 32 sub.toNat ++ chunk) → t.mem = s.mem ∧ ∀ e ∈ t.bulk, e.1 ≠ key)) ∧
       (bulkAccess s b.copy va fp = .ok → HbmSlot s x va fp → poisonV s x va fp = false → Memory.wf s.mem = true → b.push = none →
         (∀ g ∈ s.hbm.groups, g.2.trig = none ∧ g.2.waiting = []) → (∀ k < fp, zotAt s x (va + k) = false) →
         (takenOf b i + chunk.length < tile.payload → Completes (.bulkDatagram n q h cipher tag) s (fun t =>
           openBulk s n q h cipher tag = some (bytesBE 32 sub.toNat ++ chunk) → (∀ k < chunk.length, mget t.mem (at_ + k) = chunk.getD k 0) ∧
           (∀ k < 64, mget t.mem (a + k) = if takenOf b i = 0 then (hBytes (tile.raw 0 0)).getD k 0 else mget s.mem (a + k)) ∧
           (∀ c, c < a ∨ (a + 64 ≤ c ∧ c < at_) ∨ at_ + chunk.length ≤ c → mget t.mem c = mget s.mem c) ∧
           ∃ d, t.bulk.find? (fun e => e.1 == key) = some (key, d) ∧ d.seen = b.seen ++ [(i, subOffset sub, chunk.length)] ∧ d.done = b.done)) ∧
         (tile.payload ≤ takenOf b i + chunk.length → Completes (.bulkDatagram n q h cipher tag) s (fun t =>
           openBulk s n q h cipher tag = some (bytesBE 32 sub.toNat ++ chunk) → (let body := padded tile (mread (mwrite s.mem at_ chunk) (a + 64) tile.payload)
            TileWritten s t a (tile.final (crc32c body), body)) ∧
           (b.done.length + 1 < b.count → ∃ d, t.bulk.find? (fun e => e.1 == key) = some (key, d) ∧ d.done = b.done ++ [i]) ∧
           (b.count ≤ b.done.length + 1 → ∀ e ∈ t.bulk, e.1 ≠ key))))))) ∧
  (∀ (s : State) (key : Nat) (b : Bulk), s.bulk.find? (fun e => e.1 == key) = some (key, b) → b.out = true → b.sentAll = false → b.slot < b.count →
    hostUp s = true → (sessOf s b.sess).phase = .opened → portOpen s (sessOf s b.sess).port = true → outPaused s b = false →
    (sessOf s b.sess).unacked.length < 1024 → (sessOf s b.sess).txSeq < 2 ^ 47 → Completes (.bulkOutChunk key) s (fun t =>
      let n := natMin (natMax 64 (chunkSize s (sessOf s b.sess))) (outLen s b - b.off)
      let last := b.off + n == outLen s b
      t.mem = s.mem ∧
      (outPoison s b b.slot b.off n = true ∨ (last = true ∧ outCrcOk s b n = false) ∨
        (b.off = 0 ∧ b.dump = false ∧ egressCheck s (ctxOf s b.ctx).part.toNat b.copy (outHdr s b b.slot) ≠ .ok) ∨
        (b.off ≠ 0 ∧ outHdr s b b.slot ≠ b.hdr) → ∀ e ∈ t.bulk, e.1 ≠ key) ∧
      (outStop s b n = .ok → (last = true → outCrcOk s b n = true) →
        (∃ c, t.bulk.find? (fun e => e.1 == key) = some (key, c) ∧ c.slot = (if last then b.slot + 1 else b.slot) ∧ c.off = (if last then 0 else b.off + n) ∧
          c.sentAll = (last && b.slot + 1 == b.count)) ∧
        (sessOf t b.sess).txSeq = (sessOf s b.sess).txSeq + 1 ∧
        (let sub := mkSub b.id.toNat b.window (b.first + b.slot) b.off n last (last && b.slot + 1 == b.count)
         let chunk := outBytes s b b.slot b.off n
         let q := (sessOf s b.sess).txSeq
         t.out = s.out ++ [sealWith (bulkCipherKey s b.sess true b.copy) (khtHeader (sessOf s b.sess) b.sess 3 false q (32 + chunk.length)) b.sess q
           (bytesBE 32 sub.toNat ++ chunk), .bulk b.sess sub chunk]))))

/-- R336, R337, R338, R339, R341, R342, R343, R425: a context's life. It is created with a new generation, a fresh key and no region; a program image
is copied; it starts on its free cores or waits SUSPENDED; a fence waits for confirmation and then leaves no core to it; destruction
tears it down, zeroises its key and ends in FREE with the generation kept; a fence that misses 2 ms resets the partition, and a
partition reset that misses it resets the device; the reset ends with a fresh key, no window and its event in the reserved place.
Commands that it says complete: contextCreate, contextLoad, contextStart, contextFence, fenceConfirmed, fenceLimit, partitionResetLimit,
contextDestroy, contextScrubDone, captureRead, countersRead. -/
def Obligations.ContextLife : Prop :=
  (∀ (s : State) (r : Req) (body : Bytes) (c : Nat) (l : List (Nat × Nat)), Served s r .t → HasLength r body 3 →
    (let mask := be body 0 2
     let p := r.part.toNat
     (∀ i < 16, nbit mask i = true → nbit (pCores (active s) p) i = true) → mask ≠ 0 → be body 2 1 ≤ 32 → (partOf s p).state = .assigned →
     (ctxsOf s p).length < pQuota (active s) p → freeContext s = some c → placeArea s p (privateArea mask (be body 2 1)) = some l →
     Completes (.contextCreate r body) s (fun t => c < 256 ∧ (ctxOf t c).state = .creating ∧ (ctxOf t c).part = r.part ∧
       (ctxOf t c).gen = (if (ctxOf s c).gen = 255 then 1 else (ctxOf s c).gen + 1) ∧ (ctxOf t c).pairs = BitVec.ofNat 16 mask ∧
       (ctxOf t c).ocMib = be body 2 1 ∧ (ctxOf t c).regions = [] ∧ (ctxOf t c).areas = l ∧ (keyOf t (0x020 + c)).length = 128 ∧
       (∀ d, d ≠ c → ctxOf t d = ctxOf s d) ∧
       Answered s t { r with ctx := BitVec.ofNat 8 c, gen := (ctxOf t c).gen } 0x0200 .ok 0 []))) ∧
  (∀ (s : State) (r : Req) (body : Bytes), Served s r .t → HasLength r body 12 → NamesContext s r → (ctxOf s r.ctx.toNat).state = .creating →
    (let va := be body 0 8
     let len := be body 8 4
     let c := r.ctx.toNat
     (len = 0 → exec (.contextLoad r body) s = .next (respond r 0x0201 .ok [] (taken s r))) ∧
     (len ≠ 0 → len ≠ 0xFFFFFFFF → isAlias va = false → accessCheck s c [rREAD] va len = .ok → poisonV s c va len = false →
       (∀ ch, (partOf s r.part.toNat).charter = some ch → (partOf s r.part.toNat).state = .charter →
         digestBytes (Config.sha512 (vread s c va len)) = chProgram ch.doc) →
       imgMalformed (ctxOf s c) (vread s c va len) = false → imgBadLength (vread s c va len) len = false →
       Completes (.contextLoad r body) s (fun t => (ctxOf t c).image = vread s c va len ∧ (ctxOf t c).loaded = true ∧ (ctxOf t c).state = .creating ∧
         (ctxOf t c).regions = (ctxOf s c).regions ∧ t.keys = s.keys ∧
         ((∀ i ∈ ctxCores (ctxOf s c), (coreOf s i).ctx = none) → ∀ i ∈ ctxCores (ctxOf s c), (coreOf t i).ctx = some c))))) ∧
  (∀ (s : State) (r : Req) (body : Bytes), Served s r .t → HasLength r body 0 → NamesContext s r → (ctxOf s r.ctx.toNat).state = .creating →
    (ctxOf s r.ctx.toNat).loaded = true → (ctxOf s r.ctx.toNat).saved = [] → (partOf s r.part.toNat).charter = none →
    (partOf s r.part.toNat).state ≠ .resetting →
    (let c := r.ctx.toNat
     (coresBusy s c = false → Completes (.contextStart r body) s (fun t => (ctxOf t c).state = .active ∧
       (∀ i ∈ ctxCores (ctxOf s c), (coreOf t i).ctx = some c) ∧ (∀ d, d ≠ c → ctxOf t d = ctxOf s d) ∧ t.keys = s.keys)) ∧
     (coresBusy s c = true → Completes (.contextStart r body) s (fun t => (ctxOf t c).state = .suspended ∧
       (ctxOf t c).saved.map (·.1) = ctxCores (ctxOf s c) ∧ t.cores = s.cores ∧ t.mem = s.mem)))) ∧
  (∀ (s : State) (r : Req) (body : Bytes), Served s r .t → HasLength r body 1 → Usable s r → be body 0 1 ≤ 1 →
    Completes (.contextFence r body) s (fun t => (ctxOf t r.ctx.toNat).state = .fencing ∧ (ctxOf t r.ctx.toNat).fenceReq = some r ∧ t.fuses = s.fuses)) ∧
  (∀ (s : State) (ctx : BitVec 8), (let k := ctxOf s ctx.toNat
    (k.state = .fencing → k.saveReq = false → k.killReq = none → (partOf s k.part.toNat).state = .assigned → Completes (.fenceConfirmed ctx) s (fun t => (ctxOf t ctx.toNat).state = .fenced ∧ (ctxOf t ctx.toNat).fenceReq = none ∧
      ∀ i < 32, (coreOf t i).ctx ≠ some ctx.toNat)) ∧
    (k.state = .fencing → k.saveReq = false → k.killReq.isSome = true → Completes (.fenceConfirmed ctx) s (fun t =>
      (ctxOf t ctx.toNat).state = .tearing ∧ ∀ i < 32, (coreOf t i).ctx ≠ some ctx.toNat)))) ∧
  (∀ (s : State) (ctx : BitVec 8), (let k := ctxOf s ctx.toNat
    (k.state ≠ .fencing → exec (.fenceConfirmed ctx) s = .next s ∧ exec (.fenceLimit ctx) s = .next s) ∧
    (k.state = .fencing → (partOf s k.part.toNat).state = .assigned → Completes (.fenceLimit ctx) s (fun t =>
      (partOf t k.part.toNat).state = .resetting ∧ (partOf t k.part.toNat).rstCause = 1)))) ∧
  (∀ (s : State) (part : BitVec 4), (partOf s part.toNat).state = .resetting →
    ((∃ c ∈ ctxsOf s part.toNat, (ctxOf s c).state = .fencing) → exec (.partitionResetLimit part) s = .next (deviceReset s)) ∧
    ((∀ c ∈ ctxsOf s part.toNat, (ctxOf s c).state ≠ .fencing) → exec (.partitionResetLimit part) s = .next s)) ∧
  (∀ (s : State) (r : Req) (body : Bytes), Served s r .t → HasLength r body 0 → NamesContext s r → (ctxOf s r.ctx.toNat).killReq = none →
    (let c := r.ctx.toNat
     ((ctxOf s c).state = .fenced → Completes (.contextDestroy r body) s (fun t => (ctxOf t c).state = .tearing ∧ (ctxOf t c).killReq = some r ∧
       ∀ i, winCtx (tget 0 (partOf s r.part.toNat).windows i) = c → winGen (tget 0 (partOf t r.part.toNat).windows i) = 0)) ∧
     (ctxUsual (ctxOf s c).state = none → Completes (.contextDestroy r body) s (fun t => (ctxOf t c).state = .fencing ∧ (ctxOf t c).killReq = some r)))) ∧
  (∀ (s : State) (ctx : BitVec 8), (let k := ctxOf s ctx.toNat
    let p := k.part.toNat
    (k.state = .scrubbing → (partOf s p).state ≠ .resetting → Completes (.contextScrubDone ctx) s (fun t =>
      ctxOf t ctx.toNat = { contextReset with gen := k.gen } ∧ t.mem = s.mem)) ∧
    (k.state = .tearing → (partOf s p).state ≠ .resetting → Completes (.contextScrubDone ctx) s (fun t =>
      ctxOf t ctx.toNat = { contextReset with gen := k.gen } ∧ keyOf t (0x020 + ctx.toNat) = [] ∧
      ∀ e ∈ k.regions, regValid e.2 = true → ∀ a, regPBase e.2 ≤ a → a < regPBase e.2 + regSize e.2 → mget t.mem a = 0)) ∧
    (k.state = .scrubbing → (partOf s p).state = .resetting → ctxsOf s p = [ctx.toNat] → (partOf s p).relReq = false → Completes (.contextScrubDone ctx) s (fun t =>
      (ctxOf t ctx.toNat).state = .free ∧ (partOf t p).state = (if (partOf s p).before = .charter then .assigned else (partOf s p).before) ∧
      (partOf t p).windows = [] ∧ (partOf t p).queue.items = [] ∧
      ∃ e, (partOf t p).queue.final = some e ∧ e.code = 0x0030 ∧ e.body = bytesBE 2 (partOf s p).rstCause.toNat)))) ∧
  (∀ (s : State) (r : Req) (body : Bytes), Served s r .t → HasLength r body 2 → NamesContext s r → ctxReads (ctxOf s r.ctx.toNat).state = none →
    be body 1 1 ≤ 1 → Completes (.captureRead r body) s (fun t =>
      Answered s t r 0x0240 .ok 0 (bytesBE 48 (tget 0 (ctxOf s r.ctx.toNat).capt (be body 0 1)).toNat) ∧
      (be body 1 1 = 1 → tget 0 (ctxOf t r.ctx.toNat).capt (be body 0 1) = 0) ∧ (be body 1 1 = 0 → ∀ d, tget 0 (ctxOf t r.ctx.toNat).capt d =
        if d = be body 0 1 ∧ fld (tget 0 (ctxOf s r.ctx.toNat).capt d) 383 376 ≠ 0 then setFld (tget 0 (ctxOf s r.ctx.toNat).capt d) 351 336 0
        else tget 0 (ctxOf s r.ctx.toNat).capt d) ∧ t.mem = s.mem)) ∧
  (∀ (s : State) (r : Req) (body : Bytes), Served s r .t → HasLength r body 0 → NamesContext s r → ctxReads (ctxOf s r.ctx.toNat).state = none →
    Completes (.countersRead r body) s (fun t => ∃ n, Answered s t r 0x0241 .ok 0
      ((List.range 13).flatMap (fun b => bytesBE 6 (tget 0 (ctxOf s r.ctx.toNat).exc b)) ++ Config.perfCounters r.ctx.toNat n) ∧ t.ctxs = s.ctxs ∧ t.mem = s.mem))

/-- R340, R345, R346, R347, R348, R368, R369, R370: time slicing, watchdogs, dumps and phase marks. A quantum asks SAVE of every context that runs on a
core of the next rival; saved cores are free and their state is kept; a restored context is ACTIVE; a watchdog reports and starts a dump,
which ends with its records kept and the context fencing; phase marks leave the ring, and a report holds at most what was asked.
Commands that it says complete: phaseReportRead, phaseMarkDrain, quantumExpiry, contextSaveDone, contextRestoreDone, watchdogExpiry,
dumpUnitTimeout, dumpDone. -/
def Obligations.SlicingAndDumps : Prop :=
  (∀ (s : State) (core : BitVec 5) (c d : Nat), isReady s = true → (coreOf s core.toNat).ctx = some c → c < 256 → (ctxOf s c).state = .active →
    (ctxOf s c).switching = false → nextRival s c = some d → Completes (.quantumExpiry core) s (fun t =>
      (ctxOf t d).incoming = true ∧ (ctxOf t d).state = .suspended ∧
      (∀ x < 256, (ctxOf s x).state = .active → shares s x d = true → (ctxOf t x).switching = true ∧ (ctxOf t x).state = .active ∧ (ctxOf t x).pushDelay = 0) ∧
      t.cores = s.cores ∧ t.mem = s.mem)) ∧
  (∀ (s : State) (core : BitVec 5) (c : Nat), (coreOf s core.toNat).ctx = some c → nextRival s c = none → exec (.quantumExpiry core) s = .next s) ∧
  (∀ (s : State) (ctx : BitVec 8), (let k := ctxOf s ctx.toNat
    k.state = .active → k.switching = true → runningCores s ctx.toNat ≠ [] → (∀ i ∈ runningCores s ctx.toNat, coreSaved s i = true) →
    Completes (.contextSaveDone ctx) s (fun t => (ctxOf t ctx.toNat).state = .suspended ∧ (ctxOf t ctx.toNat).switching = false ∧
      (∀ i < 32, (coreOf t i).ctx ≠ some ctx.toNat) ∧ (∀ i ∈ runningCores s ctx.toNat, tget coreReset (ctxOf t ctx.toNat).saved i = coreOf s i) ∧
      ∀ i, i ∉ runningCores s ctx.toNat → coreOf t i = coreOf s i))) ∧
  (∀ (s : State) (ctx : BitVec 8), (let k := ctxOf s ctx.toNat
    isReady s = true → k.state = .suspended → (∀ i ∈ ctxCores k, (coreOf s i).ctx = none) → k.incoming = true →
    Completes (.contextRestoreDone ctx) s (fun t => (ctxOf t ctx.toNat).state = .active ∧ (ctxOf t ctx.toNat).saved = [] ∧
      (ctxOf t ctx.toNat).incoming = false ∧ t.keys = s.keys ∧ t.fuses = s.fuses))) ∧
  (∀ (s : State) (ctx : BitVec 8) (unit : Nat), (let k := ctxOf s ctx.toNat
    let core := unit / 256 % 256
    isReady s = true → k.state = .active → core < 32 → (coreOf s core).ctx = some ctx.toNat → unitWorks s core (unit / 65536) (unit % 256) = true →
    Completes (.watchdogExpiry ctx unit) s (fun t =>
      (dumpRuns k = false → (ctxOf t ctx.toNat).dump = some (k.dumps + 1, []) ∧ (ctxOf t ctx.toNat).dumps = k.dumps + 1) ∧
      (dumpRuns k = true → ctxOf t ctx.toNat = k) ∧ t.cores = s.cores ∧ t.mem = s.mem ∧
      (s.devQueue.items.length < 4096 → ∃ e, e.code = 0x0023 ∧ slice e.body 16 4 = bytesBE 4 (if dumpRuns k then k.dumps else k.dumps + 1) ∧
        t.devQueue.items = s.devQueue.items ++ [(e, false, [])])))) ∧
  (∀ (s : State) (ctx : BitVec 8) (unit n : Nat) (marks : List Nat), (let k := ctxOf s ctx.toNat
    k.dump = some (n, marks) → dumpRuns k = true →
    (unit ∈ dumpUnits s ctx.toNat → unit ∉ marks → exec (.dumpUnitTimeout ctx unit) s =
      .next (setCtx s ctx.toNat { k with dump := some (n, marks ++ [unit]) })) ∧
    (unit ∈ marks → exec (.dumpUnitTimeout ctx unit) s = .next s))) ∧
  (∀ (s : State) (ctx : BitVec 8) (n : Nat) (marks : List Nat), (let k := ctxOf s ctx.toNat
    k.dump = some (n, marks) → dumpRuns k = true → dumpSession s k.part.toNat = none → Completes (.dumpDone ctx) s (fun t =>
      (ctxOf t ctx.toNat).dumpRec = dumpTiles s ctx.toNat marks ∧ (ctxOf t ctx.toNat).dump = none ∧ (ctxUsual k.state = none → (ctxOf t ctx.toNat).state = .fencing) ∧
      (k.state = .fenced → (ctxOf t ctx.toNat).state = .fenced) ∧ t.fuses = s.fuses))) ∧
  (∀ (s : State) (ctx : BitVec 8), fwRuns s = true → (ctxOf s ctx.toNat).state ≠ .free → Completes (.phaseMarkDrain ctx) s (fun t =>
    (ctxOf t ctx.toNat).marks = [] ∧ (∀ a ∈ (ctxOf t ctx.toNat).store, ∀ b ∈ (ctxOf t ctx.toNat).store, mkEpoch b < mkEpoch a + 16) ∧
    (∀ c, c ≠ ctx.toNat → ctxOf t c = ctxOf s c) ∧ t = { s with ctxs := t.ctxs })) ∧
  (∀ (s : State) (r : Req) (body : Bytes), Served s r .tf → HasLength r body 12 → NamesContext s r → ctxReads (ctxOf s r.ctx.toNat).state = none →
    (be body 0 1 = 1 ∨ be body 0 1 = 2) → (be body 0 1 = 1 → (sessOf s r.sess).role ≠ .fabric) → be body 1 3 = 0 → be body 10 2 = 0 → be body 8 2 ≤ 2000 →
    Completes (.phaseReportRead r body) s (fun t => t.ctxs = s.ctxs ∧ t.mem = s.mem ∧ ∃ (hidden : Nat) (recs : List Bytes), recs.length ≤ be body 8 2 ∧
      Answered s t r 0x0242 .ok 0 (bytesBE 4 (ctxOf s r.ctx.toNat).lostMks ++ bytesBE 4 hidden ++ bytesBE 4 (ctxOf s r.ctx.toNat).dropped ++
        bytesBE 2 recs.length ++ [0, 0] ++ recs.flatten)))

/-- R290, R328, R349, R350, R351, R352: a partition's life. It is assigned to a key digest; a release starts its scrub, or waits for a reset's end; at
the key phase every key of the partition is zeroised and its own is fresh, or, with a context unfenced, the device is reset; at the
commit every line of its slices reads as zero and the record is in non-volatile memory; at the end it is UNUSED; an interrupted scrub runs
again. PEER_LOST discards the windows of the epoch.
Commands that it says complete: partitionAssign, partitionRelease, peerLost, scrubKeyPhase, scrubLedgerCommit, scrubDone, scrubRestart. -/
def Obligations.PartitionLife : Prop :=
  (∀ (s : State) (r : Req) (body : Bytes), Served s r .f → HasLength r body 65 →
    (let p := be body 0 1
     p < 16 → pEnabled s p = true → s.fuses.lifecycle ≠ .blank → (partOf s p).state = .unused → (∀ e ∈ s.nvm.scrubPend, e.1 ≠ p) →
     Completes (.partitionAssign r body) s (fun t => (partOf t p).state = .assigned ∧ (partOf t p).key = some (digestOf (slice body 1 64)) ∧
       (∀ q, q ≠ p → partOf t q = partOf s q) ∧ t.mem = s.mem ∧ t.keys = s.keys ∧ Answered s t r 0x0100 .ok 0 []))) ∧
  (∀ (s : State) (r : Req) (body : Bytes), Served s r .f → HasLength r body 1 →
    (let p := be body 0 1
     p < 16 → pEnabled s p = true →
     ((partOf s p).state = .resetting → (partOf s p).relReq = false → Completes (.partitionRelease r body) s (fun t =>
       (partOf t p).state = .resetting ∧ (partOf t p).relReq = true ∧ t.mem = s.mem ∧ Answered s t r 0x0101 .ok 0 [])) ∧
     ((partOf s p).state = .assigned → (partOf s p).relReq = false → ctxsOf s p = [] → Completes (.partitionRelease r body) s (fun t =>
       (partOf t p).state = .scrubbing ∧ (partOf t p).scrubPh = 0 ∧ (partOf t p).scrubAt = now s ∧ t.nvm.scrubPend.any (fun e => e.1 == p) = true ∧
       ∀ n, (sessOf s n).role = .tenant (BitVec.ofNat 4 p) → (sessOf t n).phase = .closed)) ∧
     ((partOf s p).state = .unused → Completes (.partitionRelease r body) s (fun t => t.parts = s.parts ∧ Answered s t r 0x0101 .conflict 0 [])))) ∧
  (∀ (s : State) (part : BitVec 4), (partOf s part.toNat).state = .scrubbing → (partOf s part.toNat).scrubPh = 0 →
    ((∃ c ∈ ctxsOf s part.toNat, (ctxOf s c).state = .fencing) → exec (.scrubKeyPhase part) s = .next (deviceReset s)) ∧
    ((∀ c ∈ ctxsOf s part.toNat, (ctxOf s c).state ≠ .fencing) → Completes (.scrubKeyPhase part) s (fun t =>
      (partOf t part.toNat).scrubPh = 1 ∧ (partOf t part.toNat).state = .scrubbing ∧ (partOf t part.toNat).charter = none ∧
      (partOf t part.toNat).windows = [] ∧ (keyOf t (0x010 + part.toNat)).length = 128 ∧
      (∀ n < 10, keyOf t (charterSlot part.toNat n) = []) ∧ ∀ c ∈ ctxsOf s part.toNat, (ctxOf t c).state = .free))) ∧
  (∀ (s : State) (part : BitVec 4), (partOf s part.toNat).state = .scrubbing → (partOf s part.toNat).scrubPh = 1 →
    Completes (.scrubLedgerCommit part) s (fun t => (partOf t part.toNat).scrubPh = 2 ∧ t.nvm.ledger = t.ledger ∧
      t.ledger.scrubTotal = s.ledger.scrubTotal + 1 ∧
      (∀ a, a < hbmEnd → sliceOf a ∈ slicesOf s part.toNat → mget t.mem a = 0 ∧ poisoned t (lineOf a) = false) ∧
      (∀ a, a < hbmEnd → sliceOf a ∉ slicesOf s part.toNat → mget t.mem a = mget s.mem a) ∧ (partOf t part.toNat).scrubRec.length = 72 ∧
      t.fuses = s.fuses)) ∧
  (∀ (s : State) (part : BitVec 4), (partOf s part.toNat).state = .scrubbing → (partOf s part.toNat).scrubPh = 2 →
    Completes (.scrubDone part) s (fun t => (partOf t part.toNat).state = .unused ∧ (partOf t part.toNat).key = none ∧
      (∀ e ∈ t.nvm.scrubPend, e.1 ≠ part.toNat) ∧ (∀ q, q ≠ part.toNat → partOf t q = partOf s q) ∧ t.mem = s.mem ∧
      (s.devQueue.items.length < 4096 → ∃ e, e.code = 0x0032 ∧
        e.body = bytesBE 1 part.toNat ++ digestBytes (Config.sha512 (partOf s part.toNat).scrubRec) ∧ t.devQueue.items = s.devQueue.items ++ [(e, false, [])]))) ∧
  (∀ (s : State) (part : BitVec 4), isReady s = true → (partOf s part.toNat).state ≠ .scrubbing → s.nvm.scrubPend.any (fun e => e.1 == part.toNat) = true →
    exec (.scrubRestart part) s = .next (setPart s part.toNat { partOf s part.toNat with
      state := .scrubbing, scrubAt := now s, scrubPh := 0, scrubEsc := true, scrubRec := [] })) ∧
  (∀ (s : State) (r : Req) (body : Bytes), Served s r .f → HasLength r body 14 → Completes (.peerLost r body) s (fun t =>
    (∀ p < 16, ∀ i, (let w := tget 0 (partOf s p).windows i
      nbit (be body 12 2) p = true → wReduce w = true → wEpoch w = be body 8 4 → tget 0 (partOf t p).windows i = setBit w 160 true)) ∧
    (∀ p < 16, nbit (be body 12 2) p = false → (partOf t p).windows = (partOf s p).windows) ∧ t.keys = s.keys ∧ t.fuses = s.fuses))

/-! ## Charters, steps, mirrors, checkpoints (chapters 12 and 13) -/

/-- R356, R359, R360, R361, R363, R377: a charter. One whose signatures or policy fail is denied, a malformed one refused, another is PENDING with its
text kept; ATTEST reports over the provisioning point; a share counts only if its owner's signature verifies and it opens, and the last
one makes the charter ACTIVE with its keys in place; a restore authorisation is counted once for each owner; during a partition reset
every kind is deferred to the reset's end.
Commands that it says complete: charterLoad, keyShareAttest, keyShareShare, keyShareRestoreAuth, keyShareStatus. -/
def Obligations.CharterAndShares : Prop :=
  (∀ (s : State) (r : Req) (body : Bytes), Served s r .t → (let p := r.part.toNat
    s.fuses.lifecycle ≠ .blank → chDevices body ≤ 4096 → be body 8 4 = chLength body → body.length = chLength body → r.bodyLen.toNat = chLength body →
    (partOf s p).state = .assigned → (partOf s p).charter = none → ctxsOf s p = [] → Completes (.charterLoad r body) s (fun t =>
      t.keys = s.keys ∧ t.mem = s.mem ∧ (∀ q, q ≠ p → partOf t q = partOf s q) ∧
      (charterDenied s p body = true → (partOf t p).charter = none ∧ Answered s t r 0x0250 .denied 0 []) ∧
      (charterDenied s p body = false → charterMalformed body = true → (partOf t p).charter = none ∧ Answered s t r 0x0250 .badDescriptor 0 []) ∧
      (charterDenied s p body = false → charterMalformed body = false →
        (∃ n, (partOf t p).charter = some { doc := body, prov := n }) ∧ (partOf t p).state = .assigned ∧ Answered s t r 0x0250 .ok 0 [])))) ∧
  (∀ (i : Req → Bytes → Instr) (kind len : Nat), (i, kind, len) ∈ [(Instr.keyShareAttest, 1, 65), (Instr.keyShareShare, 2, 382),
      (Instr.keyShareRestoreAuth, 3, 201), (Instr.keyShareStatus, 4, 1)] →
    ∀ (s : State) (r : Req) (body : Bytes), Served s r .t → HasLength r body len → be body 0 1 = kind → (partOf s r.part.toNat).state = .resetting →
      (kind = 2 → s.fuses.lifecycle ≠ .prodDebug ∧ be body 2 3 = 0) → (kind = 3 → be body 66 3 = 0) → exec (i r body) s = .next (respondAt r 0x0251 .deferred (partOf s r.part.toNat).rstEnd [] (taken s r))) ∧
  (∀ (s : State) (r : Req) (body : Bytes) (ch : Charter), Sharing s r body 1 65 ch → reportWait s = none → Completes (.keyShareAttest r body) s (fun t =>
    t.parts = s.parts ∧ t.keys = s.keys ∧ ∃ pt u, (ch.active = false → pt = provPoint ch ∧ u = taken s r) ∧
      Answered s t r 0x0251 .ok 0 (pt ++ report u (digestBytes (Config.sha512 (ascii "KAZBA-PROV-V1" ++ slice body 1 64 ++ chDigest ch.doc ++ pt)))
        r.part.toNat ++ eventLogBytes u ++ [stateByte ch, ch.present] ++ idCertBytes u))) ∧
  (∀ (s : State) (r : Req) (body : Bytes) (ch : Charter), Sharing s r body 2 382 ch → ch.active = false → s.fuses.lifecycle ≠ .prodDebug →
    be body 1 1 < chOwners ch.doc → be body 2 3 = 0 → nbit ch.present.toNat (be body 1 1) = false → Completes (.keyShareShare r body) s (fun t =>
      let p := r.part.toNat
      let idx := be body 1 1
      let eph := slice body 5 133
      let ct := slice body 138 96
      let tag : BitVec 128 := BitVec.ofNat 128 (be body 234 16)
      let good := Config.ecdsaVerify (chOwnerKey ch.doc idx) (ascii "KAZBA-SHARE-V1" ++ chDigest ch.doc ++ serialBytes s ++ provPoint ch ++
        bytesBE 1 idx ++ eph ++ ct ++ bytesBE 16 tag.toNat) (slice body 250 132)
      let full := (List.range (chOwners ch.doc)).all (fun n => nbit (setBit ch.present idx true).toNat n)
      (good = false → t.parts = s.parts ∧ t.keys = s.keys ∧ Answered s t r 0x0251 .denied 0 []) ∧
      (good = true → shareOpen s ch idx eph ct tag = none → t.parts = s.parts ∧ t.keys = s.keys ∧ Answered s t r 0x0251 .tagFail 0 []) ∧
      (∀ b, good = true → shareOpen s ch idx eph ct tag = some b →
        Answered s t r 0x0251 .ok 0 [setBit ch.present idx true, if full then 1 else 0] ∧
        (full = false → t.keys = s.keys ∧ ∃ c, (partOf t p).charter = some c ∧ c.active = false ∧ c.present = setBit ch.present idx true ∧
          tget [] c.shares idx = b ∧ c.doc = ch.doc) ∧
        (full = true → (partOf t p).state = .charter ∧ (keyOf t (charterSlot p 8)).length = 32 ∧ (keyOf t (charterSlot p 9)).length = 32 ∧
          ∃ c, (partOf t p).charter = some c ∧ c.active = true ∧ c.doc = ch.doc ∧ c.shares = [])))) ∧
  (∀ (s : State) (r : Req) (body : Bytes) (ch : Charter), Sharing s r body 3 201 ch → ch.active = true → be body 65 1 < chOwners ch.doc → be body 66 3 = 0 →
    Completes (.keyShareRestoreAuth r body) s (fun t =>
      let d := digestOf (slice body 1 64)
      let good := Config.ecdsaVerify (chOwnerKey ch.doc (be body 65 1)) (ascii "KAZBA-RESTORE-V1" ++ chDigest ch.doc ++ digestBytes d) (slice body 69 132)
      (good = false → t.parts = s.parts ∧ Answered s t r 0x0251 .denied 0 []) ∧
      (good = true → ∃ c, (partOf t r.part.toNat).charter = some c ∧ (d, be body 65 1) ∈ c.auths ∧
        ((d, be body 65 1) ∈ ch.auths → c.auths = ch.auths) ∧ Answered s t r 0x0251 .ok 0 (bytesBE 1 (authCount c d))))) ∧
  (∀ (s : State) (r : Req) (body : Bytes) (ch : Charter), Sharing s r body 4 1 ch →
    exec (.keyShareStatus r body) s = .next (respond r 0x0251 .ok ([stateByte ch, ch.present] ++ chDigest ch.doc) (taken s r)))

/-- R371, R372, R373, R374, R375, R377: steps and mirrors. STEP_JOIN fixes the partition's place; a commit takes the arrived epoch, swaps the banks,
withholds WRITE while a mirror is due, and wakes the waiting grain cores with its gate word; rollback, uncommit, release and abort have
their own effect on the banks and their own gate word; a mirror's status names the latest held for the origin, a mirror restore sends that
bank back. While a context of the partition fences, every decision is refused; a bank operation that the charter lacks is
BAD_DESCRIPTOR.
Commands that it says complete: stepJoin, stepCommit, stepRollback, stepUncommit, mirrorRelease, mirrorStatus, mirrorRestore, stepAbort. -/
def Obligations.StepDecisions : Prop :=
  (∀ (s : State) (r : Req) (body : Bytes) (p : Nat) (ch : Charter), UnderCharter s r body 24 p ch → be body 1 2 < be body 3 2 → be body 21 1 ≤ 1 →
    be body 22 2 < 4096 → (be body 5 8 = 0 → be body 21 1 = 0 ∧ be body 22 2 = 0) → Completes (.stepJoin r body) s (fun t =>
      (partOf t p).step = { (partOf s p).step with
        joined := true, index := BitVec.ofNat 16 (be body 1 2), count := BitVec.ofNat 16 (be body 3 2), buddy := BitVec.ofNat 64 (be body 5 8),
        origin := BitVec.ofNat 64 (be body 13 8), path := if be body 5 8 = 0 then none else some (be body 21 1, be body 22 2) } ∧
      t.ctxs = s.ctxs ∧ t.mem = s.mem ∧ Answered s t r 0x0110 .ok 0 [])) ∧
  (∀ (s : State) (r : Req) (body : Bytes) (p : Nat) (ch : Charter), UnderCharter s r body 5 p ch → Deciding s p →
    (partOf s p).step.arrived = some (BitVec.ofNat 32 (be body 1 4)) → s.cfg.armed = none →
    (chBanks ch.doc = false → Completes (.stepCommit r body) s (fun t =>
      (partOf t p).step = { (partOf s p).step with arrived := none, wrOk := true } ∧ Gated s t p 1 (be body 1 4) ∧ t.mem = s.mem ∧
      Answered s t r 0x0111 .ok 0 [])) ∧
    (chBanks ch.doc = true → (partOf s p).step.banks = .arrived → Completes (.stepCommit r body) s (fun t =>
      (partOf t p).step.commit = some (BitVec.ofNat 32 (be body 1 4)) ∧ (partOf t p).step.prevCom = (partOf s p).step.commit ∧
      (partOf t p).step.banks = (if chMirror ch.doc then .settled else .opened) ∧ (partOf t p).step.wrOk = !chMirror ch.doc ∧
      (partOf t p).step.arrived = none ∧ Gated s t p 1 (be body 1 4) ∧ t.mem = s.mem ∧ Answered s t r 0x0111 .ok 0 [] ∧
      ∀ x y, pairEntries s (bankCtx s p) ch = [(x, y)] → x ≠ y →
        regPBase (tget 0 (ctxOf t (bankCtx s p)).regions x) = regPBase (tget 0 (ctxOf s (bankCtx s p)).regions y) ∧
        regPBase (tget 0 (ctxOf t (bankCtx s p)).regions y) = regPBase (tget 0 (ctxOf s (bankCtx s p)).regions x)))) ∧
  (∀ (s : State) (r : Req) (body : Bytes) (p : Nat) (ch : Charter), UnderCharter s r body 5 p ch → Deciding s p →
    (partOf s p).step.arrived ≠ some (BitVec.ofNat 32 (be body 1 4)) → Completes (.stepCommit r body) s (fun t =>
      t.parts = s.parts ∧ t.cores = s.cores ∧ Answered s t r 0x0111 .conflict 0 [])) ∧
  (∀ (s : State) (r : Req) (body : Bytes) (p : Nat) (ch : Charter) (a : W32), UnderCharter s r body 5 p ch → Deciding s p →
    chBanks ch.doc = true → ((partOf s p).step.arrived = some a ∧ a.toNat = be body 1 4) ∨
      ((partOf s p).step.arrived = none ∧ attempt s p (partOf s p).step (be body 1 4) = true) → Completes (.stepRollback r body) s (fun t =>
      (partOf t p).step.arrived = none ∧ (partOf t p).step.commit = (partOf s p).step.commit ∧ t.mem = s.mem ∧ Gated s t p 2 (be body 1 4) ∧
      ((partOf s p).step.banks = .settled → (partOf t p).step.banks = .settled ∧ (partOf t p).step.wrOk = (partOf s p).step.wrOk) ∧
      ((partOf s p).step.banks ≠ .settled → (partOf t p).step.banks = .opened ∧ (partOf t p).step.wrOk = true) ∧
      Answered s t r 0x0112 .ok 0 [])) ∧
  (∀ (s : State) (r : Req) (body : Bytes) (p : Nat) (ch : Charter) (c : W32), UnderCharter s r body 5 p ch → Deciding s p → chBanks ch.doc = true →
    (partOf s p).step.arrived = none → (partOf s p).step.commit = some c → be body 1 4 ≠ ctxEpoch s (bankCtx s p) →
    (c.toNat < ctxEpoch s (bankCtx s p) ∨ be body 1 4 ≠ c.toNat + 1) → Completes (.stepRollback r body) s (fun t =>
      t.parts = s.parts ∧ t.cores = s.cores ∧ Answered s t r 0x0112 .conflict 0 [])) ∧
  (∀ (s : State) (r : Req) (body : Bytes) (p : Nat) (ch : Charter), UnderCharter s r body 5 p ch → Deciding s p → chBanks ch.doc = true →
    (partOf s p).step.banks = .settled → (partOf s p).step.commit = some (BitVec.ofNat 32 (be body 1 4)) → Completes (.stepUncommit r body) s (fun t =>
      (partOf t p).step.commit = (partOf s p).step.prevCom ∧ (partOf t p).step.banks = .opened ∧ (partOf t p).step.wrOk = true ∧
      (partOf t p).step.mirEpoch = none ∧ Gated s t p 3 (be body 1 4) ∧ t.mem = s.mem ∧ Answered s t r 0x0113 .ok 0 [])) ∧
  (∀ (s : State) (r : Req) (body : Bytes) (p : Nat) (ch : Charter), UnderCharter s r body 5 p ch → Deciding s p → chMirror ch.doc = true →
    (partOf s p).step.banks = .settled → (partOf s p).step.commit = some (BitVec.ofNat 32 (be body 1 4)) →
    ((partOf s p).step.mirDone = true → Completes (.mirrorRelease r body) s (fun t =>
      (partOf t p).step.banks = (if (partOf s p).step.arrived.isSome then .arrived else .opened) ∧
      (partOf t p).step.wrOk = (partOf s p).step.arrived.isNone ∧ Gated s t p 4 (be body 1 4) ∧ Answered s t r 0x0114 .ok 0 [])) ∧
    ((partOf s p).step.mirDone = false → Completes (.mirrorRelease r body) s (fun t => t.parts = s.parts ∧ Answered s t r 0x0114 .conflict 0 []))) ∧
  (∀ (s : State) (r : Req) (body : Bytes) (p : Nat) (ch : Charter), UnderCharter s r body 9 p ch → chMirror ch.doc = true →
    exec (.mirrorStatus r body) s = .next (respond r 0x0115 .ok
      (match (if (partOf s p).step.joined && (partOf s p).step.origin.toNat == be body 1 8 then latestMirror (partOf s p).step else none) with
       | some e => bytesBE 4 e.toNat ++ [1]
       | none => bytesBE 4 0 ++ [0]) (taken s r))) ∧
  (∀ (s : State) (r : Req) (body : Bytes) (p b : Nat) (ch : Charter), UnderCharter s r body 16 p ch → chMirror ch.doc = true → be body 13 1 ≤ 1 →
    be body 14 2 ≠ 0 → be body 14 2 < 4096 → (partOf s p).step.joined = true → (partOf s p).step.origin.toNat = be body 1 8 →
    mirrorHolds (partOf s p).step (be body 9 4) = some b → (partOf s p).step.sendBack = none →
    (let key := pathKey (be body 13 1) (be body 14 2)
     eValid (entryOf s key) = true → eRole (entryOf s key) = 0 → ePart (entryOf s key) = p → (pathOf s key).phase = 3 →
     Completes (.mirrorRestore r body) s (fun t =>
       (partOf t p).step = { (partOf s p).step with sendBack := some (b, key, 0, BitVec.ofNat 32 (be body 9 4)) } ∧ t.mem = s.mem ∧
       Answered s t r 0x0116 .ok 0 []))) ∧
  (∀ (s : State) (r : Req) (body : Bytes) (p : Nat) (ch : Charter), UnderCharter s r body 1 p ch → Deciding s p → Completes (.stepAbort r body) s (fun t =>
    t.parts = s.parts ∧ Gated s t p 5 (ctxEpoch s (bankCtx s p)) ∧ t.mem = s.mem ∧ Answered s t r 0x0117 .ok 0 [])) ∧
  (∀ (i : Req → Bytes → Instr) (op len : Nat), (i, op, len) ∈ [(Instr.stepCommit, 0x0111, 5), (Instr.stepRollback, 0x0112, 5),
      (Instr.stepUncommit, 0x0113, 5), (Instr.mirrorRelease, 0x0114, 5), (Instr.stepAbort, 0x0117, 1)] →
    ∀ (s : State) (r : Req) (body : Bytes) (p : Nat) (ch : Charter), UnderCharter s r body len p ch →
      (∃ c ∈ ctxsOf s p, (ctxOf s c).state = .fencing ∨ (ctxOf s c).state = .fenced) → Completes (i r body) s (fun t =>
        t.parts = s.parts ∧ t.cores = s.cores ∧ t.mem = s.mem ∧ Answered s t r op .fenced 0 [])) ∧
  (∀ (i : Req → Bytes → Instr) (op : Nat), (i, op) ∈ [(Instr.stepRollback, 0x0112), (Instr.stepUncommit, 0x0113), (Instr.mirrorRelease, 0x0114)] →
    ∀ (s : State) (r : Req) (body : Bytes) (p : Nat) (ch : Charter), UnderCharter s r body 5 p ch → Deciding s p → chBanks ch.doc = false →
      chMirror ch.doc = false → Completes (i r body) s (fun t =>
        t.parts = s.parts ∧ t.cores = s.cores ∧ t.mem = s.mem ∧ Answered s t r op .badDescriptor 0 []))

/-- R378, R379, R380, R381, R383, R388, R389: the cut of a checkpoint and its copy. A cut whose conditions hold starts the copy with the ranges named,
its own key and the header of its shard, and answers with the transfer; every checkpoint opcode is refused for a partition without an
ACTIVE charter (CONFLICT) or whose charter has CKPT_MODE 0 (DENIED); a chunk
joins the shard only where every slot in it passes, else the snapshot ends; the copy changes no byte of memory.
Commands that it says complete: ckptCut, snapshotChunk. -/
def Obligations.CheckpointCopy : Prop :=
  (∀ (s : State) (r : Req) (body : Bytes) (p : Nat) (ch : Charter), (let n := be body 36 1
    let listed := rangesOf body 40 n
    let ranges := if n = 0 then committedRanges ch else listed
    UnderCharter s r body (40 + 16 * n) p ch → chMode ch.doc ≠ 0 → (sessOf s (be body 28 4)).phase = .opened → (sessOf s (be body 28 4)).role = .fabric →
    be body 1 1 = 0 → be body 6 2 = 0 → be body 37 3 = 0 → be body 2 2 < be body 4 2 → be body 4 2 ≤ 4096 → n ≤ 64 → be body 32 4 ≠ 0xFFFFFFFF →
    (n = 0 → chBanks ch.doc = true) →
    (∀ x ∈ listed, crBase x < 2 ^ 48 ∧ (crWidth x = 1 ∨ crWidth x = 2 ∨ crWidth x = 4 ∨ crWidth x = 16) ∧ crSlot x ≠ 0 ∧ x.2.1 ≠ 0 ∧ x.2.1 ≠ 0xFFFFFFFF ∧
      sealedWith s (bankCtx s p) rREAD (crBase x) (crLen x) = true) → noneMeet (listed.map (fun x => (crBase x, crLen x))) = true →
    (partOf s p).snap.state = .idle → ctxsOf s p ≠ [] → (∀ c ∈ ctxsOf s p, (ctxOf s c).state ≠ .fencing ∧ (ctxOf s c).state ≠ .fenced) → (cutAtGate s p (be body 24 4) = true ∨ cutOnCommit s p ch n (be body 24 4) = true) →
    pushClaim s p = true → (placeArea s p (stagingBytes (be body 32 4) ranges)).isSome = true →
    (∀ x ∈ ranges, zotBlocks s (bankCtx s p) (crBase x) (crLen x) = none) → Completes (.ckptCut r body) s (fun t =>
      let m := (partOf t p).snap
      m.state = .copying ∧ m.ckpt = BitVec.ofNat 128 (be body 8 16) ∧ m.epoch = BitVec.ofNat 32 (be body 24 4) ∧ m.sink = be body 28 4 ∧
      m.ranges = ranges ∧ m.marks = ranges.map (fun _ => 0) ∧ m.chunk = 0 ∧ m.key.isSome = true ∧ m.bytes.length = headerLen m ∧
      some m.areas = placeArea s p (stagingBytes (be body 32 4) ranges) ∧ t.keys = s.keys ∧
      (∀ a, (∀ x ∈ m.areas, a < x.1 ∨ x.1 + x.2 ≤ a) → mget t.mem a = mget s.mem a) ∧
      (∀ x ∈ m.areas, ∀ a, x.1 ≤ a → a < x.1 + x.2 → mget t.mem a = 0) ∧
      Answered s t r 0x0120 .ok 0 (bytesBE 4 m.transfer.toNat ++ bytesBE 8 (plainLength ranges))))) ∧
  (∀ (s : State) (p e : Nat), cutAtGate s p e = true → (partOf s p).step.arrived = some (BitVec.ofNat 32 e) ∧
    (∃ k ∈ (runningCores s (bankCtx s p)).map (coreOf s) ++ (ctxOf s (bankCtx s p)).saved.map (·.2), ∃ g ∈ k.grains,
      g.2.started = true ∧ g.2.stopped = false ∧ g.2.waiting = .recv)) ∧
  (∀ (s : State) (r : Req) (body : Bytes) (p : Nat) (ch : Charter), UnderCharter s r body (40 + 16 * be body 36 1) p ch → chMode ch.doc ≠ 0 →
    CkptFormed s r body 0x0120 → (∃ c ∈ ctxsOf s p, (ctxOf s c).state = .fencing ∨ (ctxOf s c).state = .fenced) →
    Completes (.ckptCut r body) s (fun t => t.parts = s.parts ∧ t.mem = s.mem ∧ Answered s t r 0x0120 .fenced 0 [])) ∧
  (∀ (i : Req → Bytes → Instr) (op : Nat), CkptOp i op → ∀ (s : State) (r : Req) (body : Bytes),
    Served s r .f → be body 0 1 < 16 → pEnabled s (be body 0 1) = true → CkptFormed s r body op → activeCharter s (be body 0 1) = none →
    Completes (i r body) s (fun t => t.parts = s.parts ∧ t.mem = s.mem ∧ t.cores = s.cores ∧ t.keys = s.keys ∧ Answered s t r op .conflict 0 [])) ∧
  (∀ (i : Req → Bytes → Instr) (op : Nat), CkptOp i op → ∀ (s : State) (r : Req) (body : Bytes) (ch : Charter),
    Served s r .f → activeCharter s (be body 0 1) = some ch → chMode ch.doc = 0 →
    Completes (i r body) s (fun t => t.parts = s.parts ∧ t.mem = s.mem ∧ t.cores = s.cores ∧ t.keys = s.keys ∧ Answered s t r op .denied 0 [])) ∧
  (∀ (s : State) (part : BitVec 4) (ch : Charter) (i off len : Nat), (let p := part.toNat
    let n := (partOf s p).snap
    let k := n.ranges.getD i (0, 0, 0, 0)
    n.state = .copying → n.sentAll = false → activeCharter s p = some ch → (allChunks n.ranges)[n.chunk]? = some (i, off, len) →
    (chunkStatus s p ch n i k off len ≠ .ok → Completes (.snapshotChunk part) s (fun t =>
      (partOf t p).snap = { ({} : Snapshot) with stallNs := n.stallNs } ∧ t.mem = s.mem ∧ t.sess = s.sess)) ∧
    (chunkStatus s p ch n i k off len = .ok → Completes (.snapshotChunk part) s (fun t => t.mem = s.mem ∧ t.fuses = s.fuses ∧
      ((sessOf t n.sink).phase = .opened → (partOf t p).snap.chunk = n.chunk + 1 ∧ (partOf t p).snap.copied = n.copied + len ∧
        (partOf t p).snap.plain = n.plain ++ chunkBytes s n i k off len))))) ∧
  (∀ (s : State) (part : BitVec 4), (partOf s part.toNat).snap.state ≠ .copying → exec (.snapshotChunk part) s = .next s) ∧
  (∀ (s : State) (part : BitVec 4) (ch : Charter), (let n := (partOf s part.toNat).snap
    n.state = .copying → n.sentAll = false → activeCharter s part.toNat = some ch → (allChunks n.ranges)[n.chunk]? = none →
    Completes (.snapshotChunk part) s (fun t => t.mem = s.mem ∧ t.fuses = s.fuses ∧ (classPaused s 3 = true → t = s))))

/-- R379, R393, R394, R395, R397: the end of a checkpoint and a restore. Status answers the snapshot's counts; a shard that is stored has a signed record,
kept for a repeated request; an abandoned snapshot is IDLE; a manifest's fragments are joined in order; a restore opens only under the
owners' quorum for the whole manifest, for one shard, on the session that asked.
Commands that it says complete: ckptStatus, ckptStored, ckptAbandon, ckptManifestLoad, ckptRestoreOpen. -/
def Obligations.CheckpointEnd : Prop :=
  (∀ (s : State) (r : Req) (body : Bytes) (p : Nat) (ch : Charter), UnderCharter s r body 1 p ch → chMode ch.doc ≠ 0 →
    exec (.ckptStatus r body) s = .next (respond r 0x0121 .ok (bytesBE 1 (snapCode (partOf s p).snap.state) ++ bytesBE 8 (partOf s p).snap.copied ++
      bytesBE 8 (partOf s p).snap.sent ++ bytesBE 4 (partOf s p).snap.pushed ++ bytesBE 8 (partOf s p).snap.stallNs) (taken s r))) ∧
  (∀ (s : State) (r : Req) (body : Bytes) (p : Nat) (ch : Charter), UnderCharter s r body 13 p ch → chMode ch.doc ≠ 0 → (partOf s p).snap.state = .sent →
    (partOf s p).snap.transfer = BitVec.ofNat 32 (be body 1 4) → be body 5 8 = (partOf s p).snap.bytes.length →
    Completes (.ckptStored r body) s (fun t => (partOf t p).snap.state = .idle ∧ (partOf t p).snap.key = none ∧ t.mem = s.mem ∧
      (let b := shardRecord s (partOf s p).snap
       (partOf t p).snap.record = some ((partOf s p).snap.transfer, b ++ identitySign s "KAZBA-SHARD-V1" b) ∧
       Answered s t r 0x0122 .ok 0 (b ++ identitySign s "KAZBA-SHARD-V1" b)))) ∧
  (∀ (s : State) (r : Req) (body : Bytes) (p : Nat) (ch : Charter) (b : Bytes), UnderCharter s r body 13 p ch → chMode ch.doc ≠ 0 →
    (partOf s p).snap.state = .idle → (partOf s p).snap.record = some (BitVec.ofNat 32 (be body 1 4), b) →
    (be body 5 8 = be b 0x070 8 → exec (.ckptStored r body) s = .next (respond r 0x0122 .ok b (taken s r))) ∧
    (be body 5 8 ≠ be b 0x070 8 → Completes (.ckptStored r body) s (fun t => t.parts = s.parts ∧ t.mem = s.mem ∧ Answered s t r 0x0122 .badLength 0 []))) ∧
  (∀ (s : State) (r : Req) (body : Bytes) (p : Nat) (ch : Charter), UnderCharter s r body 1 p ch → chMode ch.doc ≠ 0 → (partOf s p).snap.state ≠ .idle →
    Completes (.ckptAbandon r body) s (fun t => (partOf t p).snap = { ({} : Snapshot) with stallNs := (partOf s p).snap.stallNs } ∧ t.mem = s.mem ∧ t.ctxs = s.ctxs ∧ Answered s t r 0x0123 .ok 0 [])) ∧
  (∀ (s : State) (r : Req) (body : Bytes) (p : Nat) (ch : Charter), Served s r .f → 12 ≤ body.length → r.bodyLen.toNat = body.length → be body 0 1 = p → p < 16 →
    pEnabled s p = true → activeCharter s p = some ch → chMode ch.doc ≠ 0 → be body 2 2 = 0 → body.length ≤ 65500 →
    (be body 1 1 = 1 → be body 4 8 = 0 → Completes (.ckptManifestLoad r body) s (fun t => t.mem = s.mem ∧
      (manifestBad ch (body.drop 12) = true → t.parts = s.parts ∧ Answered s t r 0x0124 .badDescriptor 0 []) ∧
      (manifestBad ch (body.drop 12) = false → (partOf t p).rest = { (partOf s p).rest with manifest := body.drop 12, whole := true } ∧
        Answered s t r 0x0124 .ok 0 (digestBytes (Config.sha512 (body.drop 12)))))) ∧
    (be body 1 1 = 0 → be body 4 8 = 0 → Completes (.ckptManifestLoad r body) s (fun t =>
      (partOf t p).rest = { (partOf s p).rest with manifest := body.drop 12, whole := false } ∧ t.mem = s.mem ∧ Answered s t r 0x0124 .ok 0 [])) ∧
    (be body 1 1 = 0 → be body 4 8 ≠ 0 → (partOf s p).rest.whole = false → be body 4 8 = (partOf s p).rest.manifest.length → be body 4 8 + (body.length - 12) ≤ 1917040 →
      Completes (.ckptManifestLoad r body) s (fun t =>
        (partOf t p).rest = { (partOf s p).rest with manifest := (partOf s p).rest.manifest ++ body.drop 12 } ∧ t.mem = s.mem ∧
        Answered s t r 0x0124 .ok 0 [])) ∧
    (be body 1 1 = 0 → be body 4 8 ≠ 0 → be body 4 8 ≠ (partOf s p).rest.manifest.length → be body 4 8 + (body.length - 12) ≤ 1917040 →
      Completes (.ckptManifestLoad r body) s (fun t => t.parts = s.parts ∧ Answered s t r 0x0124 .badDescriptor 0 []))) ∧
  (∀ (s : State) (r : Req) (body : Bytes) (p : Nat) (ch : Charter), UnderCharter s r body 17 p ch → chMode ch.doc ≠ 0 → be body 4 1 = 0 → nbit (be body 5 4) 31 = false →
    (let v := (partOf s p).rest
     be body 1 1 = 0 → chBanks ch.doc = false → be body 2 2 < mnCount v.manifest → ctxsOf s p ≠ [] → (ctxOf s (bankCtx s p)).state = .creating →
     (ctxOf s (bankCtx s p)).loaded = true → v.isOpen = false → (∀ x ∈ s.bulk, x.1 ≠ bulkKey r.sess (be body 5 4)) →
     (v.whole = true → chQuorum ch.doc ≤ authCount ch (Config.sha512 v.manifest) → Completes (.ckptRestoreOpen r body) s (fun t =>
       (partOf t p).rest.isOpen = true ∧ (partOf t p).rest.shard = be body 2 2 ∧ (partOf t p).rest.transfer = BitVec.ofNat 32 (be body 5 4) ∧
       (partOf t p).rest.sess = r.sess ∧ (partOf t p).rest.reloc = none ∧ (partOf t p).rest.record = mnRecord v.manifest (be body 2 2) ∧
       (partOf t p).rest.bytes = [] ∧ t.mem = s.mem ∧ Answered s t r 0x0125 .ok 0 [])) ∧
     (v.whole = false ∨ authCount ch (Config.sha512 v.manifest) < chQuorum ch.doc → Completes (.ckptRestoreOpen r body) s (fun t =>
       t.parts = s.parts ∧ Answered s t r 0x0125 .denied 0 []))))

/-! ## The whole machine -/

/-- A step runs the command at the front of the queue on the rest of the queue. With none waiting, the first mailbox request that was
received ahead of its turn runs once its turn has come, and else a nanosecond passes: the model's choices, log entries 12 and 157. -/
def Obligations.StepRunsFrontCommand : Prop :=
  (∀ (s : State) (c : Instr) (rest : List Instr), s.pending = c :: rest → step s = exec c { s with pending := rest }) ∧
  (∀ (c : Instr) (s : State), step { s with pending := c :: s.pending } = exec c s) ∧
  (∀ (s : State) (h : HeldReq) (rest : List HeldReq), s.pending = [] → s.heldReqs = h :: rest → h.seq ≤ (sessOf s h.sess).rxSeq →
    portOpen s (sessOf s h.sess).port = true →
    step s = exec h.cmd (setSess { s with heldReqs := rest } h.sess { sessOf s h.sess with turn := true })) ∧
  (∀ s : State, s.pending = [] → (∀ h ∈ s.heldReqs, (sessOf s h.sess).rxSeq < h.seq ∨ portOpen s (sessOf s h.sess).port = false) →
    step s = .next (tick s))

/-- R11, R30, R59, R232, R263, R299, R328, R336: the device as manufactured: supply off, fuses blank, no key, no measurement, memory empty and
canonical, every context FREE, every partition UNUSED, every link DOWN, every session closed, the time base at 0 and free running, no
command waiting. The values that the spec does not give are the model's choice, log entry 11. -/
def Obligations.StateAtReset : Prop :=
  State.reset.pkg.supply = .off ∧ FuseInv State.reset ∧ State.reset.fuses.lifecycle = .blank ∧ State.reset.boot.phase = .stopped ∧
  (∀ n, keyOf State.reset n = []) ∧ (∀ n, tget 0 State.reset.mrs.mr n = 0 ∧ tget 0 State.reset.mrs.count n = 0) ∧
  Memory.wf State.reset.mem = true ∧ (∀ a, mget State.reset.mem a = 0 ∧ poisoned State.reset a = false) ∧
  (∀ c, (ctxOf State.reset c).state = .free ∧ (ctxOf State.reset c).gen = 0) ∧ (∀ p, (partOf State.reset p).state = .unused) ∧
  (∀ l, linkSt State.reset l = .down) ∧ (∀ k, eValid (entryOf State.reset k) = false) ∧ (∀ n, (sessOf State.reset n).phase = .closed) ∧
  State.reset.host.up = false ∧ now State.reset = 0 ∧ State.reset.time.ptp = .freeRun ∧ State.reset.pkg.alertCause = 0 ∧
  State.reset.devQueue.items = [] ∧ State.reset.bulk = [] ∧ State.reset.pending = [] ∧ step State.reset = .next State.reset

/-- R59, R62, R68, R410, R412: no step gives a burnt fuse back: the security version and the owner epoch never fall, no revocation is undone,
the lifecycle never returns to an earlier burnt state. -/
def Obligations.FusesNeverMoveBack : Prop :=
  ∀ s t : State, step s = .next t → s.fuses.svn ≤ t.fuses.svn ∧ s.fuses.ownerEpoch ≤ t.fuses.ownerEpoch ∧
    (∀ i, bit s.fuses.revoked i = true → bit t.fuses.revoked i = true) ∧ lifecycleRank s.fuses.lifecycle ≤ lifecycleRank t.fuses.lifecycle

/-- R62, R68, R412: every step keeps that the fused secret is there exactly from provisioning on and that at most 64 owner epochs are burnt;
once provisioned, serial and secret never change. -/
def Obligations.FuseInvariantKept : Prop :=
  ∀ s t : State, FuseInv s → step s = .next t → FuseInv t ∧
    (s.fuses.lifecycle ≠ .blank → t.fuses.serial = s.fuses.serial ∧ t.fuses.secret = s.fuses.secret)

/-- Every step keeps the memory's canonical form: addresses strictly rising and no byte listed that reads as zero anyway (log entry 103). -/
def Obligations.MemoryStaysCanonical : Prop :=
  ∀ s t : State, Memory.wf s.mem = true → step s = .next t → Memory.wf t.mem = true

/-- R15, R16, R48, R302, R303: a datagram of a request that breaks its header's layout, comes to no open session of its port, from another
peer or with a failing tag is dropped and counted, and one received before or outside the window is dropped; one ahead of its turn waits
in SEQ order. A request is refused with the code of the failing check that comes first in the order of R15; a refusal changes no
memory, key, partition, core or fuse, no table of the session and of a context only its count of refusals. Before READY every request but
attestation is refused with NOT_READY. -/
def Obligations.RequestRules : Prop :=
  (∀ (l : List Check) (st : Status), firstFailure l = some st → ∃ k ∈ l, k.fails = true ∧ k.code = st ∧ ∀ j ∈ l, j.fails = true → k.order ≤ j.order) ∧
  (∀ l : List Check, firstFailure l = none ↔ AllPass l) ∧
  (∀ (s : State) (r : Req) (op : Nat) (rt : Rights) (lenOk : Bool) (checks : List Check) (act : State → State) (st : Status),
    mailboxOpen s r = true → firstFailure (headerChecks (taken s r) r op rt lenOk ++ checks) = some st → (sessOf s r.sess).txSeq < 2 ^ 47 →
    (let t := request s r op rt lenOk checks act
     Answered s t r op st 0 [] ∧ t.mem = s.mem ∧ t.keys = s.keys ∧ t.parts = s.parts ∧ t.cores = s.cores ∧ t.fuses = s.fuses ∧ t.cfg = s.cfg ∧
     t.nvm = s.nvm ∧ t.paths = s.paths ∧ (sessOf t r.sess).wins = (sessOf s r.sess).wins ∧ (∀ c, c ≠ r.ctx.toNat → ctxOf t c = ctxOf s c) ∧
     (ctxOf t r.ctx.toNat = ctxOf s r.ctx.toNat ∨
      ctxOf t r.ctx.toNat = { ctxOf s r.ctx.toNat with refused := (ctxOf s r.ctx.toNat).refused + 1 }))) ∧
  (∀ (s : State) (r : Req) (op : Nat) (rt : Rights) (lenOk : Bool) (checks : List Check) (act : State → State),
    mailboxOpen s r = true → isReady s = false → op ≠ 0x0001 → (∀ k ∈ checks, 1 < k.order) → (sessOf s r.sess).txSeq < 2 ^ 47 →
    Answered s (request s r op rt lenOk checks act) r op .notReady 0 []) ∧
  (∀ (s : State) (r : Req) (op : Nat) (rt : Rights) (lenOk : Bool) (checks : List Check) (act : State → State),
    mailboxOpen s r = false → (bootHalted s && r.port == .mgmt) = false → request s r op rt lenOk checks act = s) ∧
  (∀ (i : Req → Bytes → Instr) (s : State) (r : Req) (body : Bytes), i ∈ mailboxRows → (bootHalted s && r.port == .mgmt) = false → (sessOf s r.sess).turn = false →
    (let q := sessOf s r.sess
     let first := r.head.seq.getD (q.rxSeq + 1)
     let last := first + r.frags
     (portOpen s r.port = false → exec (i r body) s = .next s) ∧
     (portOpen s r.port = true → (headBad r.head = true ∨ q.phase ≠ .opened ∨ q.port ≠ r.port ∨ r.head.peer.getD q.peer ≠ q.peer) →
       exec (i r body) s = .next (countDrop r.port s)) ∧
     (portOpen s r.port = true → headBad r.head = false → q.phase = .opened → q.port = r.port → r.head.peer.getD q.peer = q.peer →
       (r.head.tagBad = true → exec (i r body) s = .next (setSess s r.sess { q with tagFail := q.tagFail + 1 })) ∧
       (r.head.tagBad = false → (first ≤ q.rxSeq ∨ first ∈ q.rxMap ∨ q.rxSeq + 1024 < last) → exec (i r body) s = .next s) ∧
       (r.head.tagBad = false → seqsOpen q first last = true → last < 2 ^ 47 → first ≠ q.rxSeq + 1 →
         (∀ x ∈ q.unacked, ackCovers r.acks.ackSeq r.acks.sack x.seq = false) → Completes (i r body) s (fun t =>
           t.heldReqs = insertHeld ⟨r.sess, last, i r body⟩ s.heldReqs ∧ t.mem = s.mem ∧ t.parts = s.parts ∧ t.ctxs = s.ctxs ∧
           (∀ k ≤ r.frags, first + k ∈ (sessOf t r.sess).rxMap ∨ first + k ≤ (sessOf t r.sess).rxSeq))))))

/-- R100, R101, R102, R110, R114, R115: number formats. Every finite code of every floating-point format converts to itself without a flag, an FP32
subnormal flushes to the zero of its sign, an infinity of a format that has one converts to itself with INF; every integer code under
every zero point converts to itself without a flag; a finite value converts to an integer code as the nearest integer, a half away from
zero, plus the zero point, clamped to the target's range with SATURATE and no other flag. -/
def Obligations.NumberFormats : Prop :=
  (∀ (f x : Nat), f ∈ ([1, 2, 3, 4, 5, 6, 7] : List Nat) → x < 2 ^ fmtBits f → isFinite (decodeFloat f x).1 = true → roundFloat f 0 0 (decodeFloat f x).1 = (x, 0)) ∧
  (∀ (f x : Nat), f ∈ ([5, 6, 7] : List Nat) → x < 2 ^ fmtBits f → isInf (decodeFloat f x).1 = true → roundFloat f 0 0 (decodeFloat f x).1 = (x, fINF)) ∧
  (∀ (x : Nat), x < 2 ^ 32 → isFinite (decode32 x).1 = true → fp32Sub x = false → round32 (decode32 x).1 = (x, 0)) ∧
  (∀ (x : Nat), x < 2 ^ 32 → fp32Sub x = true → decode32 x = (.fin (nbit x 31) 0 1 0, fFLUSH)) ∧
  (∀ (f x zp : Nat), f ∈ ([0x08, 0x09] : List Nat) → x < 2 ^ fmtBits f → zp < 256 → roundInt f (signed 8 zp) (decodeElem f zp x).1 = (x, 0)) ∧
  (∀ (x : Nat), x < 2 ^ 32 → roundInt 0x0C 0 (decodeElem 0x0C 0 x).1 = (x, 0)) ∧
  (∀ (f : Nat) (lo hi : Int), (f, lo, hi) ∈ ([(0x08, -8, 7), (0x09, -128, 127), (0x0C, -2147483648, 2147483647)] : List (Nat × Int × Int)) →
    ∀ (zp : Int) (neg : Bool) (num den : Nat) (exp : Int), den ≠ 0 →
      (let q := halfAway (ratOf neg num den exp) + zp
       roundInt f zp (.fin neg num den exp) =
         if q < lo then (ofInt (fmtBits f) lo, fSATURATE) else if hi < q then (ofInt (fmtBits f) hi, fSATURATE) else (ofInt (fmtBits f) q, 0)))
end

