-- ==== Sys2Proof/Laws/Tables.lean ====
section
/-! SUPPORT. Sparse tables: reading an entry after a write. -/

namespace Sys2Proof.Machine

variable {α : Type}

@[simp] theorem tget_nil (d : α) (k : Nat) : tget d [] k = d := rfl

@[simp] theorem tget_tset_self (d : α) (t : Tbl α) (k : Nat) (v : α) : tget d (tset t k v) k = v := by
  induction t with
  | nil => simp [tset, tget]
  | cons e t ih =>
    obtain ⟨i, w⟩ := e
    simp only [tset]
    split
    · simp [tget]
    · split
      · simp [tget]
      · rename_i h1 h2
        have h3 : i ≠ k := fun h => h2 h.symm
        simp [tget, h3, ih]

theorem tget_tset_ne (d : α) (t : Tbl α) (k j : Nat) (v : α) (h : j ≠ k) : tget d (tset t k v) j = tget d t j := by
  induction t with
  | nil => simp [tset, tget, Ne.symm h]
  | cons e t ih =>
    obtain ⟨i, w⟩ := e
    simp only [tset]
    split
    · simp [tget, Ne.symm h]
    · split
      · rename_i h2
        subst h2
        simp [tget, Ne.symm h]
      · by_cases h3 : i = j
        · simp [tget, h3]
        · simp [tget, h3, ih]

theorem tget_tset (d : α) (t : Tbl α) (k j : Nat) (v : α) : tget d (tset t k v) j = if j = k then v else tget d t j := by
  split
  · rename_i h; subst h; simp
  · rename_i h; exact tget_tset_ne d t k j v h

@[simp] theorem tset_tset (t : Tbl α) (k : Nat) (v w : α) : tset (tset t k v) k w = tset t k w := by
  induction t with
  | nil => simp [tset]
  | cons e t ih =>
    obtain ⟨i, x⟩ := e
    by_cases h : k < i
    · simp [tset, h]
    · by_cases h2 : k = i
      · subst h2; simp [tset]
      · simp [tset, h, h2, ih]

theorem tget_tmod (d : α) (t : Tbl α) (k j : Nat) (f : α → α) :
    tget d (tmod d t k f) j = if j = k then f (tget d t k) else tget d t j := tget_tset d t k j _

theorem tget_tdrop (d : α) (p : Nat → Bool) (t : Tbl α) (k : Nat) : tget d (tdrop p t) k = if p k then d else tget d t k := by
  induction t with
  | nil => simp [tdrop, tget]
  | cons e t ih =>
    obtain ⟨i, w⟩ := e
    simp only [tdrop] at ih
    by_cases hp : p i
    · by_cases h : i = k
      · subst h; simp [tdrop, hp, ih]
      · simp [tdrop, tget, hp, ih, h]
    · by_cases h : i = k
      · subst h; simp [tdrop, tget, hp]
      · simp [tdrop, tget, hp, ih, h]

end Sys2Proof.Machine
end

