-- ==== Sys2Proof/Laws/Memory.lean ====
section
/-! SUPPORT. Byte memories: every operation keeps the canonical form, a read after a write gives the byte written, and every other
byte stays. -/

namespace Sys2Proof.Machine

theorem wf_iff (m : Mem) : Memory.wf m = true ↔ m.Pairwise (fun a b => a.1 < b.1) ∧ ∀ c ∈ m, c.2 ≠ 0 := by
  induction m with
  | nil => simp [Memory.wf]
  | cons e t ih =>
    obtain ⟨a, v⟩ := e
    cases t with
    | nil => simp [Memory.wf]
    | cons f u =>
      obtain ⟨b, w⟩ := f
      simp only [Memory.wf, Bool.and_eq_true, bne_iff_ne, decide_eq_true_eq, ih, List.pairwise_cons, List.mem_cons,
        forall_eq_or_imp]
      constructor
      · rintro ⟨⟨h1, h2⟩, ⟨h3, h4⟩, h5, h6⟩
        exact ⟨⟨⟨h2, fun c hc => Nat.lt_trans h2 (h3 c hc)⟩, h3, h4⟩, h1, h5, h6⟩
      · rintro ⟨⟨⟨h2, _⟩, h3, h4⟩, h1, h5, h6⟩
        exact ⟨⟨h1, h2⟩, ⟨h3, h4⟩, h5, h6⟩

theorem mget_above (m : Mem) (a : Nat) (h : ∀ c ∈ m, a < c.1) : mget m a = 0 := by
  unfold mget
  induction m with
  | nil => rfl
  | cons e t ih =>
    obtain ⟨i, w⟩ := e
    have h1 : a < i := h (i, w) (by simp)
    have h2 : i ≠ a := by omega
    simp only [tget, h2, if_false]
    exact ih (fun c hc => h c (List.mem_cons_of_mem _ hc))

theorem mem_mset (m : Mem) (a : Nat) (v : Byte) (c : Host.Cell) (h : c ∈ mset m a v) : c = (a, v) ∧ v ≠ 0 ∨ c ∈ m := by
  induction m with
  | nil =>
    simp only [mset] at h
    split at h
    · simp at h
    · simp at h; exact .inl ⟨h, by assumption⟩
  | cons e t ih =>
    obtain ⟨i, w⟩ := e
    simp only [mset] at h
    split at h
    · split at h
      · exact .inr h
      · rcases List.mem_cons.1 h with h | h
        · exact .inl ⟨h, by assumption⟩
        · exact .inr h
    · split at h
      · split at h
        · exact .inr (List.mem_cons_of_mem _ h)
        · rcases List.mem_cons.1 h with h | h
          · exact .inl ⟨h, by assumption⟩
          · exact .inr (List.mem_cons_of_mem _ h)
      · rcases List.mem_cons.1 h with h | h
        · exact .inr (h ▸ List.mem_cons_self)
        · rcases ih h with h | h
          · exact .inl h
          · exact .inr (List.mem_cons_of_mem _ h)

/-- A write keeps the canonical form. -/
theorem mset_wf (m : Mem) (a : Nat) (v : Byte) (h : Memory.wf m = true) : Memory.wf (mset m a v) = true := by
  rw [wf_iff] at h ⊢
  obtain ⟨hs, hz⟩ := h
  refine ⟨?_, fun c hc => ?_⟩
  · induction m with
    | nil => simp only [mset]; split <;> simp
    | cons e t ih =>
      obtain ⟨i, w⟩ := e
      obtain ⟨h1, h2⟩ := List.pairwise_cons.1 hs
      simp only [mset]
      split
      · rename_i hlt
        split
        · exact hs
        · refine List.pairwise_cons.2 ⟨fun c hc => ?_, hs⟩
          rcases List.mem_cons.1 hc with h | h
          · subst h; exact hlt
          · exact Nat.lt_trans hlt (h1 c h)
      · split
        · rename_i heq
          subst heq
          split
          · exact h2
          · exact List.pairwise_cons.2 ⟨h1, h2⟩
        · rename_i hnl hne
          refine List.pairwise_cons.2 ⟨fun c hc => ?_, ih h2 (fun c hc => hz c (List.mem_cons_of_mem _ hc))⟩
          rcases mem_mset t a v c hc with ⟨h, -⟩ | h
          · subst h; show i < a; omega
          · exact h1 c h
  · rcases mem_mset m a v c hc with ⟨h, hv⟩ | h
    · subst h; exact hv
    · exact hz c h

theorem mwrite_wf (b : Bytes) : ∀ (m : Mem) (a : Nat), Memory.wf m = true → Memory.wf (mwrite m a b) = true := by
  induction b with
  | nil => intro m a h; exact h
  | cons x b ih => intro m a h; exact ih _ _ (mset_wf m a x h)

/-- A memory with some bytes taken out keeps the canonical form. -/
theorem filter_wf (m : Mem) (p : Host.Cell → Bool) (h : Memory.wf m = true) : Memory.wf (m.filter p) = true := by
  rw [wf_iff] at h ⊢
  exact ⟨h.1.filter p, fun c hc => h.2 c (List.mem_filter.1 hc).1⟩

theorem mzero_wf (m : Mem) (a n : Nat) (h : Memory.wf m = true) : Memory.wf (mzero m a n) = true := filter_wf m _ h

/-- A byte read after it was written. -/
theorem mget_mset_self (m : Mem) (a : Nat) (v : Byte) (h : Memory.wf m = true) : mget (mset m a v) a = v := by
  rw [wf_iff] at h
  obtain ⟨hs, -⟩ := h
  induction m with
  | nil => simp only [mset]; split <;> simp_all [mget, tget]
  | cons e t ih =>
    obtain ⟨i, w⟩ := e
    obtain ⟨h1, h2⟩ := List.pairwise_cons.1 hs
    simp only [mset]
    split
    · rename_i hlt
      split
      · rename_i hv
        subst hv
        exact mget_above _ a (fun c hc => by
          rcases List.mem_cons.1 hc with h | h
          · subst h; exact hlt
          · exact Nat.lt_trans hlt (h1 c h))
      · simp [mget, tget]
    · split
      · rename_i heq
        subst heq
        split
        · rename_i hv
          subst hv
          exact mget_above _ a h1
        · simp [mget, tget]
      · rename_i hne
        have h3 : i ≠ a := fun h => hne h.symm
        have := ih h2
        simp only [mget] at this ⊢
        simpa [tget, h3] using this

/-- A write leaves every other byte. -/
theorem mget_mset_ne (m : Mem) (a b : Nat) (v : Byte) (h : b ≠ a) : mget (mset m a v) b = mget m b := by
  induction m with
  | nil => simp only [mset]; split <;> simp [mget, tget, Ne.symm h]
  | cons e t ih =>
    obtain ⟨i, w⟩ := e
    simp only [mget] at ih ⊢
    simp only [mset]
    split
    · split
      · rfl
      · simp [tget, Ne.symm h]
    · split
      · rename_i heq
        subst heq
        split <;> simp [tget, Ne.symm h]
      · by_cases h3 : i = b
        · simp [tget, h3]
        · simpa [tget, h3] using ih

theorem mget_mwrite_out (bs : Bytes) : ∀ (m : Mem) (a b : Nat), b < a ∨ a + bs.length ≤ b → mget (mwrite m a bs) b = mget m b := by
  induction bs with
  | nil => intro m a b _; rfl
  | cons x bs ih =>
    intro m a b h
    simp only [List.length_cons] at h
    rw [mwrite, ih _ _ _ (by omega), mget_mset_ne _ _ _ _ (by omega)]

theorem mget_mwrite_in (bs : Bytes) : ∀ (m : Mem) (a i : Nat), Memory.wf m = true → i < bs.length →
    mget (mwrite m a bs) (a + i) = bs[i]?.getD 0 := by
  induction bs with
  | nil => intro m a i _ h; simp at h
  | cons x bs ih =>
    intro m a i hw h
    cases i with
    | zero => simp only [mwrite, Nat.add_zero]; rw [mget_mwrite_out _ _ _ _ (by omega), mget_mset_self _ _ _ hw]; rfl
    | succ i =>
      simp only [mwrite]
      have h2 := ih (mset m a x) (a + 1) i (mset_wf m a x hw) (by simpa using h)
      have h3 : a + 1 + i = a + (i + 1) := by omega
      rw [h3] at h2
      simpa using h2

/-- A range set to zero reads as zero, and the bytes outside it stay. -/
theorem mget_mzero (m : Mem) (a n b : Nat) : mget (mzero m a n) b = if a ≤ b ∧ b < a + n then 0 else mget m b := by
  have h := tget_tdrop (0 : Byte) (fun i => decide (a ≤ i) && decide (i < a + n)) m b
  simpa [mzero, mget, tdrop] using h

end Sys2Proof.Machine
end

