-- ==== Sys2Proof/Laws/State.lean ====
section
/-! SUPPORT. The state's updates: what each changes and what it leaves, one lemma for each field. -/

namespace Sys2Proof.Machine

variable (s : State)

@[simp] theorem setCore_pkg (c : Nat) (k : Core) : (setCore s c k).pkg = s.pkg := rfl
@[simp] theorem setCore_boot (c : Nat) (k : Core) : (setCore s c k).boot = s.boot := rfl
@[simp] theorem setCore_fuses (c : Nat) (k : Core) : (setCore s c k).fuses = s.fuses := rfl
@[simp] theorem setCore_nvm (c : Nat) (k : Core) : (setCore s c k).nvm = s.nvm := rfl
@[simp] theorem setCore_mrs (c : Nat) (k : Core) : (setCore s c k).mrs = s.mrs := rfl
@[simp] theorem setCore_keys (c : Nat) (k : Core) : (setCore s c k).keys = s.keys := rfl
@[simp] theorem setCore_jtag (c : Nat) (k : Core) : (setCore s c k).jtag = s.jtag := rfl
@[simp] theorem setCore_time (c : Nat) (k : Core) : (setCore s c k).time = s.time := rfl
@[simp] theorem setCore_cores (c : Nat) (k : Core) : (setCore s c k).cores = tset s.cores c k := rfl
@[simp] theorem setCore_mem (c : Nat) (k : Core) : (setCore s c k).mem = s.mem := rfl
@[simp] theorem setCore_hbm (c : Nat) (k : Core) : (setCore s c k).hbm = s.hbm := rfl
@[simp] theorem setCore_ctxs (c : Nat) (k : Core) : (setCore s c k).ctxs = s.ctxs := rfl
@[simp] theorem setCore_parts (c : Nat) (k : Core) : (setCore s c k).parts = s.parts := rfl
@[simp] theorem setCore_cfg (c : Nat) (k : Core) : (setCore s c k).cfg = s.cfg := rfl
@[simp] theorem setCore_links (c : Nat) (k : Core) : (setCore s c k).links = s.links := rfl
@[simp] theorem setCore_paths (c : Nat) (k : Core) : (setCore s c k).paths = s.paths := rfl
@[simp] theorem setCore_host (c : Nat) (k : Core) : (setCore s c k).host = s.host := rfl
@[simp] theorem setCore_sess (c : Nat) (k : Core) : (setCore s c k).sess = s.sess := rfl
@[simp] theorem setCore_bulk (c : Nat) (k : Core) : (setCore s c k).bulk = s.bulk := rfl
@[simp] theorem setCore_mgmt (c : Nat) (k : Core) : (setCore s c k).mgmt = s.mgmt := rfl
@[simp] theorem setCore_ledger (c : Nat) (k : Core) : (setCore s c k).ledger = s.ledger := rfl
@[simp] theorem setCore_devQueue (c : Nat) (k : Core) : (setCore s c k).devQueue = s.devQueue := rfl
@[simp] theorem setCore_out (c : Nat) (k : Core) : (setCore s c k).out = s.out := rfl
@[simp] theorem setCore_free (c : Nat) (k : Core) : (setCore s c k).free = s.free := rfl
@[simp] theorem setCore_pending (c : Nat) (k : Core) : (setCore s c k).pending = s.pending := rfl

@[simp] theorem setCtx_pkg (c : Nat) (k : Context) : (setCtx s c k).pkg = s.pkg := rfl
@[simp] theorem setCtx_boot (c : Nat) (k : Context) : (setCtx s c k).boot = s.boot := rfl
@[simp] theorem setCtx_fuses (c : Nat) (k : Context) : (setCtx s c k).fuses = s.fuses := rfl
@[simp] theorem setCtx_nvm (c : Nat) (k : Context) : (setCtx s c k).nvm = s.nvm := rfl
@[simp] theorem setCtx_mrs (c : Nat) (k : Context) : (setCtx s c k).mrs = s.mrs := rfl
@[simp] theorem setCtx_keys (c : Nat) (k : Context) : (setCtx s c k).keys = s.keys := rfl
@[simp] theorem setCtx_jtag (c : Nat) (k : Context) : (setCtx s c k).jtag = s.jtag := rfl
@[simp] theorem setCtx_time (c : Nat) (k : Context) : (setCtx s c k).time = s.time := rfl
@[simp] theorem setCtx_cores (c : Nat) (k : Context) : (setCtx s c k).cores = s.cores := rfl
@[simp] theorem setCtx_mem (c : Nat) (k : Context) : (setCtx s c k).mem = s.mem := rfl
@[simp] theorem setCtx_hbm (c : Nat) (k : Context) : (setCtx s c k).hbm = s.hbm := rfl
@[simp] theorem setCtx_ctxs (c : Nat) (k : Context) : (setCtx s c k).ctxs = tset s.ctxs c k := rfl
@[simp] theorem setCtx_parts (c : Nat) (k : Context) : (setCtx s c k).parts = s.parts := rfl
@[simp] theorem setCtx_cfg (c : Nat) (k : Context) : (setCtx s c k).cfg = s.cfg := rfl
@[simp] theorem setCtx_links (c : Nat) (k : Context) : (setCtx s c k).links = s.links := rfl
@[simp] theorem setCtx_paths (c : Nat) (k : Context) : (setCtx s c k).paths = s.paths := rfl
@[simp] theorem setCtx_host (c : Nat) (k : Context) : (setCtx s c k).host = s.host := rfl
@[simp] theorem setCtx_sess (c : Nat) (k : Context) : (setCtx s c k).sess = s.sess := rfl
@[simp] theorem setCtx_bulk (c : Nat) (k : Context) : (setCtx s c k).bulk = s.bulk := rfl
@[simp] theorem setCtx_mgmt (c : Nat) (k : Context) : (setCtx s c k).mgmt = s.mgmt := rfl
@[simp] theorem setCtx_ledger (c : Nat) (k : Context) : (setCtx s c k).ledger = s.ledger := rfl
@[simp] theorem setCtx_devQueue (c : Nat) (k : Context) : (setCtx s c k).devQueue = s.devQueue := rfl
@[simp] theorem setCtx_out (c : Nat) (k : Context) : (setCtx s c k).out = s.out := rfl
@[simp] theorem setCtx_free (c : Nat) (k : Context) : (setCtx s c k).free = s.free := rfl
@[simp] theorem setCtx_pending (c : Nat) (k : Context) : (setCtx s c k).pending = s.pending := rfl

@[simp] theorem setPart_pkg (p : Nat) (k : Partition) : (setPart s p k).pkg = s.pkg := rfl
@[simp] theorem setPart_boot (p : Nat) (k : Partition) : (setPart s p k).boot = s.boot := rfl
@[simp] theorem setPart_fuses (p : Nat) (k : Partition) : (setPart s p k).fuses = s.fuses := rfl
@[simp] theorem setPart_nvm (p : Nat) (k : Partition) : (setPart s p k).nvm = s.nvm := rfl
@[simp] theorem setPart_mrs (p : Nat) (k : Partition) : (setPart s p k).mrs = s.mrs := rfl
@[simp] theorem setPart_keys (p : Nat) (k : Partition) : (setPart s p k).keys = s.keys := rfl
@[simp] theorem setPart_jtag (p : Nat) (k : Partition) : (setPart s p k).jtag = s.jtag := rfl
@[simp] theorem setPart_time (p : Nat) (k : Partition) : (setPart s p k).time = s.time := rfl
@[simp] theorem setPart_cores (p : Nat) (k : Partition) : (setPart s p k).cores = s.cores := rfl
@[simp] theorem setPart_mem (p : Nat) (k : Partition) : (setPart s p k).mem = s.mem := rfl
@[simp] theorem setPart_hbm (p : Nat) (k : Partition) : (setPart s p k).hbm = s.hbm := rfl
@[simp] theorem setPart_ctxs (p : Nat) (k : Partition) : (setPart s p k).ctxs = s.ctxs := rfl
@[simp] theorem setPart_parts (p : Nat) (k : Partition) : (setPart s p k).parts = tset s.parts p k := rfl
@[simp] theorem setPart_cfg (p : Nat) (k : Partition) : (setPart s p k).cfg = s.cfg := rfl
@[simp] theorem setPart_links (p : Nat) (k : Partition) : (setPart s p k).links = s.links := rfl
@[simp] theorem setPart_paths (p : Nat) (k : Partition) : (setPart s p k).paths = s.paths := rfl
@[simp] theorem setPart_host (p : Nat) (k : Partition) : (setPart s p k).host = s.host := rfl
@[simp] theorem setPart_sess (p : Nat) (k : Partition) : (setPart s p k).sess = s.sess := rfl
@[simp] theorem setPart_bulk (p : Nat) (k : Partition) : (setPart s p k).bulk = s.bulk := rfl
@[simp] theorem setPart_mgmt (p : Nat) (k : Partition) : (setPart s p k).mgmt = s.mgmt := rfl
@[simp] theorem setPart_ledger (p : Nat) (k : Partition) : (setPart s p k).ledger = s.ledger := rfl
@[simp] theorem setPart_devQueue (p : Nat) (k : Partition) : (setPart s p k).devQueue = s.devQueue := rfl
@[simp] theorem setPart_out (p : Nat) (k : Partition) : (setPart s p k).out = s.out := rfl
@[simp] theorem setPart_free (p : Nat) (k : Partition) : (setPart s p k).free = s.free := rfl
@[simp] theorem setPart_pending (p : Nat) (k : Partition) : (setPart s p k).pending = s.pending := rfl

@[simp] theorem setLink_pkg (l : Nat) (k : Link) : (setLink s l k).pkg = s.pkg := rfl
@[simp] theorem setLink_boot (l : Nat) (k : Link) : (setLink s l k).boot = s.boot := rfl
@[simp] theorem setLink_fuses (l : Nat) (k : Link) : (setLink s l k).fuses = s.fuses := rfl
@[simp] theorem setLink_nvm (l : Nat) (k : Link) : (setLink s l k).nvm = s.nvm := rfl
@[simp] theorem setLink_mrs (l : Nat) (k : Link) : (setLink s l k).mrs = s.mrs := rfl
@[simp] theorem setLink_keys (l : Nat) (k : Link) : (setLink s l k).keys = s.keys := rfl
@[simp] theorem setLink_jtag (l : Nat) (k : Link) : (setLink s l k).jtag = s.jtag := rfl
@[simp] theorem setLink_time (l : Nat) (k : Link) : (setLink s l k).time = s.time := rfl
@[simp] theorem setLink_cores (l : Nat) (k : Link) : (setLink s l k).cores = s.cores := rfl
@[simp] theorem setLink_mem (l : Nat) (k : Link) : (setLink s l k).mem = s.mem := rfl
@[simp] theorem setLink_hbm (l : Nat) (k : Link) : (setLink s l k).hbm = s.hbm := rfl
@[simp] theorem setLink_ctxs (l : Nat) (k : Link) : (setLink s l k).ctxs = s.ctxs := rfl
@[simp] theorem setLink_parts (l : Nat) (k : Link) : (setLink s l k).parts = s.parts := rfl
@[simp] theorem setLink_cfg (l : Nat) (k : Link) : (setLink s l k).cfg = s.cfg := rfl
@[simp] theorem setLink_links (l : Nat) (k : Link) : (setLink s l k).links = tset s.links l k := rfl
@[simp] theorem setLink_paths (l : Nat) (k : Link) : (setLink s l k).paths = s.paths := rfl
@[simp] theorem setLink_host (l : Nat) (k : Link) : (setLink s l k).host = s.host := rfl
@[simp] theorem setLink_sess (l : Nat) (k : Link) : (setLink s l k).sess = s.sess := rfl
@[simp] theorem setLink_bulk (l : Nat) (k : Link) : (setLink s l k).bulk = s.bulk := rfl
@[simp] theorem setLink_mgmt (l : Nat) (k : Link) : (setLink s l k).mgmt = s.mgmt := rfl
@[simp] theorem setLink_ledger (l : Nat) (k : Link) : (setLink s l k).ledger = s.ledger := rfl
@[simp] theorem setLink_devQueue (l : Nat) (k : Link) : (setLink s l k).devQueue = s.devQueue := rfl
@[simp] theorem setLink_out (l : Nat) (k : Link) : (setLink s l k).out = s.out := rfl
@[simp] theorem setLink_free (l : Nat) (k : Link) : (setLink s l k).free = s.free := rfl
@[simp] theorem setLink_pending (l : Nat) (k : Link) : (setLink s l k).pending = s.pending := rfl

@[simp] theorem setSess_pkg (n : Nat) (k : Session) : (setSess s n k).pkg = s.pkg := rfl
@[simp] theorem setSess_boot (n : Nat) (k : Session) : (setSess s n k).boot = s.boot := rfl
@[simp] theorem setSess_fuses (n : Nat) (k : Session) : (setSess s n k).fuses = s.fuses := rfl
@[simp] theorem setSess_nvm (n : Nat) (k : Session) : (setSess s n k).nvm = s.nvm := rfl
@[simp] theorem setSess_mrs (n : Nat) (k : Session) : (setSess s n k).mrs = s.mrs := rfl
@[simp] theorem setSess_keys (n : Nat) (k : Session) : (setSess s n k).keys = s.keys := rfl
@[simp] theorem setSess_jtag (n : Nat) (k : Session) : (setSess s n k).jtag = s.jtag := rfl
@[simp] theorem setSess_time (n : Nat) (k : Session) : (setSess s n k).time = s.time := rfl
@[simp] theorem setSess_cores (n : Nat) (k : Session) : (setSess s n k).cores = s.cores := rfl
@[simp] theorem setSess_mem (n : Nat) (k : Session) : (setSess s n k).mem = s.mem := rfl
@[simp] theorem setSess_hbm (n : Nat) (k : Session) : (setSess s n k).hbm = s.hbm := rfl
@[simp] theorem setSess_ctxs (n : Nat) (k : Session) : (setSess s n k).ctxs = s.ctxs := rfl
@[simp] theorem setSess_parts (n : Nat) (k : Session) : (setSess s n k).parts = s.parts := rfl
@[simp] theorem setSess_cfg (n : Nat) (k : Session) : (setSess s n k).cfg = s.cfg := rfl
@[simp] theorem setSess_links (n : Nat) (k : Session) : (setSess s n k).links = s.links := rfl
@[simp] theorem setSess_paths (n : Nat) (k : Session) : (setSess s n k).paths = s.paths := rfl
@[simp] theorem setSess_host (n : Nat) (k : Session) : (setSess s n k).host = s.host := rfl
@[simp] theorem setSess_sess (n : Nat) (k : Session) : (setSess s n k).sess = tset s.sess n k := rfl
@[simp] theorem setSess_bulk (n : Nat) (k : Session) : (setSess s n k).bulk = s.bulk := rfl
@[simp] theorem setSess_mgmt (n : Nat) (k : Session) : (setSess s n k).mgmt = s.mgmt := rfl
@[simp] theorem setSess_ledger (n : Nat) (k : Session) : (setSess s n k).ledger = s.ledger := rfl
@[simp] theorem setSess_devQueue (n : Nat) (k : Session) : (setSess s n k).devQueue = s.devQueue := rfl
@[simp] theorem setSess_out (n : Nat) (k : Session) : (setSess s n k).out = s.out := rfl
@[simp] theorem setSess_free (n : Nat) (k : Session) : (setSess s n k).free = s.free := rfl
@[simp] theorem setSess_pending (n : Nat) (k : Session) : (setSess s n k).pending = s.pending := rfl

@[simp] theorem setPath_pkg (k : Nat) (r : PathRec) : (setPath s k r).pkg = s.pkg := rfl
@[simp] theorem setPath_boot (k : Nat) (r : PathRec) : (setPath s k r).boot = s.boot := rfl
@[simp] theorem setPath_fuses (k : Nat) (r : PathRec) : (setPath s k r).fuses = s.fuses := rfl
@[simp] theorem setPath_nvm (k : Nat) (r : PathRec) : (setPath s k r).nvm = s.nvm := rfl
@[simp] theorem setPath_mrs (k : Nat) (r : PathRec) : (setPath s k r).mrs = s.mrs := rfl
@[simp] theorem setPath_keys (k : Nat) (r : PathRec) : (setPath s k r).keys = s.keys := rfl
@[simp] theorem setPath_jtag (k : Nat) (r : PathRec) : (setPath s k r).jtag = s.jtag := rfl
@[simp] theorem setPath_time (k : Nat) (r : PathRec) : (setPath s k r).time = s.time := rfl
@[simp] theorem setPath_cores (k : Nat) (r : PathRec) : (setPath s k r).cores = s.cores := rfl
@[simp] theorem setPath_mem (k : Nat) (r : PathRec) : (setPath s k r).mem = s.mem := rfl
@[simp] theorem setPath_hbm (k : Nat) (r : PathRec) : (setPath s k r).hbm = s.hbm := rfl
@[simp] theorem setPath_ctxs (k : Nat) (r : PathRec) : (setPath s k r).ctxs = s.ctxs := rfl
@[simp] theorem setPath_parts (k : Nat) (r : PathRec) : (setPath s k r).parts = s.parts := rfl
@[simp] theorem setPath_cfg (k : Nat) (r : PathRec) : (setPath s k r).cfg = s.cfg := rfl
@[simp] theorem setPath_links (k : Nat) (r : PathRec) : (setPath s k r).links = s.links := rfl
@[simp] theorem setPath_paths (k : Nat) (r : PathRec) : (setPath s k r).paths = { s.paths with recs := tset s.paths.recs k r } := rfl
@[simp] theorem setPath_host (k : Nat) (r : PathRec) : (setPath s k r).host = s.host := rfl
@[simp] theorem setPath_sess (k : Nat) (r : PathRec) : (setPath s k r).sess = s.sess := rfl
@[simp] theorem setPath_bulk (k : Nat) (r : PathRec) : (setPath s k r).bulk = s.bulk := rfl
@[simp] theorem setPath_mgmt (k : Nat) (r : PathRec) : (setPath s k r).mgmt = s.mgmt := rfl
@[simp] theorem setPath_ledger (k : Nat) (r : PathRec) : (setPath s k r).ledger = s.ledger := rfl
@[simp] theorem setPath_devQueue (k : Nat) (r : PathRec) : (setPath s k r).devQueue = s.devQueue := rfl
@[simp] theorem setPath_out (k : Nat) (r : PathRec) : (setPath s k r).out = s.out := rfl
@[simp] theorem setPath_free (k : Nat) (r : PathRec) : (setPath s k r).free = s.free := rfl
@[simp] theorem setPath_pending (k : Nat) (r : PathRec) : (setPath s k r).pending = s.pending := rfl

@[simp] theorem setPkg_pkg (p : Pkg) : (setPkg s p).pkg = p := rfl
@[simp] theorem setPkg_boot (p : Pkg) : (setPkg s p).boot = s.boot := rfl
@[simp] theorem setPkg_fuses (p : Pkg) : (setPkg s p).fuses = s.fuses := rfl
@[simp] theorem setPkg_nvm (p : Pkg) : (setPkg s p).nvm = s.nvm := rfl
@[simp] theorem setPkg_mrs (p : Pkg) : (setPkg s p).mrs = s.mrs := rfl
@[simp] theorem setPkg_keys (p : Pkg) : (setPkg s p).keys = s.keys := rfl
@[simp] theorem setPkg_jtag (p : Pkg) : (setPkg s p).jtag = s.jtag := rfl
@[simp] theorem setPkg_time (p : Pkg) : (setPkg s p).time = s.time := rfl
@[simp] theorem setPkg_cores (p : Pkg) : (setPkg s p).cores = s.cores := rfl
@[simp] theorem setPkg_mem (p : Pkg) : (setPkg s p).mem = s.mem := rfl
@[simp] theorem setPkg_hbm (p : Pkg) : (setPkg s p).hbm = s.hbm := rfl
@[simp] theorem setPkg_ctxs (p : Pkg) : (setPkg s p).ctxs = s.ctxs := rfl
@[simp] theorem setPkg_parts (p : Pkg) : (setPkg s p).parts = s.parts := rfl
@[simp] theorem setPkg_cfg (p : Pkg) : (setPkg s p).cfg = s.cfg := rfl
@[simp] theorem setPkg_links (p : Pkg) : (setPkg s p).links = s.links := rfl
@[simp] theorem setPkg_paths (p : Pkg) : (setPkg s p).paths = s.paths := rfl
@[simp] theorem setPkg_host (p : Pkg) : (setPkg s p).host = s.host := rfl
@[simp] theorem setPkg_sess (p : Pkg) : (setPkg s p).sess = s.sess := rfl
@[simp] theorem setPkg_bulk (p : Pkg) : (setPkg s p).bulk = s.bulk := rfl
@[simp] theorem setPkg_mgmt (p : Pkg) : (setPkg s p).mgmt = s.mgmt := rfl
@[simp] theorem setPkg_ledger (p : Pkg) : (setPkg s p).ledger = s.ledger := rfl
@[simp] theorem setPkg_devQueue (p : Pkg) : (setPkg s p).devQueue = s.devQueue := rfl
@[simp] theorem setPkg_out (p : Pkg) : (setPkg s p).out = s.out := rfl
@[simp] theorem setPkg_free (p : Pkg) : (setPkg s p).free = s.free := rfl
@[simp] theorem setPkg_pending (p : Pkg) : (setPkg s p).pending = s.pending := rfl

@[simp] theorem setBoot_pkg (b : Boot) : (setBoot s b).pkg = s.pkg := rfl
@[simp] theorem setBoot_boot (b : Boot) : (setBoot s b).boot = b := rfl
@[simp] theorem setBoot_fuses (b : Boot) : (setBoot s b).fuses = s.fuses := rfl
@[simp] theorem setBoot_nvm (b : Boot) : (setBoot s b).nvm = s.nvm := rfl
@[simp] theorem setBoot_mrs (b : Boot) : (setBoot s b).mrs = s.mrs := rfl
@[simp] theorem setBoot_keys (b : Boot) : (setBoot s b).keys = s.keys := rfl
@[simp] theorem setBoot_jtag (b : Boot) : (setBoot s b).jtag = s.jtag := rfl
@[simp] theorem setBoot_time (b : Boot) : (setBoot s b).time = s.time := rfl
@[simp] theorem setBoot_cores (b : Boot) : (setBoot s b).cores = s.cores := rfl
@[simp] theorem setBoot_mem (b : Boot) : (setBoot s b).mem = s.mem := rfl
@[simp] theorem setBoot_hbm (b : Boot) : (setBoot s b).hbm = s.hbm := rfl
@[simp] theorem setBoot_ctxs (b : Boot) : (setBoot s b).ctxs = s.ctxs := rfl
@[simp] theorem setBoot_parts (b : Boot) : (setBoot s b).parts = s.parts := rfl
@[simp] theorem setBoot_cfg (b : Boot) : (setBoot s b).cfg = s.cfg := rfl
@[simp] theorem setBoot_links (b : Boot) : (setBoot s b).links = s.links := rfl
@[simp] theorem setBoot_paths (b : Boot) : (setBoot s b).paths = s.paths := rfl
@[simp] theorem setBoot_host (b : Boot) : (setBoot s b).host = s.host := rfl
@[simp] theorem setBoot_sess (b : Boot) : (setBoot s b).sess = s.sess := rfl
@[simp] theorem setBoot_bulk (b : Boot) : (setBoot s b).bulk = s.bulk := rfl
@[simp] theorem setBoot_mgmt (b : Boot) : (setBoot s b).mgmt = s.mgmt := rfl
@[simp] theorem setBoot_ledger (b : Boot) : (setBoot s b).ledger = s.ledger := rfl
@[simp] theorem setBoot_devQueue (b : Boot) : (setBoot s b).devQueue = s.devQueue := rfl
@[simp] theorem setBoot_out (b : Boot) : (setBoot s b).out = s.out := rfl
@[simp] theorem setBoot_free (b : Boot) : (setBoot s b).free = s.free := rfl
@[simp] theorem setBoot_pending (b : Boot) : (setBoot s b).pending = s.pending := rfl

@[simp] theorem setKey_pkg (n : Nat) (k : Bytes) : (setKey s n k).pkg = s.pkg := rfl
@[simp] theorem setKey_boot (n : Nat) (k : Bytes) : (setKey s n k).boot = s.boot := rfl
@[simp] theorem setKey_fuses (n : Nat) (k : Bytes) : (setKey s n k).fuses = s.fuses := rfl
@[simp] theorem setKey_nvm (n : Nat) (k : Bytes) : (setKey s n k).nvm = s.nvm := rfl
@[simp] theorem setKey_mrs (n : Nat) (k : Bytes) : (setKey s n k).mrs = s.mrs := rfl
@[simp] theorem setKey_keys (n : Nat) (k : Bytes) : (setKey s n k).keys = tset s.keys n k := rfl
@[simp] theorem setKey_jtag (n : Nat) (k : Bytes) : (setKey s n k).jtag = s.jtag := rfl
@[simp] theorem setKey_time (n : Nat) (k : Bytes) : (setKey s n k).time = s.time := rfl
@[simp] theorem setKey_cores (n : Nat) (k : Bytes) : (setKey s n k).cores = s.cores := rfl
@[simp] theorem setKey_mem (n : Nat) (k : Bytes) : (setKey s n k).mem = s.mem := rfl
@[simp] theorem setKey_hbm (n : Nat) (k : Bytes) : (setKey s n k).hbm = s.hbm := rfl
@[simp] theorem setKey_ctxs (n : Nat) (k : Bytes) : (setKey s n k).ctxs = s.ctxs := rfl
@[simp] theorem setKey_parts (n : Nat) (k : Bytes) : (setKey s n k).parts = s.parts := rfl
@[simp] theorem setKey_cfg (n : Nat) (k : Bytes) : (setKey s n k).cfg = s.cfg := rfl
@[simp] theorem setKey_links (n : Nat) (k : Bytes) : (setKey s n k).links = s.links := rfl
@[simp] theorem setKey_paths (n : Nat) (k : Bytes) : (setKey s n k).paths = s.paths := rfl
@[simp] theorem setKey_host (n : Nat) (k : Bytes) : (setKey s n k).host = s.host := rfl
@[simp] theorem setKey_sess (n : Nat) (k : Bytes) : (setKey s n k).sess = s.sess := rfl
@[simp] theorem setKey_bulk (n : Nat) (k : Bytes) : (setKey s n k).bulk = s.bulk := rfl
@[simp] theorem setKey_mgmt (n : Nat) (k : Bytes) : (setKey s n k).mgmt = s.mgmt := rfl
@[simp] theorem setKey_ledger (n : Nat) (k : Bytes) : (setKey s n k).ledger = s.ledger := rfl
@[simp] theorem setKey_devQueue (n : Nat) (k : Bytes) : (setKey s n k).devQueue = s.devQueue := rfl
@[simp] theorem setKey_out (n : Nat) (k : Bytes) : (setKey s n k).out = s.out := rfl
@[simp] theorem setKey_free (n : Nat) (k : Bytes) : (setKey s n k).free = s.free := rfl
@[simp] theorem setKey_pending (n : Nat) (k : Bytes) : (setKey s n k).pending = s.pending := rfl

@[simp] theorem zeroKeys_pkg (p : Nat → Bool) : (zeroKeys p s).pkg = s.pkg := rfl
@[simp] theorem zeroKeys_boot (p : Nat → Bool) : (zeroKeys p s).boot = s.boot := rfl
@[simp] theorem zeroKeys_fuses (p : Nat → Bool) : (zeroKeys p s).fuses = s.fuses := rfl
@[simp] theorem zeroKeys_nvm (p : Nat → Bool) : (zeroKeys p s).nvm = s.nvm := rfl
@[simp] theorem zeroKeys_mrs (p : Nat → Bool) : (zeroKeys p s).mrs = s.mrs := rfl
@[simp] theorem zeroKeys_keys (p : Nat → Bool) : (zeroKeys p s).keys = tdrop p s.keys := rfl
@[simp] theorem zeroKeys_jtag (p : Nat → Bool) : (zeroKeys p s).jtag = s.jtag := rfl
@[simp] theorem zeroKeys_time (p : Nat → Bool) : (zeroKeys p s).time = s.time := rfl
@[simp] theorem zeroKeys_cores (p : Nat → Bool) : (zeroKeys p s).cores = s.cores := rfl
@[simp] theorem zeroKeys_mem (p : Nat → Bool) : (zeroKeys p s).mem = s.mem := rfl
@[simp] theorem zeroKeys_hbm (p : Nat → Bool) : (zeroKeys p s).hbm = s.hbm := rfl
@[simp] theorem zeroKeys_ctxs (p : Nat → Bool) : (zeroKeys p s).ctxs = s.ctxs := rfl
@[simp] theorem zeroKeys_parts (p : Nat → Bool) : (zeroKeys p s).parts = s.parts := rfl
@[simp] theorem zeroKeys_cfg (p : Nat → Bool) : (zeroKeys p s).cfg = s.cfg := rfl
@[simp] theorem zeroKeys_links (p : Nat → Bool) : (zeroKeys p s).links = s.links := rfl
@[simp] theorem zeroKeys_paths (p : Nat → Bool) : (zeroKeys p s).paths = s.paths := rfl
@[simp] theorem zeroKeys_host (p : Nat → Bool) : (zeroKeys p s).host = s.host := rfl
@[simp] theorem zeroKeys_sess (p : Nat → Bool) : (zeroKeys p s).sess = s.sess := rfl
@[simp] theorem zeroKeys_bulk (p : Nat → Bool) : (zeroKeys p s).bulk = s.bulk := rfl
@[simp] theorem zeroKeys_mgmt (p : Nat → Bool) : (zeroKeys p s).mgmt = s.mgmt := rfl
@[simp] theorem zeroKeys_ledger (p : Nat → Bool) : (zeroKeys p s).ledger = s.ledger := rfl
@[simp] theorem zeroKeys_devQueue (p : Nat → Bool) : (zeroKeys p s).devQueue = s.devQueue := rfl
@[simp] theorem zeroKeys_out (p : Nat → Bool) : (zeroKeys p s).out = s.out := rfl
@[simp] theorem zeroKeys_free (p : Nat → Bool) : (zeroKeys p s).free = s.free := rfl
@[simp] theorem zeroKeys_pending (p : Nat → Bool) : (zeroKeys p s).pending = s.pending := rfl

@[simp] theorem zeroAllKeys_pkg : (zeroAllKeys s).pkg = s.pkg := rfl
@[simp] theorem zeroAllKeys_boot : (zeroAllKeys s).boot = s.boot := rfl
@[simp] theorem zeroAllKeys_fuses : (zeroAllKeys s).fuses = s.fuses := rfl
@[simp] theorem zeroAllKeys_nvm : (zeroAllKeys s).nvm = s.nvm := rfl
@[simp] theorem zeroAllKeys_mrs : (zeroAllKeys s).mrs = s.mrs := rfl
@[simp] theorem zeroAllKeys_keys : (zeroAllKeys s).keys = [] := rfl
@[simp] theorem zeroAllKeys_jtag : (zeroAllKeys s).jtag = s.jtag := rfl
@[simp] theorem zeroAllKeys_time : (zeroAllKeys s).time = s.time := rfl
@[simp] theorem zeroAllKeys_cores : (zeroAllKeys s).cores = s.cores := rfl
@[simp] theorem zeroAllKeys_mem : (zeroAllKeys s).mem = s.mem := rfl
@[simp] theorem zeroAllKeys_hbm : (zeroAllKeys s).hbm = s.hbm := rfl
@[simp] theorem zeroAllKeys_ctxs : (zeroAllKeys s).ctxs = s.ctxs := rfl
@[simp] theorem zeroAllKeys_parts : (zeroAllKeys s).parts = s.parts := rfl
@[simp] theorem zeroAllKeys_cfg : (zeroAllKeys s).cfg = s.cfg := rfl
@[simp] theorem zeroAllKeys_links : (zeroAllKeys s).links = s.links := rfl
@[simp] theorem zeroAllKeys_paths : (zeroAllKeys s).paths = s.paths := rfl
@[simp] theorem zeroAllKeys_host : (zeroAllKeys s).host = s.host := rfl
@[simp] theorem zeroAllKeys_sess : (zeroAllKeys s).sess = s.sess := rfl
@[simp] theorem zeroAllKeys_bulk : (zeroAllKeys s).bulk = s.bulk := rfl
@[simp] theorem zeroAllKeys_mgmt : (zeroAllKeys s).mgmt = s.mgmt := rfl
@[simp] theorem zeroAllKeys_ledger : (zeroAllKeys s).ledger = s.ledger := rfl
@[simp] theorem zeroAllKeys_devQueue : (zeroAllKeys s).devQueue = s.devQueue := rfl
@[simp] theorem zeroAllKeys_out : (zeroAllKeys s).out = s.out := rfl
@[simp] theorem zeroAllKeys_free : (zeroAllKeys s).free = s.free := rfl
@[simp] theorem zeroAllKeys_pending : (zeroAllKeys s).pending = s.pending := rfl

@[simp] theorem emit_pkg (e : Emit) : (emit s e).pkg = s.pkg := rfl
@[simp] theorem emit_boot (e : Emit) : (emit s e).boot = s.boot := rfl
@[simp] theorem emit_fuses (e : Emit) : (emit s e).fuses = s.fuses := rfl
@[simp] theorem emit_nvm (e : Emit) : (emit s e).nvm = s.nvm := rfl
@[simp] theorem emit_mrs (e : Emit) : (emit s e).mrs = s.mrs := rfl
@[simp] theorem emit_keys (e : Emit) : (emit s e).keys = s.keys := rfl
@[simp] theorem emit_jtag (e : Emit) : (emit s e).jtag = s.jtag := rfl
@[simp] theorem emit_time (e : Emit) : (emit s e).time = s.time := rfl
@[simp] theorem emit_cores (e : Emit) : (emit s e).cores = s.cores := rfl
@[simp] theorem emit_mem (e : Emit) : (emit s e).mem = s.mem := rfl
@[simp] theorem emit_hbm (e : Emit) : (emit s e).hbm = s.hbm := rfl
@[simp] theorem emit_ctxs (e : Emit) : (emit s e).ctxs = s.ctxs := rfl
@[simp] theorem emit_parts (e : Emit) : (emit s e).parts = s.parts := rfl
@[simp] theorem emit_cfg (e : Emit) : (emit s e).cfg = s.cfg := rfl
@[simp] theorem emit_links (e : Emit) : (emit s e).links = s.links := rfl
@[simp] theorem emit_paths (e : Emit) : (emit s e).paths = s.paths := rfl
@[simp] theorem emit_host (e : Emit) : (emit s e).host = s.host := rfl
@[simp] theorem emit_sess (e : Emit) : (emit s e).sess = s.sess := rfl
@[simp] theorem emit_bulk (e : Emit) : (emit s e).bulk = s.bulk := rfl
@[simp] theorem emit_mgmt (e : Emit) : (emit s e).mgmt = s.mgmt := rfl
@[simp] theorem emit_ledger (e : Emit) : (emit s e).ledger = s.ledger := rfl
@[simp] theorem emit_devQueue (e : Emit) : (emit s e).devQueue = s.devQueue := rfl
@[simp] theorem emit_out (e : Emit) : (emit s e).out = s.out ++ [e] := rfl
@[simp] theorem emit_free (e : Emit) : (emit s e).free = s.free := rfl
@[simp] theorem emit_pending (e : Emit) : (emit s e).pending = s.pending := rfl

@[simp] theorem ledgerCommit_pkg : (ledgerCommit s).pkg = s.pkg := rfl
@[simp] theorem ledgerCommit_boot : (ledgerCommit s).boot = s.boot := rfl
@[simp] theorem ledgerCommit_fuses : (ledgerCommit s).fuses = s.fuses := rfl
@[simp] theorem ledgerCommit_nvm : (ledgerCommit s).nvm = { s.nvm with ledger := s.ledger } := rfl
@[simp] theorem ledgerCommit_mrs : (ledgerCommit s).mrs = s.mrs := rfl
@[simp] theorem ledgerCommit_keys : (ledgerCommit s).keys = s.keys := rfl
@[simp] theorem ledgerCommit_jtag : (ledgerCommit s).jtag = s.jtag := rfl
@[simp] theorem ledgerCommit_time : (ledgerCommit s).time = s.time := rfl
@[simp] theorem ledgerCommit_cores : (ledgerCommit s).cores = s.cores := rfl
@[simp] theorem ledgerCommit_mem : (ledgerCommit s).mem = s.mem := rfl
@[simp] theorem ledgerCommit_hbm : (ledgerCommit s).hbm = s.hbm := rfl
@[simp] theorem ledgerCommit_ctxs : (ledgerCommit s).ctxs = s.ctxs := rfl
@[simp] theorem ledgerCommit_parts : (ledgerCommit s).parts = s.parts := rfl
@[simp] theorem ledgerCommit_cfg : (ledgerCommit s).cfg = s.cfg := rfl
@[simp] theorem ledgerCommit_links : (ledgerCommit s).links = s.links := rfl
@[simp] theorem ledgerCommit_paths : (ledgerCommit s).paths = s.paths := rfl
@[simp] theorem ledgerCommit_host : (ledgerCommit s).host = s.host := rfl
@[simp] theorem ledgerCommit_sess : (ledgerCommit s).sess = s.sess := rfl
@[simp] theorem ledgerCommit_bulk : (ledgerCommit s).bulk = s.bulk := rfl
@[simp] theorem ledgerCommit_mgmt : (ledgerCommit s).mgmt = s.mgmt := rfl
@[simp] theorem ledgerCommit_ledger : (ledgerCommit s).ledger = s.ledger := rfl
@[simp] theorem ledgerCommit_devQueue : (ledgerCommit s).devQueue = s.devQueue := rfl
@[simp] theorem ledgerCommit_out : (ledgerCommit s).out = s.out := rfl
@[simp] theorem ledgerCommit_free : (ledgerCommit s).free = s.free := rfl
@[simp] theorem ledgerCommit_pending : (ledgerCommit s).pending = s.pending := rfl

@[simp] theorem coreOf_setCore_self (c : Nat) (v : _) : coreOf (setCore s c v) c = v := tget_tset_self _ _ _ _
theorem coreOf_setCore_ne (c j : Nat) (v : _) (h : j ≠ c) : coreOf (setCore s c v) j = coreOf s j := tget_tset_ne _ _ _ _ _ h
@[simp] theorem coreOf_setCtx (c : Nat) (k : Context) (i : Nat) : coreOf (setCtx s c k) i = coreOf s i := rfl
@[simp] theorem coreOf_setPart (p : Nat) (k : Partition) (i : Nat) : coreOf (setPart s p k) i = coreOf s i := rfl
@[simp] theorem coreOf_setLink (l : Nat) (k : Link) (i : Nat) : coreOf (setLink s l k) i = coreOf s i := rfl
@[simp] theorem coreOf_setSess (n : Nat) (k : Session) (i : Nat) : coreOf (setSess s n k) i = coreOf s i := rfl
@[simp] theorem coreOf_setPath (k : Nat) (r : PathRec) (i : Nat) : coreOf (setPath s k r) i = coreOf s i := rfl
@[simp] theorem coreOf_setPkg (p : Pkg) (i : Nat) : coreOf (setPkg s p) i = coreOf s i := rfl
@[simp] theorem coreOf_setBoot (b : Boot) (i : Nat) : coreOf (setBoot s b) i = coreOf s i := rfl
@[simp] theorem coreOf_setKey (n : Nat) (k : Bytes) (i : Nat) : coreOf (setKey s n k) i = coreOf s i := rfl
@[simp] theorem coreOf_zeroKeys (p : Nat → Bool) (i : Nat) : coreOf (zeroKeys p s) i = coreOf s i := rfl
@[simp] theorem coreOf_zeroAllKeys (i : Nat) : coreOf (zeroAllKeys s) i = coreOf s i := rfl
@[simp] theorem coreOf_emit (e : Emit) (i : Nat) : coreOf (emit s e) i = coreOf s i := rfl
@[simp] theorem coreOf_ledgerCommit (i : Nat) : coreOf (ledgerCommit s) i = coreOf s i := rfl

@[simp] theorem ctxOf_setCore (c : Nat) (k : Core) (i : Nat) : ctxOf (setCore s c k) i = ctxOf s i := rfl
@[simp] theorem ctxOf_setCtx_self (c : Nat) (v : _) : ctxOf (setCtx s c v) c = v := tget_tset_self _ _ _ _
theorem ctxOf_setCtx_ne (c j : Nat) (v : _) (h : j ≠ c) : ctxOf (setCtx s c v) j = ctxOf s j := tget_tset_ne _ _ _ _ _ h
@[simp] theorem ctxOf_setPart (p : Nat) (k : Partition) (i : Nat) : ctxOf (setPart s p k) i = ctxOf s i := rfl
@[simp] theorem ctxOf_setLink (l : Nat) (k : Link) (i : Nat) : ctxOf (setLink s l k) i = ctxOf s i := rfl
@[simp] theorem ctxOf_setSess (n : Nat) (k : Session) (i : Nat) : ctxOf (setSess s n k) i = ctxOf s i := rfl
@[simp] theorem ctxOf_setPath (k : Nat) (r : PathRec) (i : Nat) : ctxOf (setPath s k r) i = ctxOf s i := rfl
@[simp] theorem ctxOf_setPkg (p : Pkg) (i : Nat) : ctxOf (setPkg s p) i = ctxOf s i := rfl
@[simp] theorem ctxOf_setBoot (b : Boot) (i : Nat) : ctxOf (setBoot s b) i = ctxOf s i := rfl
@[simp] theorem ctxOf_setKey (n : Nat) (k : Bytes) (i : Nat) : ctxOf (setKey s n k) i = ctxOf s i := rfl
@[simp] theorem ctxOf_zeroKeys (p : Nat → Bool) (i : Nat) : ctxOf (zeroKeys p s) i = ctxOf s i := rfl
@[simp] theorem ctxOf_zeroAllKeys (i : Nat) : ctxOf (zeroAllKeys s) i = ctxOf s i := rfl
@[simp] theorem ctxOf_emit (e : Emit) (i : Nat) : ctxOf (emit s e) i = ctxOf s i := rfl
@[simp] theorem ctxOf_ledgerCommit (i : Nat) : ctxOf (ledgerCommit s) i = ctxOf s i := rfl

@[simp] theorem partOf_setCore (c : Nat) (k : Core) (i : Nat) : partOf (setCore s c k) i = partOf s i := rfl
@[simp] theorem partOf_setCtx (c : Nat) (k : Context) (i : Nat) : partOf (setCtx s c k) i = partOf s i := rfl
@[simp] theorem partOf_setPart_self (p : Nat) (v : _) : partOf (setPart s p v) p = v := tget_tset_self _ _ _ _
theorem partOf_setPart_ne (p j : Nat) (v : _) (h : j ≠ p) : partOf (setPart s p v) j = partOf s j := tget_tset_ne _ _ _ _ _ h
@[simp] theorem partOf_setLink (l : Nat) (k : Link) (i : Nat) : partOf (setLink s l k) i = partOf s i := rfl
@[simp] theorem partOf_setSess (n : Nat) (k : Session) (i : Nat) : partOf (setSess s n k) i = partOf s i := rfl
@[simp] theorem partOf_setPath (k : Nat) (r : PathRec) (i : Nat) : partOf (setPath s k r) i = partOf s i := rfl
@[simp] theorem partOf_setPkg (p : Pkg) (i : Nat) : partOf (setPkg s p) i = partOf s i := rfl
@[simp] theorem partOf_setBoot (b : Boot) (i : Nat) : partOf (setBoot s b) i = partOf s i := rfl
@[simp] theorem partOf_setKey (n : Nat) (k : Bytes) (i : Nat) : partOf (setKey s n k) i = partOf s i := rfl
@[simp] theorem partOf_zeroKeys (p : Nat → Bool) (i : Nat) : partOf (zeroKeys p s) i = partOf s i := rfl
@[simp] theorem partOf_zeroAllKeys (i : Nat) : partOf (zeroAllKeys s) i = partOf s i := rfl
@[simp] theorem partOf_emit (e : Emit) (i : Nat) : partOf (emit s e) i = partOf s i := rfl
@[simp] theorem partOf_ledgerCommit (i : Nat) : partOf (ledgerCommit s) i = partOf s i := rfl

@[simp] theorem linkOf_setCore (c : Nat) (k : Core) (i : Nat) : linkOf (setCore s c k) i = linkOf s i := rfl
@[simp] theorem linkOf_setCtx (c : Nat) (k : Context) (i : Nat) : linkOf (setCtx s c k) i = linkOf s i := rfl
@[simp] theorem linkOf_setPart (p : Nat) (k : Partition) (i : Nat) : linkOf (setPart s p k) i = linkOf s i := rfl
@[simp] theorem linkOf_setLink_self (l : Nat) (v : _) : linkOf (setLink s l v) l = v := tget_tset_self _ _ _ _
theorem linkOf_setLink_ne (l j : Nat) (v : _) (h : j ≠ l) : linkOf (setLink s l v) j = linkOf s j := tget_tset_ne _ _ _ _ _ h
@[simp] theorem linkOf_setSess (n : Nat) (k : Session) (i : Nat) : linkOf (setSess s n k) i = linkOf s i := rfl
@[simp] theorem linkOf_setPath (k : Nat) (r : PathRec) (i : Nat) : linkOf (setPath s k r) i = linkOf s i := rfl
@[simp] theorem linkOf_setPkg (p : Pkg) (i : Nat) : linkOf (setPkg s p) i = linkOf s i := rfl
@[simp] theorem linkOf_setBoot (b : Boot) (i : Nat) : linkOf (setBoot s b) i = linkOf s i := rfl
@[simp] theorem linkOf_setKey (n : Nat) (k : Bytes) (i : Nat) : linkOf (setKey s n k) i = linkOf s i := rfl
@[simp] theorem linkOf_zeroKeys (p : Nat → Bool) (i : Nat) : linkOf (zeroKeys p s) i = linkOf s i := rfl
@[simp] theorem linkOf_zeroAllKeys (i : Nat) : linkOf (zeroAllKeys s) i = linkOf s i := rfl
@[simp] theorem linkOf_emit (e : Emit) (i : Nat) : linkOf (emit s e) i = linkOf s i := rfl
@[simp] theorem linkOf_ledgerCommit (i : Nat) : linkOf (ledgerCommit s) i = linkOf s i := rfl

@[simp] theorem sessOf_setCore (c : Nat) (k : Core) (i : Nat) : sessOf (setCore s c k) i = sessOf s i := rfl
@[simp] theorem sessOf_setCtx (c : Nat) (k : Context) (i : Nat) : sessOf (setCtx s c k) i = sessOf s i := rfl
@[simp] theorem sessOf_setPart (p : Nat) (k : Partition) (i : Nat) : sessOf (setPart s p k) i = sessOf s i := rfl
@[simp] theorem sessOf_setLink (l : Nat) (k : Link) (i : Nat) : sessOf (setLink s l k) i = sessOf s i := rfl
@[simp] theorem sessOf_setSess_self (n : Nat) (v : _) : sessOf (setSess s n v) n = v := tget_tset_self _ _ _ _
theorem sessOf_setSess_ne (n j : Nat) (v : _) (h : j ≠ n) : sessOf (setSess s n v) j = sessOf s j := tget_tset_ne _ _ _ _ _ h
@[simp] theorem sessOf_setPath (k : Nat) (r : PathRec) (i : Nat) : sessOf (setPath s k r) i = sessOf s i := rfl
@[simp] theorem sessOf_setPkg (p : Pkg) (i : Nat) : sessOf (setPkg s p) i = sessOf s i := rfl
@[simp] theorem sessOf_setBoot (b : Boot) (i : Nat) : sessOf (setBoot s b) i = sessOf s i := rfl
@[simp] theorem sessOf_setKey (n : Nat) (k : Bytes) (i : Nat) : sessOf (setKey s n k) i = sessOf s i := rfl
@[simp] theorem sessOf_zeroKeys (p : Nat → Bool) (i : Nat) : sessOf (zeroKeys p s) i = sessOf s i := rfl
@[simp] theorem sessOf_zeroAllKeys (i : Nat) : sessOf (zeroAllKeys s) i = sessOf s i := rfl
@[simp] theorem sessOf_emit (e : Emit) (i : Nat) : sessOf (emit s e) i = sessOf s i := rfl
@[simp] theorem sessOf_ledgerCommit (i : Nat) : sessOf (ledgerCommit s) i = sessOf s i := rfl

@[simp] theorem keyOf_setCore (c : Nat) (k : Core) (i : Nat) : keyOf (setCore s c k) i = keyOf s i := rfl
@[simp] theorem keyOf_setCtx (c : Nat) (k : Context) (i : Nat) : keyOf (setCtx s c k) i = keyOf s i := rfl
@[simp] theorem keyOf_setPart (p : Nat) (k : Partition) (i : Nat) : keyOf (setPart s p k) i = keyOf s i := rfl
@[simp] theorem keyOf_setLink (l : Nat) (k : Link) (i : Nat) : keyOf (setLink s l k) i = keyOf s i := rfl
@[simp] theorem keyOf_setSess (n : Nat) (k : Session) (i : Nat) : keyOf (setSess s n k) i = keyOf s i := rfl
@[simp] theorem keyOf_setPath (k : Nat) (r : PathRec) (i : Nat) : keyOf (setPath s k r) i = keyOf s i := rfl
@[simp] theorem keyOf_setPkg (p : Pkg) (i : Nat) : keyOf (setPkg s p) i = keyOf s i := rfl
@[simp] theorem keyOf_setBoot (b : Boot) (i : Nat) : keyOf (setBoot s b) i = keyOf s i := rfl
@[simp] theorem keyOf_setKey_self (n : Nat) (v : _) : keyOf (setKey s n v) n = v := tget_tset_self _ _ _ _
theorem keyOf_setKey_ne (n j : Nat) (v : _) (h : j ≠ n) : keyOf (setKey s n v) j = keyOf s j := tget_tset_ne _ _ _ _ _ h
@[simp] theorem keyOf_emit (e : Emit) (i : Nat) : keyOf (emit s e) i = keyOf s i := rfl
@[simp] theorem keyOf_ledgerCommit (i : Nat) : keyOf (ledgerCommit s) i = keyOf s i := rfl

end Sys2Proof.Machine
end

