-- ==== Sys2Proof/Laws/Requests.lean ====
section
/-! SUPPORT. Requests: receiving a datagram leaves everything but its session's window and its ACK; a request that meets no refusal
is carried out; a request that meets one is refused with the code of the lowest check. -/

namespace Sys2Proof.Machine

/-- What receiving a datagram well before the end of the SEQs can change: the session's receive window, and the ACK that goes out. -/
theorem rxTake_spec (n seq : Nat) (s : State) (h : seq < 2 ^ 48 - 2 ^ 20) : ∃ k, ∃ o, rxTake n seq s =
    { s with sess := tset s.sess n { sessOf s n with rxSeq := (rxAdvance 1025 (sessOf s n).rxSeq (seq :: (sessOf s n).rxMap)).1,
                                                     rxMap := (rxAdvance 1025 (sessOf s n).rxSeq (seq :: (sessOf s n).rxMap)).2,
                                                     rxSince := k }, out := s.out ++ o } := by
  simp only [rxTake]
  generalize rxAdvance 1025 (sessOf s n).rxSeq (seq :: (sessOf s n).rxMap) = x
  obtain ⟨r, l⟩ := x
  rw [if_neg (show ¬(decide (seq ≥ 2 ^ 48 - 2 ^ 20) && decide (rxTop (sessOf s n) < 2 ^ 48 - 2 ^ 20)) = true by
    simp only [Bool.and_eq_true, decide_eq_true_eq]; omega)]
  split
  · simp only [sendKhtAck]
    split
    · exact ⟨(sessOf s n).rxSince + 1, [], by simp [setSess]⟩
    · exact ⟨0, _, by simp [emit, setSess, sessOf]; rfl⟩
  · exact ⟨(sessOf s n).rxSince + 1, [], by simp [setSess]⟩

/-- The SEQ that follows, received alone, is the last one received in order. -/
theorem rxAdvance_next (n r : Nat) (l : List Nat) (h : r + 2 ∉ l) : rxAdvance (n + 2) r ((r + 1) :: l) = (r + 1, l.filter (· != r + 1)) := by
  simp [rxAdvance, h]

theorem rxTakes_spec (n : Nat) : ∀ k s, (∀ j, j < k → (sessOf s n).rxSeq + 2 + j ∉ (sessOf s n).rxMap) → (sessOf s n).rxSeq + k < 2 ^ 47 →
    ∃ a l c, ∃ o, rxTakes n (k + 1) s =
      { s with sess := tset s.sess n { sessOf s n with rxSeq := a, rxMap := l, rxSince := c }, out := s.out ++ o } := by
  intro k
  induction k with
  | zero =>
    intro s _ hb
    obtain ⟨c, o, e⟩ := rxTake_spec n ((sessOf s n).rxSeq + 1) s (by omega)
    exact ⟨_, _, c, o, by rw [rxTakes, rxTakes, e]⟩
  | succ k ih =>
    intro s hs hb
    obtain ⟨c, o, e⟩ := rxTake_spec n ((sessOf s n).rxSeq + 1) s (by omega)
    rw [rxAdvance_next 1023 _ _ (hs 0 (by omega))] at e
    have hu : sessOf (rxTake n ((sessOf s n).rxSeq + 1) s) n =
        { sessOf s n with rxSeq := (sessOf s n).rxSeq + 1, rxMap := (sessOf s n).rxMap.filter (· != (sessOf s n).rxSeq + 1), rxSince := c } := by
      rw [e]; simp [sessOf]
    obtain ⟨a, l, c', o', e'⟩ := ih (rxTake n ((sessOf s n).rxSeq + 1) s)
      (by intro j hj; rw [hu]; intro hm
          exact hs (j + 1) (by omega) (by have := (List.mem_filter.1 hm).1; simpa [Nat.add_assoc, Nat.add_comm, Nat.add_left_comm] using this))
      (by rw [hu]; simp only; omega)
    refine ⟨a, l, c', o ++ o', ?_⟩
    rw [rxTakes, e', hu, e]
    simp

theorem taken_spec (s : State) (r : Req) (h : InTurn s r) : ∃ a l k, ∃ o, taken s r =
    { s with sess := tset s.sess r.sess { sessOf s r.sess with rxSeq := a, rxMap := l, rxSince := k }, out := s.out ++ o } := by
  obtain ⟨_, _, _, _, _, hw, hb, ht, _⟩ := h
  rw [show taken s r = rxTakes r.sess (r.frags + 1) s by simp [taken, ht]]
  refine rxTakes_spec r.sess r.frags s (fun j hj hm => ?_) hb
  simp only [seqsOpen, Bool.and_eq_true, List.all_eq_true, List.mem_range] at hw
  have := (hw.2 (j + 1) (by omega)).2
  simp only [Bool.not_eq_true', List.contains_eq_mem, decide_eq_false_iff_not] at this
  exact this (by rw [show (sessOf s r.sess).rxSeq + 1 + (j + 1) = (sessOf s r.sess).rxSeq + 2 + j by omega]; exact hm)

theorem sessOf_taken (s : State) (r : Req) (h : InTurn s r) : ∃ a l k, sessOf (taken s r) r.sess =
    { sessOf s r.sess with rxSeq := a, rxMap := l, rxSince := k } := by
  obtain ⟨a, l, k, o, h⟩ := taken_spec s r h
  exact ⟨a, l, k, by rw [h]; simp [sessOf]⟩

/-- A request that comes in its turn is processed as it arrives. -/
theorem arrives_admitted (i : Instr) (r : Req) (rt : Rights) (s : State) (act : State → Out) (h : Admitted s r rt) : arrives i r s act = act s := by
  obtain ⟨⟨a1, a2, a3, a4, a5, a6, a7, a8, a9, a10⟩, h1, h2, h4, h5, _⟩ := h
  have hb : bootHalted s = false := by simp [bootHalted, h2]
  have hr : refusedDatagram r.port r.sess r.head s = none := by simp [refusedDatagram, a1, a2, a3, a4, h4, h5]
  have ha : ackTake r.sess r.acks s = s := by
    have : (sessOf s r.sess).unacked.filter (fun t => ackCovers r.acks.ackSeq r.acks.sack t.seq) = [] := by
      rw [List.filter_eq_nil_iff]; intro t ht; simp [a10 t ht]
    simp [ackTake, this]
  have hl : ¬ (sessOf s r.sess).rxSeq + 1 + r.frags ≥ 2 ^ 48 - 1 := by omega
  simp only [arrives, hb, a8, hr, a5, ha, a9]
  rw [if_neg (by simp), if_neg (by simp [a6]), if_neg hl, if_pos (by simp)]

theorem firstFailure_none (cs : List Check) (h : ∀ c ∈ cs, c.fails = false) : firstFailure cs = none := by
  have : cs.filter (·.fails) = [] := by
    rw [List.filter_eq_nil_iff]; intro c hc; simp [h c hc]
  simp [firstFailure, this]

/-- The messages that a retired device and a titleholder at owner epoch 0 may send (R412, R414). -/
def Exempt (s : State) (r : Req) (op : Nat) : Prop :=
  (s.fuses.lifecycle = .retired → op = 0x0001 ∨ op = 0x0320) ∧
  ((sessOf s r.sess).role = .titleholder → s.fuses.ownerEpoch = 0 → op = 0x0001 ∨ op = 0x0320 ∨ op = 0x0330 ∨ op = 0x0331)

theorem Served.exempt {s : State} {r : Req} {rt : Rights} (op : Nat) (h : Served s r rt) : Exempt s r op :=
  ⟨fun a => absurd a h.2.1, fun a b => absurd b (h.2.2 a)⟩

/-- No check that every request meets fails for one that is admitted. -/
theorem headerChecks_admitted (s : State) (r : Req) (op : Nat) (rt : Rights) (lenOk : Bool) (h : Admitted s r rt) (he : Exempt s r op)
    (hl : lenOk = true) : ∀ c ∈ headerChecks (taken s r) r op rt lenOk, c.fails = false := by
  obtain ⟨h0, h1, h2, h4, h5, h6, h8, h9, h10, h11, h12, h13, h14, h15⟩ := h
  obtain ⟨e1, e2⟩ := he
  obtain ⟨a, l, k, o, ht⟩ := taken_spec s r h0
  obtain ⟨a', l', k', hs⟩ := sessOf_taken s r h0
  have hp : (taken s r).pkg = s.pkg := by rw [ht]
  have hb : (taken s r).boot = s.boot := by rw [ht]
  have hf : (taken s r).fuses = s.fuses := by rw [ht]
  have hh : holds (taken s r) r rt = true := by
    have : (sessOf (taken s r) r.sess).role = (sessOf s r.sess).role := by rw [hs]
    cases rt <;> simp_all [holds]
  have hb2 : ((sessOf s r.sess).busy.any fun b => b.1 == r.tag) = false := by
    rw [List.any_eq_false]; intro b hb; simpa using fun h => h13 (List.mem_map.2 ⟨b, hb, h⟩)
  simp only [headerChecks, List.mem_cons, List.not_mem_nil, or_false]
  clear ht
  have hx : ((sessOf s r.sess).role == .titleholder && s.fuses.ownerEpoch == 0 &&
      !(op == 0x0001 || op == 0x0320 || op == 0x0330 || op == 0x0331)) = false := by
    by_cases hr : (sessOf s r.sess).role = .titleholder
    · by_cases hz : s.fuses.ownerEpoch = 0
      · rcases e2 hr hz with h | h | h | h <;> simp [h]
      · simp [hz]
    · simp [hr]
  have hy : (s.fuses.lifecycle == .retired && op != 0x0001 && op != 0x0320) = false := by
    by_cases hr : s.fuses.lifecycle = .retired
    · rcases e1 hr with h | h <;> simp [h]
    · simp [hr]
  rintro c (rfl | rfl | rfl | rfl | rfl | rfl | rfl | rfl)
  · simp [isReady, hp, hb, h1, h2]
  · simp [hh]
  · simp only [hf]; exact hy
  · simp only [hs, hf]; exact hx
  · simp [h8, h9, h10, h11]
  · simpa [hl] using h12
  · simp only [hs]; exact hb2
  · simp only [hs]; simpa using h14

/-- A request that meets no refusal is carried out, on the state that has received its datagram. -/
theorem request_admitted (s : State) (r : Req) (op : Nat) (rt : Rights) (lenOk : Bool) (checks : List Check) (act : State → State)
    (h : Admitted s r rt) (he : Exempt s r op) (hl : lenOk = true) (hc : ∀ c ∈ checks, c.fails = false) :
    request s r op rt lenOk checks act = act (taken s r) := by
  have hm : mailboxOpen s r = true := by
    obtain ⟨⟨h0, _⟩, _, _, h4, h5, _⟩ := h
    simp [mailboxOpen, h0, h4, h5]
  have hb : bootHalted s = false := by
    obtain ⟨_, _, h2, _⟩ := h
    simp [bootHalted, h2]
  have hn : firstFailure (headerChecks (taken s r) r op rt lenOk ++ checks) = none := by
    apply firstFailure_none
    intro c hc'
    rcases List.mem_append.1 hc' with h' | h'
    · exact headerChecks_admitted s r op rt lenOk h he hl c h'
    · exact hc c h'
  unfold request
  rw [hm, hb]
  simp only [Bool.not_true, Bool.false_and, Bool.false_eq_true, if_false]
  change (match firstFailure (headerChecks (taken s r) r op rt lenOk ++ checks) with | some c => _ | none => _) = _
  rw [hn]

theorem request_served (s : State) (r : Req) (op : Nat) (rt : Rights) (lenOk : Bool) (checks : List Check) (act : State → State)
    (h : Served s r rt) (hl : lenOk = true) (hc : ∀ c ∈ checks, c.fails = false) :
    request s r op rt lenOk checks act = act (taken s r) :=
  request_admitted s r op rt lenOk checks act h.1 (h.exempt op) hl hc

end Sys2Proof.Machine
end

