-- ==== Sys2Proof/WellFormed.lean ====
section
/-! DEFINITION. Which commands are well formed: operands that the wire, the pin or the unit can carry. The machine answers every
command; a command that is not well formed is one that no sender can form. -/

namespace Sys2Proof

/-- A number of w bits. -/
def WF.fits (w n : Nat) : Bool := n < 2 ^ w
/-- A byte string of at most n bytes. -/
def WF.upTo (n : Nat) (b : Bytes) : Bool := b.length ≤ n
/-- A mailbox message: its body is at most 65,504 bytes (R311), its session a 32-bit number (R301). -/
def WF.message (r : Req) (body : Bytes) : Bool := body.length ≤ 65504 && WF.fits 32 r.sess && WF.fits 48 r.acks.ackSeq
/-- ACK_SEQ is a 48-bit number (R301). -/
def WF.acks (a : RxAcks) : Bool := WF.fits 48 a.ackSeq
/-- A link frame carries at most 8,192 payload bytes (R270). -/
def WF.frame (f : Frame) : Bool := f.payload.length ≤ 8192

/-- A command is well formed. -/
def wellFormed : Instr → Bool
  | .vinValid _ => true
  | .railsGood => true
  | .pwrgoodAssert _ => true
  | .resetNAssert _ => true
  | .resetNRelease _ => true
  | .firmwareStart => true
  | .portsUp => true
  | .hbmTrainingComplete stack _ => stack.toNat < 12
  | .deviceReady => true
  | .hostBootAttachTimeout => true
  | .bootOfferTimer => true
  | .bootData _ payload => WF.upTo 9088 payload
  | .hostBootTimeout => true
  | .romStatus r body => WF.message r body
  | .recoveryWrite _ _ image _ _ => WF.upTo 0x04000000 image
  | .mrExtend _ _ _ => true
  | .refclkLoss _ => true
  | .refclkRestored _ => true
  | .powerFail _ => true
  | .powerRestored _ => true
  | .powerSample _ _ => true
  | .curLimitAlert => true
  | .tempSample sensor _ => sensor.toNat < 72
  | .tripLatchRelease => true
  | .ledgerCommit => true
  | .alertCauseWrite _ _ => true
  | .i2cWriteOther _ _ => true
  | .ppsOutPulse => true
  | .ppsInEdge _ => true
  | .extest _ => true
  | .idcode => true
  | .samplePreload _ => true
  | .authChallenge => true
  | .authToken _ => true
  | .authStatus => true
  | .debugAccess _ => true
  | .bypass _ _ => true
  | .debugTokenVerified _ => true
  | .debugNonceExpiry => true
  | .prodDebugExpiry => true
  | .matmul _ => true
  | .matdrain _ => true
  | .wavefrontEnter _ => true
  | .cellWindowAdd _ _ row col => row.toNat ≤ 64 && col.toNat < 68
  | .drainMarkerCapture _ _ row col => row.toNat ≤ 64 && col.toNat < 68
  | .rowReadout _ _ row => row.toNat ≤ 64
  | .checksumCompare _ _ => true
  | .reexecute _ => true
  | .retireAndReexecute _ _ _ _ => true
  | .keep _ => true
  | .failStep _ => true
  | .mismatchDecisionTimeout _ => true
  | .bankFillDone _ _ _ => true
  | .bankRelease _ _ _ => true
  | .matrixCompletion _ => true
  | .arraySave _ => true
  | .issueMatrix _ _ => true
  | .issueVector _ _ => true
  | .issueTileMover _ _ => true
  | .issueOutCfg _ _ => true
  | .issueView _ _ => true
  | .vchain _ _ => true
  | .optUpdate _ _ => true
  | .vecLd _ _ => true
  | .vecSt _ _ => true
  | .vecLdc _ _ => true
  | .vecAdd _ _ => true
  | .vecSub _ _ => true
  | .vecMul _ _ => true
  | .vecFma _ _ => true
  | .vecDiv _ _ => true
  | .vecSqrt _ _ => true
  | .vecMax _ _ => true
  | .vecMin _ _ => true
  | .vecAbs _ _ => true
  | .vecNeg _ _ => true
  | .vecFunc _ _ => true
  | .vecCmp _ _ => true
  | .sel _ _ => true
  | .cvt _ _ => true
  | .logic _ _ => true
  | .perm _ _ => true
  | .gather _ _ => true
  | .pos _ _ => true
  | .red _ _ => true
  | .summ _ _ => true
  | .compress _ _ => true
  | .expand _ _ => true
  | .w96add _ _ => true
  | .vectorCompletion _ _ => true
  | .alu _ _ => true
  | .addi _ _ => true
  | .andi _ _ => true
  | .ori _ _ => true
  | .xori _ _ => true
  | .shli _ _ => true
  | .shri _ _ => true
  | .ldk _ _ => true
  | .ld _ _ => true
  | .st _ _ => true
  | .beq _ _ => true
  | .bne _ _ => true
  | .blt _ _ => true
  | .bge _ _ => true
  | .bltu _ _ => true
  | .bgeu _ _ => true
  | .jal _ _ => true
  | .jr _ _ => true
  | .wait _ _ => true
  | .poll _ _ => true
  | .waitall _ _ => true
  | .rdsum _ _ => true
  | .epoch _ _ => true
  | .pmark _ _ => true
  | .rdtime _ _ => true
  | .settrap _ _ => true
  | .trapret _ _ => true
  | .rdtrap _ _ => true
  | .gsend _ _ => true
  | .grecv _ _ => true
  | .barrier _ _ => true
  | .halt _ _ => true
  | .trapTake _ _ => true
  | .tmCopy _ _ => true
  | .tmLayout _ _ => true
  | .tmGather _ _ => true
  | .tmZero _ _ => true
  | .tmZeroAcc _ _ => true
  | .tmReduce _ _ => true
  | .tmAccRead _ _ => true
  | .accReadRelease _ _ => true
  | .tmSend _ _ => true
  | .admitWaitExpiry _ _ => true
  | .tileMove _ _ => true
  | .tileMoverCompletion _ _ => true
  | .hbmRead m _ _ => m < 0x60
  | .hbmWrite m _ _ => m < 0x60
  | .partialWrite m _ len _ _ => m < 0x60 && len.toNat ≤ 64
  | .lineAdd stack _ _ => stack.toNat < 12
  | .groupReencryptDone _ _ => true
  | .metadataWriteback _ => true
  | .zotWorkDone _ _ => true
  | .pushaheadDrain _ => true
  | .linkSignalDetect _ => true
  | .linkTrainingDone _ _ => true
  | .trainTimeout _ => true
  | .linkHello _ payload => WF.upTo 8192 payload
  | .helloTimeout _ => true
  | .linkAttest _ payload => WF.upTo 8192 payload
  | .attestTimeout _ => true
  | .policyVerdict _ _ => true
  | .keyConfirm _ f => WF.frame f
  | .keyTimeout _ => true
  | .linkFence _ _ => true
  | .linkReset _ f => WF.frame f
  | .linkFencedTimeout _ => true
  | .linkRetryTimer _ => true
  | .linkTransmit _ => true
  | .data _ f => WF.frame f
  | .linkAck _ f => WF.frame f
  | .nak _ f => WF.frame f
  | .fill _ f => WF.frame f
  | .linkAckTimer _ => true
  | .linkRetransmitTimeout _ => true
  | .fecWindow _ _ => true
  | .degradedFenceTimer _ => true
  | .pathOpenFrame _ f => WF.frame f
  | .pathAccept _ f => WF.frame f
  | .pathConfirm _ f => WF.frame f
  | .pathCloseFrame _ f => WF.frame f
  | .pathLost _ f => WF.frame f
  | .pathDegraded _ f => WF.frame f
  | .delivered _ f => WF.frame f
  | .refused _ f => WF.frame f
  | .pathReopen _ _ => true
  | .pfcPauseFrame _ _ => true
  | .lldpFrame data => WF.upTo 9216 data
  | .lldpTransmit => true
  | .arpFrame data => WF.upTo 9216 data
  | .neighbourDiscovery data => WF.upTo 9216 data
  | .icmpEcho data => WF.upTo 9216 data
  | .hostLinkUp mode => 1 ≤ mode.toNat && mode.toNat ≤ 12
  | .hostLinkDown => true
  | .ptpAnnounce hdr _ => WF.fits 16 hdr.seq && WF.fits 80 hdr.source
  | .ptpSync hdr t2 => WF.fits 16 hdr.seq && WF.fits 80 hdr.source && WF.fits 64 t2
  | .ptpFollowUp hdr t1 => WF.fits 16 hdr.seq && WF.fits 80 hdr.source && WF.fits 64 t1
  | .ptpDelayResp resp => WF.fits 16 resp.h.seq && WF.fits 80 resp.h.source && WF.fits 64 resp.t4
  | .ptpDelayReqTimer => true
  | .ptpSyncTimeout => true
  | .ptpAnnounceTimeout => true
  | .ptpRelay sess msg => WF.fits 32 sess && WF.acks msg.acks
  | .clientHello _ _ payload => WF.upTo 9088 payload
  | .clientFinish sess payload => WF.fits 32 sess && WF.upTo 9088 payload
  | .halfOpenTimeout sess => WF.fits 32 sess
  | .attestOnly _ _ payload => WF.upTo 9088 payload
  | .khtAck sess ackSeq _ => WF.fits 32 sess && WF.fits 48 ackSeq
  | .khtAckTimer sess => WF.fits 32 sess
  | .khtRetransmitTimeout sess => WF.fits 32 sess
  | .sessionTimeout sess => WF.fits 32 sess
  | .bulkDatagram sess seq head cipher _ => WF.fits 32 sess && WF.fits 48 seq && WF.acks head.acks && WF.upTo 9088 cipher
  | .bulkOutChunk _ => true
  | .mailboxBoundExpiry sess _ => WF.fits 32 sess
  | .eventSend queue => queue < 18
  | .attestRequest r body => WF.message r body
  | .deviceInfo r body => WF.message r body
  | .timeRead r body => WF.message r body
  | .sessionClose r body => WF.message r body
  | .telemetryRead r body => WF.message r body
  | .partitionAssign r body => WF.message r body
  | .partitionRelease r body => WF.message r body
  | .peerLost r body => WF.message r body
  | .contextCreate r body => WF.message r body
  | .contextLoad r body => WF.message r body
  | .contextStart r body => WF.message r body
  | .contextFence r body => WF.message r body
  | .fenceConfirmed _ => true
  | .fenceLimit _ => true
  | .partitionResetLimit _ => true
  | .contextDestroy r body => WF.message r body
  | .contextScrubDone _ => true
  | .regionSet r body => WF.message r body
  | .regionClear r body => WF.message r body
  | .windowSet r body => WF.message r body
  | .pathOpen r body => WF.message r body
  | .pathClose r body => WF.message r body
  | .bulkWindowSet r body => WF.message r body
  | .bulkWindowClear r body => WF.message r body
  | .bulkInOpen r body => WF.message r body
  | .bulkOutOpen r body => WF.message r body
  | .captureRead r body => WF.message r body
  | .countersRead r body => WF.message r body
  | .phaseReportRead r body => WF.message r body
  | .phaseMarkDrain _ => true
  | .quantumExpiry _ => true
  | .contextSaveDone _ => true
  | .contextRestoreDone _ => true
  | .watchdogExpiry _ _ => true
  | .dumpUnitTimeout _ _ => true
  | .dumpDone _ => true
  | .scrubKeyPhase _ => true
  | .scrubLedgerCommit _ => true
  | .scrubDone _ => true
  | .scrubRestart _ => true
  | .configWrite r body => WF.message r body
  | .configValidate r body => WF.message r body
  | .configSwap r body => WF.message r body
  | .configSetPersisted => true
  | .configRead r body => WF.message r body
  | .powerLimitSet r body => WF.message r body
  | .alertClear r body => WF.message r body
  | .faultLogRead r body => WF.message r body
  | .linkUnretire r body => WF.message r body
  | .mgmtNetSet r body => WF.message r body
  | .fwStageBegin r body => WF.message r body
  | .fwStageData r body => WF.message r body
  | .fwStageEnd r body => WF.message r body
  | .fwActivate r body => WF.message r body
  | .fwAbandon r body => WF.message r body
  | .svnCommit r body => WF.message r body
  | .deviceReset r body => WF.message r body
  | .secondLife r body => WF.message r body
  | .secondLifeTestDone => true
  | .ledgerExport r body => WF.message r body
  | .titleChallenge r body => WF.message r body
  | .titleTransfer r body => WF.message r body
  | .operatorRootSet r body => WF.message r body
  | .cosignSet r body => WF.message r body
  | .retire r body => WF.message r body
  | .debugChallenge r body => WF.message r body
  | .debugToken r body => WF.message r body
  | .charterLoad r body => WF.message r body
  | .keyShareAttest r body => WF.message r body
  | .keyShareShare r body => WF.message r body
  | .keyShareRestoreAuth r body => WF.message r body
  | .keyShareStatus r body => WF.message r body
  | .stepJoin r body => WF.message r body
  | .stepCommit r body => WF.message r body
  | .stepRollback r body => WF.message r body
  | .stepUncommit r body => WF.message r body
  | .mirrorRelease r body => WF.message r body
  | .mirrorStatus r body => WF.message r body
  | .mirrorRestore r body => WF.message r body
  | .stepAbort r body => WF.message r body
  | .ckptCut r body => WF.message r body
  | .snapshotChunk _ => true
  | .ckptStatus r body => WF.message r body
  | .ckptStored r body => WF.message r body
  | .ckptAbandon r body => WF.message r body
  | .ckptManifestLoad r body => WF.message r body
  | .ckptRestoreOpen r body => WF.message r body
  | .regulatorPhaseFailure _ => true
  | .supplyDroop _ => true
  | .provisioning _ secret _ _ _ _ => WF.fits 256 secret
  | .prodFuseBurn => true
  | .illegalInstruction _ _ => true
  | .traceExport => true
  | .unknownMailboxOpcode _ _ => true
  | .droppedFrame _ => true
  | .titleNonceExpiry => true
  | .signalLoss _ => true
  | .mgmtPortLinkDown => true
  | .mgmtPortLinkUp mode => 1 ≤ mode.toNat && mode.toNat ≤ 2

end Sys2Proof
end

