-- ==== Sys2Proof/Tests/Slice0.lean ====
section
/-! SUPPORT. Tests. For every clause of a statement that has hypotheses, a state and operands that meet them together; the checks of
WellFormed, each with a command that it refuses; and a few results worked out from the manual. -/

set_option maxRecDepth 20000
set_option linter.unusedVariables false
set_option exponentiation.threshold 600

namespace Sys2Proof.Tests
open Sys2Proof Sys2Proof.Machine

/-! ## States the witnesses are built from -/

/-- Supply and clocks are there, the boot ROM has not started. -/
def sOn : State := { State.reset with
  pkg := { pkgReset with supply := .on, pwrgood := true, resetN := true, trstN := true, refclk := 0xF },
  fuses := { fusesReset with lifecycle := .prod, secret := some 7, serial := 0x1234 } }
def inBoot (p : BootPhase) : State := { sOn with boot := { bootReset with phase := p } }
/-- The device is READY. -/
def sReady : State := inBoot .ready
/-- A request on session n of a port, with a body of the given length. -/
def rq (port : Port) (n len : Nat) : Req :=
  { port := port, sess := n, tag := 5, status := 0, ctx := 1, gen := 1, part := 2, rsvHi := 0, bodyLen := BitVec.ofNat 24 len, earliest := 0, rsvLo := 0 }
/-- One open session. -/
def withSess (port : Port) (role : Role) (n : Nat) (s : State) : State :=
  setSess s n { sessionReset with phase := .opened, port := port, role := role, dgram := 9216 }
/-- An operator's session 128 on the management port. -/
def sOp : State := withSess .mgmt .operator 128 { sReady with mgmt := { sReady.mgmt with up := true } }
def rOp (len : Nat) : Req := rq .mgmt 128 len

/-- An image whose manifest names one component, BASE firmware of one byte (R53). -/
def image1 : Mem :=
  mwrite (mwrite [] 0x200 [0x4B, 0x5A, 0x46, 0x4D, 0, 1, 0, 1, 0, 0, 0, 9, 0, 0, 0, 2, 0, 0, 0x10, 0x01]) 0x220 [0, 1, 0, 0, 0, 0, 0x10, 0, 0, 0, 0, 1]
def sImage : State := setBoot sOn { bootReset with image := image1 }
def token1 : DebugToken :=
  { serial := 0x1234, nonce := 5, duration := 60, scope := 2, vendorKey := [1], vendorSig := [2], titleKey := [3], titleSig := [4] }
def inLife (l : Lifecycle) (s : State) : State := { s with fuses := { s.fuses with lifecycle := l } }
def withToken (s : State) : State := { s with jtag := { s.jtag with tokJtag := some token1 } }
def sDebug : State := inLife .prodDebug { sReady with jtag := { jtagReset with scope := 0x3, duration := 60 } }

/-- A set with one section, at offset 176. -/
def oneSection (ty : Nat) (b : Bytes) : Mem := mwrite (mwrite [] 0x20 (dirBytes [(ty, b.length)] 176)) 176 b
def withCfg (m : Mem) (s : State) : State := { s with cfg := { s.cfg with active := m } }
/-- One claim of KIND 1 on a link (R333). -/
def claimSet (link feature : Nat) : Mem :=
  oneSection 5 (bytesLE 2 1 ++ List.replicate 6 0 ++ bytesLE 8 (2 ^ 56 + link * 2 ^ 48 + feature * 2 ^ 40 + 1))
def withLink (l : Nat) (k : Link) (s : State) : State := setLink s l k
def upLink : Link := { linkReset with state := .up }
/-- A host-port session of the fabric manager, number 0, and a tenant's of partition 2, number 1. -/
def sHost : State := withSess .host .fabric 0 (withSess .host (.tenant 2) 1 { sReady with host := { sReady.host with up := true } })
def rFab (len : Nat) : Req := rq .host 0 len
def rTen (len : Nat) : Req := rq .host 1 len
def sLocked : State := { sOp with cfg := { sOp.cfg with lock := some 128, valid := true, shadow := mwrite [] 0x10 [2] } }
def staging (s : State) : State := { s with nvm := { s.nvm with stageSlot := some (1, 8, 4) } }
def fromSlot (n : Byte) (s : State) : State := setBoot s { s.boot with source := n, fwSvn := 64 }
/-- A titleholder's session 129. -/
def sTitle : State := withSess .mgmt .titleholder 129 { sReady with fuses := { sReady.fuses with ownerEpoch := 1 }, mgmt := { sReady.mgmt with up := true } }
def rTitle (len : Nat) : Req := rq .mgmt 129 len

/-- Context 1 of partition 2 is ACTIVE with 1 MiB of operand cache on each core. -/
def sCtx : State := setCtx sReady 1 { contextReset with state := .active, gen := 1, part := 2, pairs := 0xFFFF, ocMib := 1 }
/-- Core 31 serves it. -/
def onCore (k : Core) : State := setCore sCtx 31 { k with ctx := some 1 }
/-- Its matrix arrays; of the four, array 0 alone is in service. -/
def withArr (a : Arrays) : State :=
  { onCore { coreReset with arr := a } with nvm := { nvmReset with fold := [1, 2, 3].map (fun i => (4 * 31 + i, { retired := true })) } }
/-- A MATMUL of M0 = N = K = 1 with tag 7, and a MATDRAIN of 1 by 1. -/
def matmul1 : BitVec 512 := BitVec.ofNat 512 (64 * 2 ^ 384 + 2 ^ 128 + 2 ^ 107 + 2 ^ 98 + 7 * 2 ^ 8 + 0x20)
def matdrain1 : BitVec 512 := BitVec.ofNat 512 (64 * 2 ^ 384 + 2 ^ 128 + 2 ^ 98 + 7 * 2 ^ 8 + 0x21)
def blk1 : RowBlk := { parts := [(0, 0, 1)] }
def run1 : MatRun := { desc := matmul1, plan := [{ blks := [blk1] }], loads := [(0, 1)] }
def drain1 : MatDrain := { blk := blk1 }
def mism1 : MatRun := { desc := matmul1, mism := [{ rows := 1 }] }
def misms : MatRun := { mism1 with plan := [{ blks := [blk1] }] }
def misAt : Mismatch := { rows := 1, kind := 1, col := 63 }
/-- A MATMUL with K = 1024 that waits for its second bank load. -/
def runK : MatRun := { run1 with desc := matmul1 + 1023 * 2 ^ 107, cur := { chunk := 1 } }
/-- A wavefront's tag: operands, the drain marker, split 0 valid. -/
def wave1 : Wave := { tag := BitVec.ofNat 64 (2 ^ 60 + 1), blk := blk1 }
def mark1 : Wave := { tag := BitVec.ofNat 64 (2 ^ 59) }
/-- A MATMUL over two zero tiles of one by one FP32, in units 0 and 1, with its output in unit 2. -/
def matmul2 : BitVec 512 := BitVec.ofNat 512
  (64 * 2 ^ 384 + 2 * 2 ^ 346 + (2 ^ 300 + 2 ^ 313) * 2 + 2 ^ 282 + 2 ^ 263 + 2 ^ 231 + 2 ^ 218 + 2 ^ 199 + 2 ^ 128 + 2 ^ 107 + 2 ^ 98 + 7 * 2 ^ 8 + 0x20)
def zeroTile : Hdr :=
  ({ fmt := 0x0A, zero := true, ctx := 1, gen := 1, part := 2, rows := 1, cols := 1, vrows := 1, vcols := 1 : TileOut }).final 0
def withTiles (s : State) : State := { s with mem := writeHdr (writeHdr [] (unitAddr 31 0) zeroTile) (unitAddr 31 1) zeroTile }

/-- An instruction slot (R193). -/
def slotW (op d a b c ty idx sub imm : Nat) : W64 :=
  BitVec.ofNat 64 (op * 2 ^ 56 + d * 2 ^ 51 + a * 2 ^ 46 + b * 2 ^ 41 + c * 2 ^ 36 + ty * 2 ^ 28 + idx * 2 ^ 25 + sub * 2 ^ 16 + imm)
/-- A view of format f, mode and scale format, whose one slab has one row of n columns in one tile of two units from a base (R188). -/
def view1 (base n f mode sf : Nat) : BitVec 512 :=
  BitVec.ofNat 512 (2 ^ 312 + n * 2 ^ 248 + 2 ^ 224 + 2 ^ 208 + base * 2 ^ 189 + 2 * 2 ^ 170 + 2 ^ 157 + n * 2 ^ 144 + f * 2 ^ 120 + sf * 2 ^ 112 + mode * 2 ^ 102)
/-- A chain over two elements on channel 7; PACK at bit 85. -/
def chain (count pack : Nat) (code : List W64) : VDesc :=
  { hdr := BitVec.ofNat 512 (2 ^ 488 + 2 ^ 464 + 2 ^ 440 + 2 ^ 416 + 2 * 2 ^ 392 + count * 2 ^ 100 + 0x80 * 2 ^ 88 + pack * 2 ^ 85 + 7 * 2 ^ 8 + 0x40)
    code := code, views := [(0, view1 0 2 0x0A 0 0)] }
/-- Channel 7 stands at the first of two equal instructions; two registers hold indices. -/
def atInstr (pack : Nat) (w : W64) : State := onCore { coreReset with vec := {
  chans := [(7, { busy := true, regs := [(2 * 64, 1), (2 * 64 + 1, 5), (4 * 64 + 1, 7)] })], runs := [(7, { d := chain 2 pack [w, w] })] } }
def vx (pack : Nat) (w : W64) : VX := ⟨31, 7, 7, chain 2 pack [w, w], 0, w, 0, 0, 0⟩
def queued (d : VDesc) : State := onCore { coreReset with vec := { queue := [(1, [d])] } }
/-- The header of a tile of one by n. -/
def rowTile (n f mode sf : Nat) (zero : Bool) : Hdr :=
  ({ fmt := f, mode := mode, sf := sf, zero := zero, ctx := 1, gen := 1, part := 2, rows := 1, cols := n, vrows := 1, vcols := n : TileOut }).final 0
/-- The header of a dense tile of one element of four bytes, in a payload of zeros. -/
def denseTile (f : Nat) : Hdr :=
  ({ fmt := f, ctx := 1, gen := 1, part := 2, rows := 1, cols := 1, vrows := 1, vcols := 1 : TileOut }).final (crc32c (List.replicate 16 0))
/-- A parameter update over one element, its state in FP8 with one scale per block (R209-R211), and its source tiles. -/
def update1 : VDesc :=
  { hdr := BitVec.ofNat 512 (0x3F000000 * 2 ^ 480 + 0x3F000000 * 2 ^ 448 + 2 ^ 168 + 2 ^ 144 + 2 ^ 132 + 2 * 2 ^ 126 + 3 * 2 ^ 120 + 2 ^ 114 + 2 * 2 ^ 108 +
      3 * 2 ^ 102 + 0x80 * 2 ^ 88 + 7 * 2 ^ 8 + 0x41)
    views := [(0, view1 0 1 0x0A 0 0), (1, view1 2 1 0x0A 0 0), (2, view1 4 1 4 3 0x10), (3, view1 6 1 4 3 0x10)] }
def updateTiles (s : State) : State :=
  { s with mem := writeHdr (writeHdr (writeHdr (writeHdr [] (unitAddr 31 0) (rowTile 1 0x0A 0 0 true)) (unitAddr 31 2) (rowTile 1 0x0A 0 0 true))
      (unitAddr 31 4) (rowTile 1 4 3 0x10 false)) (unitAddr 31 6) (rowTile 1 4 3 0x10 false) }

/-- The first run of a chain that stores with one scale per column (R194). -/
def dryChain : VDesc := { chain 3 0 [slotW 0x41 0 2 0 0 0 0 0 15, slotW 0x41 0 2 0 0 0 0 0 15, slotW 0x02 0 2 0 0 0 0 0 0] with
  views := [(0, view1 0 2 4 2 0x10)] }
def dryState : State := onCore { coreReset with vec := { chans := [(7, { busy := true })], runs := [(7, { d := dryChain })] } }
def dryVx : VX := ⟨31, 7, 7, dryChain, 0, slotW 0x41 0 2 0 0 0 0 0 15, 0, 0, 0⟩

/-- An I-form and an R-form instruction word (R214). -/
def iw (op d a imm : Nat) : Nat := op * 2 ^ 26 + d * 2 ^ 22 + a * 2 ^ 18 + imm
def rw' (op d a b f : Nat) : Nat := iw op d a (b * 2 ^ 14 + f)
/-- Grain core 1 of core 31 runs, with the word at its program counter; the other grain core is y. -/
def gAt (w : Nat) (x y : Grain) : State :=
  onCore { coreReset with grains := [(0, y), (1, { x with started := true, prog := mwrite x.prog (4 * x.pc) (bytesLE 4 w) })] }
def g0 : Grain := grainReset
/-- Registers X2 = 8, X3 = -1. -/
def gX : Grain := { g0 with regs := [(2, 8), (3, BitVec.allOnes 64)] }
/-- Data scratch holds a descriptor of OPCODE 0x20, TAG 7, in its second 64 bytes. -/
def gD (op : Byte) : Grain := { g0 with regs := [(2, 64)], scratch := [(64, op), (65, 7)] }
def withMover (k : Mover) (s : State) : State := setCore s 31 { coreOf s 31 with ctx := some 1, movers := [(1, k)] }
/-- A tile-mover descriptor with tag 7, from unit 4 of core 31's operand cache to unit 6. -/
def mdesc (op acc count : Nat) : BitVec 512 :=
  BitVec.ofNat 512 (unitAddr 31 4 * 2 ^ 464 + unitAddr 31 6 * 2 ^ 416 + count * 2 ^ 312 + acc * 2 ^ 21 + 7 * 2 ^ 8 + op)
/-- The same with a destination of its own, from the index tile in unit 2 of one row and a limit of one, and with other low bits. -/
def mdescTo (dst low op : Nat) : BitVec 512 :=
  BitVec.ofNat 512 (unitAddr 31 4 * 2 ^ 464 + dst * 2 ^ 416 + 2 ^ 312 + 2 * 2 ^ 293 + 2 ^ 280 + 2 ^ 256 + low + 7 * 2 ^ 8 + op)
/-- Tile mover 1 runs r, with a tile at its source. -/
def moving (r : MovRun) : State :=
  { withMover { run := some r } sCtx with mem := writeHdr [] (unitAddr 31 4) (rowTile 1 0x0A 0 0 true) }

/-- A slot's record at the mover's source that still expects one contribution (R256). -/
def accRec : Mem := [(unitAddr 31 4 + 49, 1)]


/-- A region entry: virtual base 0, physical base 2 MiB, 2 MiB, sealed, with READ, WRITE and ADD (R229). -/
def region1 : BitVec 128 := BitVec.ofNat 128 (2 ^ 74 + 2 ^ 55 + 0x21 * 2 ^ 45 + 2 ^ 43 + 2 ^ 38 + 2 ^ 37 + 2 ^ 36 + 1)
def inRegion (e : BitVec 128) (s : State) : State := setCtx s 1 { ctxOf s 1 with regions := [(3, e)] }
/-- HBM is trained, and core 31 runs context 1 with one region. -/
def sMem : State := inRegion region1 { onCore coreReset with boot := { sReady.boot with trained := 0xFFF } }
def pa1 : W64 := 0x200040
def withHbm (h : Hbm) (s : State) : State := { s with hbm := h }
/-- The counter group of line 0x200040. -/
def group1 (k : CtrGroup) : State := withHbm { groups := [(0x200, k)] } sMem
def withPart (p : Nat) (k : Partition) (s : State) : State := setPart s p k
/-- A charter whose one bank pair has its working range at virtual 0 (R354). -/
def bankDoc : Bytes := List.replicate 0x638 0 ++ bytesBE 16 (2 ^ 127 + 2 ^ 100 + 2 ^ 54)
def sArrived : State := withPart 2 { partitionReset with charter := some { doc := bankDoc, active := true }, step := { wrOk := false } } sMem
/-- A contribution of two line adds, the first queued on channel 1 of stack 0. -/
def sAdding : State :=
  withHbm { atomQ := [(1, [{ id := 4, line := 1 }])], contribs := [(4, { ctx := 1, slot := 0x80, fmt := 0x0A, queued := 2, whole := true })] } sMem

theorem no_snapshot (s : State) (a : Nat) (h : partOfSlice s (sliceOf a) = none) : NoSnapshot s a := by
  intro p hp
  rw [h] at hp
  exact nomatch hp

theorem no_copy (s : State) (a q : Nat) (h : partOfSlice s (sliceOf a) = some q) (n : (partOf s q).snap.state ≠ .copying) : NoSnapshot s a := by
  intro p hp
  rw [h] at hp
  cases hp
  exact n
theorem span_all {lo n : Nat} {P : Nat → Prop} (h : ∀ k < n, P (lo + k)) : ∀ a, lo ≤ a → a < lo + n → P a := by
  intro a h1 h2
  have := h (a - lo) (by omega)
  rwa [Nat.add_sub_cancel' h1] at this

/-- A frame of a type and class, with TXC 1 (R270). -/
def fr (ty cls rest : Nat) (p : Bytes) : Frame :=
  { hdr := BitVec.ofNat 256 (ty * 2 ^ 248 + cls * 2 ^ 246 + p.length * 2 ^ 34 + rest), payload := p, txc := 1 }
/-- The checks of the hop trailer but its tag (R271, R272). -/
def formed (s : State) (l : Nat) (f : Frame) : Bool :=
  knownType (fType f.hdr) && fClass f.hdr != 3 && !bit f.hdr 242 && fld f.hdr 33 32 == 0 && fLength f.hdr ≤ 8192 &&
    f.payload.length == fLength f.hdr && f.txc.toNat > (linkOf s l).rxTxc.toNat
/-- A frame as link l's partner seals it. -/
def sealF (s : State) (l : Nat) (f : Frame) : Frame := { f with htag := hopTag (rxKey s l) f }
theorem hop_seal {s : State} {l : Nat} {f : Frame} (h : formed s l f = true) : hopOk s l (sealF s l f) = true := by
  have e : hopOk s l (sealF s l f) = (formed s l f && (hopTag (rxKey s l) f == hopTag (rxKey s l) f)) := rfl
  rw [e, h]
  simp
/-- Link 3 in a state, of a device whose set enables it. -/
def sLink (st : LinkState) : State :=
  withLink 3 { linkReset with state := st } (withCfg (oneSection 4 (List.replicate 48 0 ++ [1] ++ List.replicate 15 0)) sReady)
def sUp (k : Link) : State := withLink 3 { k with state := .up } sReady
/-- A HELLO of a partner with the serial number 9 and no certificate (R266). -/
def hello9 : Bytes := bytesBE 2 1 ++ bytesBE 8 9 ++ [3, 0, 0, 0, 0, 0] ++ List.replicate 197 1 ++ [0, 0]
/-- Frames that wait: bounded, in 250 bytes, for reservation 1 of partition 2. -/
def tx1 (bound : Int) : TxFrame := { f := fr 0x20 0 0 (List.replicate 202 7), cls := 0, pool := 2, key := 513, bound := bound }
def kBnd : Link := { linkReset with bndQ := [tx1 900, tx1 300, tx1 500], creds := [(513, 6)] }
/-- Three frames sent and not acknowledged, LINK_SEQ 0 to 2; 4 is expected next. -/
def kSent : Link :=
  { linkReset with unacked := [tx1 1, { tx1 2 with f := fr 0x20 0 (2 ^ 144) [] }, { tx1 2 with f := fr 0x20 0 (2 * 2 ^ 144) [] }], rxSeq := 4 }

/-- Path 5 of die 0 lies over link 3, which is UP, in a role and with a record (R278): context 1 of partition 2, window 1. -/
def withPathOn (role : Nat) (r : PathRec) (s : State) : State :=
  setPath (setEntry 5 (mkEntry role 3 5 1 2 1 1 0 1 0 100) (withLink 3 upLink s)) 5 r
def sPath (role : Nat) (r : PathRec) : State := withPathOn role r sCtx
def openPath : PathRec := { phase := 3, links := [3] }
/-- A path's frame (R270): PATH 5, of context 1 of partition 2, FIRST; its generation and TRANSFER 9. -/
def pf (gen hops : Nat) : Nat := 2 ^ 245 + hops * 2 ^ 240 + 5 * 2 ^ 228 + 2 * 2 ^ 224 + 2 ^ 216 + gen * 2 ^ 208 + 9 * 2 ^ 80
/-- The receive window of the path, of n units, with the generation g (R280). -/
def withWindow (g n : Nat) (s : State) : State :=
  setPart s 2 { partOf s 2 with windows := [(1, BitVec.ofNat 256 (2 ^ 208 + n * 2 ^ 179 + 2 ^ 171 + g * 2 ^ 163))] }
/-- Transfer 9 of the path awaits its outcome; tile mover 1 of core 31 sent it. -/
def sSent : State := withPathOn 0 { openPath with flight := [(9, { core := 31, mover := 1, bytes := 64 })] } (moving { desc := mdesc 0x66 0 1 })
/-- A set whose HOST_PORT section is b; the host port is up. -/
def sEth (b : Bytes) : State := { withCfg (oneSection 8 b) sReady with host := { sReady.host with up := true } }
def ptpAt (t : TimeUnit) : State := { sEth [0, 0] with time := t }
def master1 : TimeUnit := { master := some (3, 7), ptp := .acquiring, syncSeq := 4, syncT2 := 150, pair := some (100, 150), reqT3 := 160, goodSyncs := 15 }

/-- A titleholder's CLIENT_HELLO on the management port (R306, R402), before its title is set. -/
def helloTitle : Bytes := [1, 0, 1, 4, 0, 0x23, 0xFF] ++ List.replicate 197 1 ++ [0, 133] ++ List.replicate 133 4
def sMgmt : State := { sReady with mgmt := { sReady.mgmt with up := true } }
def halfOpen : Session := { sessionReset with phase := .half, port := .mgmt, role := .titleholder }
def modSess (n : Nat) (f : Session → Session) (s : State) : State := setSess s n (f (sessOf s n))
def event1 : Event := { code := 2, part := 2, deviceWide := false, direct := true, ctx := 0, gen := 0, body := [], time := 0, qseq := 1 }
def withQueue (p : Nat) (q : EventQueue) (s : State) : State := setPart s p { partOf s p with queue := q }

/-- A PARTITIONS section in which partition 2 has slice 0, sealed, and the cores 0 to 31 (R327). -/
def partsSec : Bytes :=
  List.replicate 128 0 ++ [1] ++ List.replicate 9 0 ++ [1, 0, 0, 0, 0xFF, 0xFF, 1] ++ List.replicate 23 0 ++ [1] ++ List.replicate 23 0
/-- Sessions 0 and 1 of the host port, context 1 of partition 2, and the partition's slice 0. -/
def sTen : State := { withCfg (oneSection 1 partsSec) sMem with sess := sHost.sess, host := { sHost.host with up := true, rate := 1600 } }
/-- Its region 3 opened to the host. -/
def sOpen : State := inRegion (region1 + 2 ^ 39) sTen
/-- Its region 3 named by a tile mover's request. -/
def sNamed : State := setCore sTen 31 { coreOf sTen 31 with movers := [(1, { run := some { srcs := [(0x40, 64)] } })] }
/-- A receive window of 16 units from 0x40 (R280) and a bulk window of two tiles of one FP32 (R314), in or out. -/
def win1 : RecvWindow := BitVec.ofNat 256 (0x40 * 2 ^ 208 + 16 * 2 ^ 179 + 2 ^ 171 + 2 ^ 163)
def bulk1 (dir : Nat) : BitVec 512 :=
  BitVec.ofNat 512 (2 * 2 ^ 445 + 2 ^ 421 + 2 * 2 ^ 397 + 2 ^ 381 + 2 ^ 368 + 2 ^ 355 + 0x0A * 2 ^ 331 + 2 ^ 304 + 2 ^ 296 + dir * 2 ^ 282)
/-- A bulk window in, of one tile of 32 FP32 in three units, and a transfer through it. -/
def bulkWide : BitVec 512 :=
  BitVec.ofNat 512 (3 * 2 ^ 445 + 2 ^ 421 + 32 * 2 ^ 397 + 2 ^ 381 + 2 ^ 368 + 32 * 2 ^ 355 + 0x0A * 2 ^ 331 + 2 ^ 304 + 2 ^ 296 + 2 ^ 282)
def inBulk (seen : List (Nat × Nat × Nat)) : Bulk := { sess := 1, id := 9, window := 5, copy := bulkWide, count := 1, ctx := 1, seen := seen }
def bulkIn (seen : List (Nat × Nat × Nat)) (s : State) : State := { s with bulk := [(bulkKey 1 9, inBulk seen)] }
def withBw (w : BitVec 512) (s : State) : State := modSess 1 (fun q => { q with wins := [(5, w)] }) s
def outTiles (s : State) : State :=
  { s with mem := writeHdr (writeHdr [] 0x200000 (rowTile 1 0x0A 0 0 true)) 0x200080 (rowTile 1 0x0A 0 0 true) }
def openBody (first count : Nat) : Bytes := bytesBE 4 9 ++ [5] ++ bytesBE 3 first ++ bytesBE 3 count
/-- Transfer 9 of session 1 is on its way out. -/
def sOut : State := { outTiles sOpen with bulk := [(bulkKey 1 9, { sess := 1, id := 9, window := 5, copy := bulk1 2, count := 2, out := true, srcs := [(0, 128), (0x80, 128)], ctx := 1 })] }
/-- A reservation of tenant ingress, 16 units and 1 KiB deep, its bucket empty at time 7 (R284, R285). -/
def sResv (tok : Nat) : State :=
  { withCfg (oneSection 3 (bytesLE 8 (2 ^ 63 + 2 * 2 ^ 60 + 16 * 2 ^ 34 + 2 ^ 18))) sReady with
    parts := [(0, { partitionReset with buckets := [(0, { tok := tok, last := 7, live := true })] })] }

/-- A set of several sections, from offset 176 (R330). -/
def sections (l : List (Nat × Bytes)) : Mem := mwrite (mwrite [] 0x20 (dirBytes (l.map (fun x => (x.1, x.2.length))) 176)) 176 (l.flatMap (·.2))
def modCtx (c : Nat) (f : Context → Context) (s : State) : State := setCtx s c (f (ctxOf s c))
def modPart (p : Nat) (f : Partition → Partition) (s : State) : State := setPart s p (f (partOf s p))
/-- sTen with its partition ASSIGNED and context 1 in a state. -/
def sCtxIn (st : CtxState) : State := modCtx 1 (fun k => { k with state := st }) (modPart 2 (fun q => { q with state := .assigned }) sTen)
/-- Its partition resetting. -/
def resetting (s : State) : State := modPart 2 (fun q => { q with state := .resetting }) s
/-- A quota of contexts in the partition's entry. -/
def quota (s : State) : State := withCfg (oneSection 1 (partsSec.set 139 4)) s
/-- A program image with one record, for grain core 0 of core 31 (R425), at 0x200000. -/
def image31 : Bytes :=
  bytesLE 4 0x4B5A5049 ++ [1, 0, 1, 0] ++ bytesLE 4 132 ++ [0, 0, 0, 0, 31, 0, 0, 0] ++ bytesLE 4 64 ++ bytesLE 4 4 ++ bytesLE 4 128 ++ bytesLE 4 0 ++ [0, 0, 0, 0] ++
    List.replicate 24 0 ++ [0, 0, 0, 0xFC] ++ List.replicate 64 0
def sImg : State := { sCtxIn .creating with mem := mwrite [] 0x200000 image31 }
/-- A context of partition 2 that waits to run on the cores of context 1. -/
def rival (s : State) : State := setCtx s 9 { contextReset with state := .suspended, gen := 1, part := 2, pairs := 0xFFFF }
/-- A charter with FLAGS, CKPT_MODE 1, one owner, a quorum of one, and one bank pair of one granule (R354, R355). -/
def doc1 (flags mode : Byte) : Bytes :=
  List.replicate 7 0 ++ [flags, 0, 0, 0, 0, 1, 1, 0, mode] ++ List.replicate (0x638 - 16) 0 ++ bytesBE 16 (2 ^ 127 + 2 ^ 73 + 2 ^ 54 + 1024 * 2 ^ 35) ++
    List.replicate (0xA50 - 0x648) 0
def ch1 (flags mode : Byte) : Charter := { doc := doc1 flags mode, active := true }
/-- Partition 2 works under a charter. -/
def underCh (flags mode : Byte) (v : Step) (s : State) : State :=
  setPart s 2 { partOf s 2 with charter := some (ch1 flags mode), state := .charter, step := v }
def sCh (flags : Byte) (v : Step) : State := underCh flags 1 v sTen
/-- Grain core 0 of core 31 runs. -/
def grainOn (s : State) : State := setCore s 31 { coreOf s 31 with grains := [(0, { g0 with started := true })] }
/-- sCh with the claim on SNAPSHOT_PUSHAHEAD (R333, R334). -/
def sClaim (v : Step) : State :=
  { sCh 1 v with cfg := { (sCh 1 v).cfg with active := sections [(1, partsSec), (5, bytesLE 2 1 ++ List.replicate 6 0 ++ bytesLE 8 (4 * 2 ^ 40 + 2 * 2 ^ 32 + 1))] } }
def modSnap (f : Snapshot → Snapshot) (s : State) : State := modPart 2 (fun q => { q with snap := f q.snap }) s
def modRest (f : Restore → Restore) (s : State) : State := modPart 2 (fun q => { q with rest := f q.rest }) s
/-- A snapshot of one granule of zeros at 0x200000 copies (R388, R389). -/
def copying : State :=
  modSnap (fun n => { n with state := .copying, ranges := [(0, 1, 1024, 4)], latch := [(0, 0, 0x200000, 0x200000)], marks := [0], key := some [] }) (sCh 1 {})
theorem auth_one (ch : Charter) (d : Digest) : 1 ≤ authCount { ch with auths := [(d, 0)] } d := by
  have : (0 : Nat) ∈ (List.range 8).filter (fun n => [(d, 0)].contains (d, n)) := by simp
  exact List.length_pos_of_mem this
/-- A manifest's first bytes, with one record; restored by a context that loads, complete or not (R363, R397). -/
def man1 : Bytes := [0, 0, 0, 0, 0, 0, 0, 1]
def chAuth : Charter := { ch1 0 1 with auths := [(Config.sha512 man1, 0)] }
def sRest (w : Bool) (ch : Charter) : State :=
  modCtx 1 (fun k => { k with state := .creating, loaded := true })
    (modPart 2 (fun q => { q with charter := some ch, rest := { manifest := man1, whole := w } }) (sCh 0 {}))
/-- One command waits, and what it does. -/
def sOne : State := { sOn with pending := [.ppsInEdge 2000] }
def sOneDone : State := { sOn with time := { sOn.time with ppsIn := some 0 } }

/-- The least set that R331 accepts with one stack in service: no partition, no reservation, every link disabled. -/
def leastSet (seq watts : Nat) : Mem :=
  let m := mwrite [] 0 (bytesLE 4 0x4B5A4353 ++ [1, 0, 9, 0] ++ bytesLE 4 37836 ++ bytesLE 4 seq ++ [1])
  let m := mwrite m 0x20 (dirBytes [(4, 516), (8, 224), (6, 8), (7, 8), (9, 32), (5, 8), (2, 1024), (1, 1024), (3, 34816)] 176)
  let m := (List.range 32).foldl (fun m l => mwrite m (176 + 16 * l + 7) [0x33]) m
  mwrite (mwrite (mwrite (mwrite m (692 + 6) [0, 4, 0, 6, 1]) 916 (bytesLE 2 watts)) 924 [1]) 932 ((List.range 5).flatMap (fun _ => [1, 0, 0, 0]))
/-- An operator's session on a device whose active set is the least one, with a limit of 1,800 W. -/
def sPower : State := withCfg (leastSet 1 1800) { sOp with boot := { sOp.boot with trained := 1 } }
/-- That set with a limit of 3,000 W. -/
def least2 : Mem := leastSet 2 3000
theorem limit_least : limitSet sPower 3000 = least2 := by decide +kernel
/-- A section without a listed byte reads as zero everywhere. -/
theorem sec_zero {m : Mem} {ty : Nat} (i o n : Nat) (h1 : secIndex m ty = some i) (h2 : setNum m (0x24 + 16 * i) 4 = o)
    (h3 : m.all (fun c => c.1 < o || o + n ≤ c.1) = true) : ∀ off len, off + len ≤ n → secNum m ty off len = 0 := by
  have z : ∀ l : Mem, (∀ c ∈ l, c.1 < o ∨ o + n ≤ c.1) → ∀ a, o ≤ a → a < o + n → mget l a = 0 := by
    intro l
    induction l with
    | nil => intro _ a _ _; rfl
    | cons c t ih =>
      intro hc a ha hb
      have h := hc c (by simp)
      simp only [mget, tget]
      split
      · omega
      · exact ih (fun x hx => hc x (by simp [hx])) a ha hb
  have zs : ∀ b : Bytes, (∀ x ∈ b, x = 0) → natLE b = 0 := by
    intro b hb
    induction b with
    | nil => rfl
    | cons x t ih =>
      have := ih (fun c hc => hb c (by simp [hc]))
      simp only [natLE] at this
      simp [natLE, hb x (by simp), this]
  intro off len hl
  have h3' : ∀ c ∈ m, c.1 < o ∨ o + n ≤ c.1 := by simpa using h3
  simp only [secNum, h1, setNum, mnum] at *
  rw [h2]
  apply zs
  intro b hb
  simp only [mread, List.mem_map, List.mem_range] at hb
  obtain ⟨j, hj, rfl⟩ := hb
  exact z m h3' _ (by omega) (by omega)
theorem flaws_nil (n : Nat) (f : Nat → List Flaw) (h : ∀ i < n, f i = []) : flaws n f = [] := by simpa [flaws] using h
/-- No part of it is at fault (R331, R332). -/
theorem share_least : shareFlaws least2 = [] := by
  have z := sec_zero (m := least2) (ty := 2) 6 972 1024 (by decide +kernel) (by decide +kernel) (by decide +kernel)
  refine flaws_nil _ _ (fun l hl => ?_)
  have hs : shareSum least2 l = 0 := by
    have : ∀ p ∈ List.range 17, linkShare least2 l p = 0 := fun p hp => z _ _ (by simp at hp; omega)
    rw [shareSum, List.map_congr_left this]
    decide
  simp [flaw, hs, z _ _ (show 32 * l + 17 + 15 ≤ 1024 by omega)]
theorem part_least : partFlaws sPower least2 ++ flaws 16 (fun p => flaw (layoutChange sPower least2 p) 8 1 p) = [] := by
  have z := sec_zero (m := least2) (ty := 1) 7 1996 1024 (by decide +kernel) (by decide +kernel) (by decide +kernel)
  have e : ∀ p < 16, pEnabledIn least2 p = false := fun p hp => by simp [pEnabledIn, z _ _ (show 64 * p + 1 ≤ 1024 by omega), nbit]
  have o : others least2 16 pSlices = 0 := by simp [others, List.range_succ, e]
  have t : ∀ f, totalOf least2 f = 0 := fun f => by simp [totalOf, List.range_succ, e]
  have a : (List.range 192).all (fun n => !sliceIn sPower n || nbit (others least2 16 pSlices) n) = false := by
    rw [o]
    decide
  have f1 : flaws 16 (fun p => flaw (layoutChange sPower least2 p) 8 1 p) = [] :=
    flaws_nil _ _ (fun p _ => by simp [layoutChange, show partOf sPower p = partitionReset from rfl, show partitionReset.state = .unused from rfl, flaw])
  have f2 : flaw (totalOf least2 pHostShare > 240 || totalOf least2 pQuota > 256) 5 1 0 = [] := by simp [t, flaw]
  rw [f1, List.append_nil, partFlaws, a, f2]
  simp only [flaw, Bool.false_eq_true, if_false, List.append_nil]
  refine flaws_nil _ _ (fun p hp => ?_)
  simp [e p hp, z _ _ (show 64 * p + 64 ≤ 1024 by omega), nbits]
theorem resv_least : resvFlaws least2 = [] := by
  have z := sec_zero (m := least2) (ty := 3) 8 3020 34816 (by decide +kernel) (by decide +kernel) (by decide +kernel)
  have : resvList least2 = [] := by
    rw [resvList, List.filterMap_eq_nil_iff]
    intro n hn
    have hn' : n < 4352 := by simpa using hn
    simp [resvEntry, z _ _ (show 2048 * (n / 256) + 8 * (n % 256) + 8 ≤ 34816 by omega), rValid, bit]
  simp [resvFlaws, this, overCaps]
theorem valid_least : validate sPower least2 = none := by
  have h1 : headFlaws least2 = [] := by decide +kernel
  have h2 : linkFlaws least2 = [] := by decide +kernel
  have h3 : claimFlaws least2 = [] := by decide +kernel
  have h4 : plainFlaws least2 = [] := by decide +kernel
  have h5 : hostBad least2 = false := by decide +kernel
  have h6 : setSeq (active sPower) < setSeq least2 := by decide +kernel
  have h7 := part_least
  simp only [List.append_eq_nil_iff] at h7
  simp only [validate, setFlaws, h1, h2, h3, h4, h5, h7.1, h7.2, share_least, resv_least]
  simp [flaw, firstFlaw, Nat.not_le.mpr h6]
theorem swap_least : swapRefused (taken sPower (rOp 2)) least2 = none := by
  have h8 : (List.range 16).any (layoutChange (taken sPower (rOp 2)) least2) = false := by
    simp only [List.any_eq_false, List.mem_range]
    intro p _
    simp [layoutChange, show (partOf (taken sPower (rOp 2)) p).state = .unused from rfl]
  have z := sec_zero (m := least2) (ty := 1) 7 1996 1024 (by decide +kernel) (by decide +kernel) (by decide +kernel)
  have t : totalOf least2 pHostShare = 0 := by
    simp [totalOf, List.range_succ, show ∀ p < 16, pEnabledIn least2 p = false from fun p hp => by
      simp [pEnabledIn, z _ _ (show 64 * p + 1 ≤ 1024 by omega), nbit]]
  have l : (List.range 32).any (fun l => ((chargesUnder (taken sPower (rOp 2)) least2 l).map (·.2)).sum > 240 ||
      (chargesUnder (taken sPower (rOp 2)) least2 l).any (fun c => c.2 > linkShare least2 l c.1)) = false := by
    simp only [List.any_eq_false, List.mem_range]
    intro l _
    simp [show chargesUnder (taken sPower (rOp 2)) least2 l = [] from rfl]
  have h9 : (List.range 16).any (partsMoved (taken sPower (rOp 2)) least2) = false := by
    simp only [List.any_eq_false, List.mem_range]
    intro p _
    simp [partsMoved, show (partOf (taken sPower (rOp 2)) p).state = .unused from rfl]
  simp [swapRefused, h8, h9, capsBroken, share_least, resv_least, t, l]
theorem valid_limit : validate sPower (limitSet sPower (be (bytesBE 2 3000) 0 2)) = none := by
  rw [show be (bytesBE 2 3000) 0 2 = 3000 by decide, limit_least]
  exact valid_least
theorem swap_limit : swapRefused (taken sPower (rOp 2)) (limitSet sPower (be (bytesBE 2 3000) 0 2)) = none := by
  rw [show be (bytesBE 2 3000) 0 2 = 3000 by decide, limit_least]
  exact swap_least
/-- Every priority is paused. -/
def paused (s : State) : State := { s with host := { s.host with paused := (List.range 8).map (fun i => (i, 2 ^ 60)) } }

/-! ## Results the manual works out -/

/-- Chapter 3, the last activation tile of a sequence batch. -/
theorem test_tile_geometry : geometry 0x04 false 1 0x10 256 512 = (131072, 0, 256) ∧ footprint (131072 + 256) = 131392 := by decide
/-- Chapter 4, an INT8 weight under a BF16 scale: -1,563 × 2^-9, INEXACT_DECODE; exact under the E8M0 scale 0x7A. -/
theorem test_int8_under_scale :
    veq (applyScale 0x07 (decodeElem 0x09 5 0xC8).1 (decodeScale 0x07 0x3D4D)).1 (.fin true 1563 1 (-9)) = true ∧
    (applyScale 0x07 (decodeElem 0x09 5 0xC8).1 (decodeScale 0x07 0x3D4D)).2 = fINEXACT ∧
    veq (applyScale 0x10 (decodeElem 0x09 5 0xC8).1 (decodeScale 0x10 0x7A)).1 (.fin true 61 1 (-5)) = true ∧
    (applyScale 0x10 (decodeElem 0x09 5 0xC8).1 (decodeScale 0x10 0x7A)).2 = 0 := by decide
/-- Chapter 4, quantising a drained row to FP8 E4M3: scale 0x81, codes 0x7A, 0xB2, 0x55 and 0x01, UNDERFLOW on the fifth step. -/
theorem test_quantise :
    (flyScale 0x10 0x04 (some (vint 1300))).1 = 0x81 ∧ (roundFloat 0x04 0 0 (.fin false 1300 1 (-2))).1 = 0x7A ∧
    (roundFloat 0x04 0 0 (.fin true 5 1 (-3))).1 = 0xB2 ∧ (roundFloat 0x04 0 0 (.fin false 837 1 (-6))).1 = 0x55 ∧
    roundFloat 0x04 0 0 (.fin false 7 1 (-12)) = (0x01, fUNDERFLOW) := by decide
/-- Chapter 6, cancellation in one group: 2^60, 2^-20 and -2^60 leave 2^-20 exactly; with 2^-40 in its place the rest is shed. -/
theorem test_cancellation :
    (windowAdd 0 1 60 0).1 = BitVec.ofNat 112 (0x3EE * 2 ^ 96 + 2 ^ 94) ∧
    (windowAdd (windowAdd (windowAdd 0 1 60 0).1 1 (-20) 0).1 (-1) 60 0).1 = BitVec.ofNat 112 (0x3EE * 2 ^ 96 + 0x4000) ∧
    (round32 (groupVal (windowAdd (windowAdd (windowAdd 0 1 60 0).1 1 (-20) 0).1 (-1) 60 0).1)).1 = 0x35800000 ∧
    gShed (windowAdd (windowAdd (windowAdd 0 1 60 0).1 1 (-40) 0).1 (-1) 60 0).1 = true ∧
    gWindow (windowAdd (windowAdd (windowAdd 0 1 60 0).1 1 (-40) 0).1 (-1) 60 0).1 = 0 := by decide
/-- Chapter 8, one sealed line and its metadata. -/
theorem test_metadata_lines :
    channelOf 0x004912345680 = 20 ∧ sliceOf 0x004912345680 = 73 ∧ tagPa 0x004912345680 = 0x0049E2468AD0 ∧ leafPa 0x004912345680 = 0x0049FC48D140 ∧
    parentOf 0x0049FC48D140 = some (some (0x0049FF891A00 * 8 + 5), 0) ∧ parentOf 0x0049FF891A00 = some (some (0x0049FFF12340 * 8), 0) ∧
    parentOf 0x0049FFF12340 = some (some (0x0049FFFE2440 * 8 + 5), 0) ∧ parentOf 0x0049FFFE2440 = some (some (0x0049FFFFC480 * 8 + 1), 0) ∧
    parentOf 0x0049FFFFC480 = some (some (0x0049FFFFF880 * 8 + 2), 0) ∧ parentOf 0x0049FFFFF880 = some (some (0x0049FFFFFF00 * 8 + 2), 0) ∧
    parentOf 0x0049FFFFFF00 = some (none, 73 * 4) := by decide
/-- Reservation 3 of partition 2: PATH 5, 48 units, 4 MiB deep, with 1,500,000 bytes in its bucket. -/
def sSend : State :=
  { withPathOn 0 { openPath with allUp := true } (withCfg (mwrite (mwrite [] 0x20 (dirBytes [(3, 4128)] 176)) 4296 (bytesLE 8 (2 ^ 63 + 5 * 2 ^ 46 + 48 * 2 ^ 34 + 4096 * 2 ^ 18))) sReady) with
    parts := [(2, { partitionReset with buckets := [(3, { tok := 1500000 * 10000000, last := 0, conf := true, live := true })] })] }
/-- Chapter 9, admitting a gradient send: 326 bounded credits; short by 616,128 bytes, it is deferred by 16,431 ns, and then leaves
34.5 bytes; twice as much is never admitted. -/
theorem test_admission :
    boundedCredits 48 = 326 ∧ (admitAt 0 2 3 2116128 sSend).1 = .deferred 16431 ∧ (admitAt 16431 2 3 2116128 sSend).1 = .accepted ∧
    (tget {} (partOf (admitAt 16431 2 3 2116128 sSend).2 2).buckets 3).tok = 345000000 ∧ (admitAt 0 2 3 4232256 sSend).1 = .notAdmitted := by decide
/-- Chapter 1, sizing the power limit: with VIN at 11.6 V the current term is 3,480 W, and the limit of 3,150 W is the smaller. -/
theorem test_power_limit : currentTerm { sOn.pkg with lastVP := [(11600, 0)] } = 3480000 ∧
    pEff { withCfg (oneSection 6 (bytesLE 2 3150)) sOn with pkg := { sOn.pkg with lastVP := [(11600, 0)] } } = 3150000 := by decide
/-- Chapter 13, a checkpoint during the next step: 6,144 chunks. -/
theorem test_chunks : plainLength [(0, 6144, 0, 4), (0, 4096, 0, 1), (0, 2048, 0, 2)] = 25769803776 ∧
    (rangeChunks 0 (0, 6144, 0, 4)).length + (rangeChunks 1 (0, 4096, 0, 1)).length + (rangeChunks 2 (0, 2048, 0, 2)).length = 6144 := by
  simp only [rangeChunks, List.length_map, List.length_range]
  decide

/-! ## What WellFormed refuses: one command for each of its checks -/

theorem test_wf_stack : wellFormed (.hbmTrainingComplete 12 true) = false ∧ wellFormed (.lineAdd 12 0 .good) = false := by decide
theorem test_wf_payload (b : Bytes) (h : 9216 < b.length) : wellFormed (.lldpFrame b) = false ∧ wellFormed (.bootData 0 b) = false := by
  simp [wellFormed, WF.upTo]
  omega
theorem test_wf_image (r : Req) (b : Bytes) (h : 0x04000000 < b.length) : wellFormed (.recoveryWrite r 0 b [] []) = false := by
  simp [wellFormed, WF.upTo]
  omega
theorem test_wf_message (r : Req) (b : Bytes) (h : 65504 < b.length) : wellFormed (.romStatus r b) = false := by
  simp [wellFormed, WF.message]
  omega
theorem test_wf_message_session : wellFormed (.romStatus { rOp 0 with sess := 2 ^ 32 } []) = false := by decide
theorem test_wf_frame (f : Frame) (h : 8192 < f.payload.length) : wellFormed (.data 0 f) = false := by
  simp [wellFormed, WF.frame]
  omega
theorem test_wf_sensor : wellFormed (.tempSample 72 0) = false := by decide
theorem test_wf_cell : wellFormed (.rowReadout 0 0 65) = false ∧ wellFormed (.drainMarkerCapture 0 0 0 68) = false := by decide
theorem test_wf_master : wellFormed (.hbmRead 0x60 0 .good) = false ∧ wellFormed (.partialWrite 0 0 65 0 .good) = false := by decide
theorem test_wf_mode : wellFormed (.hostLinkUp 13) = false ∧ wellFormed (.mgmtPortLinkUp 0) = false := by decide
theorem test_wf_numbers : wellFormed (.ptpSync ⟨0, 0, 2 ^ 16⟩ 0) = false ∧ wellFormed (.khtAck 0 (2 ^ 48) { sack := 0 }) = false ∧ wellFormed (.eventSend 18) = false := by decide
theorem test_no_table_word (nbits w : Nat) : decodeTableWord nbits w = none := rfl

/-! ## The hypotheses of each clause are met together -/

theorem test_PowerUpSequence :
    (∃ (s : State) (mv : Nat), (s.pkg.supply = .off ∨ s.pkg.supply = .failed) ∧ 11400 ≤ mv ∧ mv ≤ 14000) ∧
    (∃ (s : State), s.pkg.supply = .rising ∧ (s.pkg.pwrgood = false ∨ s.pkg.resetN = false)) ∧
    (∃ (s : State), s.pkg.supply = .rising ∧ s.pkg.pwrgood = true ∧ s.pkg.resetN = true ∧ s.boot.phase = .stopped) ∧
    (∃ (s : State) (p : BootPins), s.pkg.supply = .rising) ∧
    (∃ (s : State) (p : BootPins), s.pkg.supply = .on ∧ s.pkg.resetN = true ∧ s.boot.phase = .stopped) ∧
    (∃ (s : State) (p : BootPins), s.pkg.supply = .on ∧ s.pkg.pwrgood = true ∧ s.boot.phase = .stopped) ∧
    (∃ (s : State) (p : BootPins), s.pkg.supply = .failed ∧ s.pkg.resetN = true ∧ s.boot.phase = .stopped) ∧
    (∃ (s : State) (p : BootPins) (ns : Nat), s.pkg.supply = .tripped ∧ now s < s.pkg.tripAt + 1000000) ∧
    (∃ (s : State), s.pkg.supply = .tripped) ∧
    (∃ (s : State) (p : BootPins) (mv : Nat), s.pkg.supply = .tripped ∧ mv ≤ 14000) ∧
    (∃ (s : State) (p : BootPins), s.pkg.supply = .on ∧ s.pkg.resetN = false ∧ s.boot.phase = .stopped) ∧
    (∃ (s : State) (p : BootPins), s.pkg.supply = .on ∧ s.pkg.pwrgood = false ∧ s.boot.phase = .stopped) ∧
    (∃ (s : State) (ns : Nat), s.pkg.supply = .on ∧ 2000 ≤ ns) :=
  ⟨⟨State.reset, 11400, by decide⟩,
  ⟨{ State.reset with pkg := { pkgReset with supply := .rising } }, by decide⟩,
  ⟨{ sOn with pkg := { sOn.pkg with supply := .rising } }, by decide⟩,
  ⟨{ State.reset with pkg := { pkgReset with supply := .rising } }, ⟨0, false, false, true⟩, by decide⟩,
  ⟨{ sOn with pkg := { sOn.pkg with pwrgood := false } }, ⟨3, false, false, true⟩, by decide⟩,
  ⟨{ sOn with pkg := { sOn.pkg with resetN := false } }, ⟨2, false, false, true⟩, by decide⟩,
  ⟨{ sOn with pkg := { sOn.pkg with supply := .failed, pwrgood := false } }, ⟨0, true, false, true⟩, by decide⟩,
  ⟨{ State.reset with pkg := { pkgReset with supply := .tripped } }, ⟨0, false, false, true⟩, 9, by decide⟩,
  ⟨{ State.reset with pkg := { pkgReset with supply := .tripped } }, by decide⟩,
  ⟨{ State.reset with pkg := { pkgReset with supply := .tripped } }, ⟨0, false, false, true⟩, 12000, by decide⟩,
  ⟨{ sOn with pkg := { sOn.pkg with resetN := false } }, ⟨3, false, false, true⟩, by decide⟩,
  ⟨{ sOn with pkg := { sOn.pkg with pwrgood := false } }, ⟨2, false, false, true⟩, by decide⟩,
  ⟨sReady, 2000, by decide⟩⟩
theorem test_DeviceResetDestroysAndKeeps :
    (∃ (s : State) (ns : Nat), s.pkg.supply = .on ∧ 2000 ≤ ns) ∧
    (∃ (s : State) (ns : Nat), ns < 2000) :=
  ⟨⟨sReady, 2000, by decide⟩,
  ⟨sReady, 1999, by decide⟩⟩
theorem test_BootSlots :
    (∃ (s : State) (p : BootPins), s.pkg.supply = .on ∧ s.pkg.resetN = true ∧ s.boot.phase = .stopped ∧ tget 0 s.mrs.count 0 = 0 ∧ p.sel.toNat < 2) ∧
    (∃ (s : State) (p : BootPins), s.pkg.supply = .on ∧ s.pkg.resetN = true ∧ s.boot.phase = .stopped ∧ tget 0 s.mrs.count 0 = 0 ∧ 2 ≤ p.sel.toNat) ∧
    (∃ (s : State) (p : BootPins), s.pkg.supply = .on ∧ s.pkg.resetN = true ∧ s.boot.phase = .stopped ∧ tget 0 s.mrs.count 0 = 0 ∧ 2 ≤ p.sel.toNat) ∧
    (∃ (s : State) (a : Nat), mfWellFormed (manifestOf s a) = false) ∧
    (∃ (s : State) (a : Nat), mfWellFormed (manifestOf s a) = true ∧ bit s.fuses.revoked (mfKeyIndex (manifestOf s a)) = true) ∧
    (∃ (s : State) (a : Nat), mfSvn (manifestOf s a) < s.fuses.svn) ∧
    (∃ (s : State) (a : Nat), mfWellFormed (manifestOf s a) = true ∧ bit s.fuses.revoked (mfKeyIndex (manifestOf s a)) = false ∧
    s.boot.coRule = false ∧ mfCosign (manifestOf s a) = false ∧ mfSvn (manifestOf s a) < s.fuses.svn) ∧
    (∃ (m : Bytes), mfWellFormed m = true) :=
  ⟨⟨sOn, ⟨1, false, true, true⟩, by decide⟩,
  ⟨sOn, ⟨2, false, false, true⟩, by decide⟩,
  ⟨sOn, ⟨3, false, false, true⟩, by decide⟩,
  ⟨sOn, 1, by decide⟩,
  ⟨{ sImage with fuses := { sImage.fuses with revoked := 1 } }, 2, by decide⟩,
  ⟨{ sImage with fuses := { sImage.fuses with svn := 3 } }, 2, by decide⟩,
  ⟨{ sImage with fuses := { sImage.fuses with svn := 3 } }, 2, by decide⟩,
  ⟨manifestOf sImage 2, by decide⟩⟩
theorem test_MeasurementExtend :
    (∃ (s : State) (n : Nat) (ty : W32) (data : Bytes), tget 0 s.mrs.count n ≠ 0xFFFFFFFF) ∧
    (∃ (s : State) (n : Nat) (ty : W32) (data : Bytes), tget 0 s.mrs.count n = 0xFFFFFFFF) ∧
    (∃ (s : State) (ty : W32) (data : Bytes), fwRuns s = true ∧ tget 0 s.mrs.count 6 ≠ 0xFFFFFFFF) ∧
    (∃ (s : State) (ty : W32) (data : Bytes), fwRuns s = true ∧ tget 0 s.mrs.count 6 = 0xFFFFFFFF) ∧
    (∃ (s : State) (n : BitVec 3) (ty : W32) (data : Bytes), fwRuns s = true ∧ n ≠ 6) :=
  ⟨⟨{ sReady with mrs := { measureReset with count := [(3, 0xFFFFFFFE)] } }, 3, 4, [1], by decide⟩,
  ⟨{ sReady with mrs := { measureReset with count := [(3, 0xFFFFFFFF)] } }, 3, 4, [1], by decide⟩,
  ⟨{ sReady with mrs := { measureReset with count := [(6, 0xFFFFFFFE)] } }, 4, [1], by decide⟩,
  ⟨{ sReady with mrs := { measureReset with count := [(6, 0xFFFFFFFF)] } }, 4, [1], by decide⟩,
  ⟨sReady, 7, 4, [], by decide⟩⟩
theorem test_StartToReady :
    (∃ (s : State), s.boot.phase = .checked) ∧
    (∃ (s : State), s.boot.phase = .firmware) ∧
    (∃ (s : State) (k : BitVec 4), k.toNat < 12 ∧ s.boot.phase = .ports ∧ bit s.boot.trained k.toNat = false ∧ bit s.boot.outStacks k.toNat = false) ∧
    (∃ (s : State) (k : BitVec 4), k.toNat < 12 ∧ s.boot.phase = .ports ∧ bit s.boot.trained k.toNat = false ∧ bit s.boot.outStacks k.toNat = false) ∧
    (∃ (s : State), s.boot.phase = .ports ∧ s.boot.trained ||| s.boot.outStacks = 0xFFF ∧ s.pkg.supply = .on ∧ (∀ n, (sessOf s n).txSeq < 2 ^ 47)) :=
  ⟨⟨inBoot .checked, by decide⟩,
  ⟨inBoot .firmware, by decide⟩,
  ⟨inBoot .ports, 11, by decide⟩,
  ⟨setBoot sOn { bootReset with phase := .ports, attempts := [(11, 2)] }, 11, by decide⟩,
  ⟨setBoot sOn { bootReset with phase := .ports, trained := 0xFFE, outStacks := 1 }, by decide, by decide, by decide, fun _ => by simp [setBoot, sOn,
    sessOf, State.reset, tget, sessionReset]⟩⟩
theorem test_HostPortBootAndHalt :
    (∃ (s : State), s.boot.phase = .hostBoot ∧ bit s.pkg.refclk 2 = true ∧ s.host.up = false) ∧
    (∃ (s : State), s.boot.phase = .hostBoot ∧ bit s.pkg.refclk 2 = true ∧ s.host.up = true) ∧
    (∃ (s : State) (sender : Nat) (payload : Bytes), s.boot.phase = .hostBoot ∧ bit s.pkg.refclk 2 = true ∧ s.host.up = true ∧ 6 ≤ payload.length ∧
    payload.length - 6 = be payload 4 2 ∧ be payload 4 2 ≤ 8192 ∧ be payload 0 4 + be payload 4 2 ≤ 0x04000000 ∧
    (s.boot.sender = none ∨ s.boot.sender = some sender) ∧ (let l := s.boot.recvd ++ [(be payload 0 4,
    be payload 4 2)]; contiguous l l.length 0 < 0x214)) ∧
    (∃ (s : State) (sender : Nat) (payload : Bytes), s.boot.phase = .hostBoot ∧ bit s.pkg.refclk 2 = true ∧ s.host.up = true ∧ 6 ≤ payload.length ∧
    payload.length - 6 = be payload 4 2 ∧ be payload 4 2 ≤ 8192 ∧ be payload 0 4 + be payload 4 2 ≤ 0x04000000 ∧
    (s.boot.sender = none ∨ s.boot.sender = some sender) ∧ 0x214 ≤ (contiguous (s.boot.recvd ++ [(be payload 0 4,
    be payload 4 2)]) (s.boot.recvd ++ [(be payload 0 4, be payload 4 2)]).length 0) ∧
    srcNum (setBoot s { s.boot with image := mwrite s.boot.image (be payload 0 4) (payload.drop 6) }) 2 0x210 4 ≤ (contiguous (s.boot.recvd ++ [(be
    payload 0 4, be payload 4 2)]) (s.boot.recvd ++ [(be payload 0 4, be payload 4 2)]).length 0)) ∧
    (∃ (s : State) (sender : Nat) (payload : Bytes), s.host.up = false) ∧
    (∃ (s : State), s.boot.phase = .hostBoot ∧ bit s.pkg.refclk 2 = true) ∧
    (∃ (s : State) (sender : Nat) (payload : Bytes), bit s.pkg.refclk 2 = false) ∧
    (∃ (s : State) (r : Req) (body : Bytes), s.pkg.supply = .on ∧ s.boot.phase = .halted ∧ r.port = .mgmt ∧ HasLength r body 0) ∧
    (∃ (s : State) (r : Req) (slot : BitVec 1) (image : Bytes) (chain : Bytes) (sig : Bytes), s.pkg.supply = .on ∧ s.boot.phase = .halted ∧
    r.port = .mgmt ∧ image.length ≤ 0x04000000) ∧
    (∃ (s : State) (r : Req) (body : Bytes), s.pkg.supply = .on ∧ s.boot.phase = .halted ∧ r.port = .mgmt ∧ HasLength r body 64 ∧ reportWait s = none) ∧
    (∃ (s : State) (r : Req) (body : Bytes) (i : Req → Bytes → Instr) (op : Nat), s.pkg.supply = .on ∧ s.boot.phase = .halted ∧ r.port = .mgmt ∧ (i,
    op) ∈ [(Instr.faultLogRead, 0x0306), (Instr.configWrite, 0x0300), (Instr.linkUnretire, 0x0307), (Instr.ledgerExport, 0x0320)]) ∧
    (∃ (s : State) (i : Instr) (r : Req) (op : Nat) (rt : Rights) (lenOk : Bool) (checks : List Check) (act : State → State), s.pkg.supply = .on ∧
    s.boot.phase = .halted ∧ r.port = .mgmt) :=
  ⟨⟨inBoot .hostBoot, by decide⟩,
  ⟨{ inBoot .hostBoot with host := { sReady.host with up := true } }, by decide⟩,
  ⟨{ inBoot .hostBoot with host := { sReady.host with up := true } }, 9, [0x03, 0xFF, 0xFF, 0xFF, 0, 1, 7], by decide⟩,
  ⟨setBoot { inBoot .hostBoot with host := { sReady.host with up := true } } { bootReset with phase := .hostBoot, recvd := [(0, 0x300)] }, 9, [0, 0,
    3, 0, 0, 1, 7], by decide⟩,
  ⟨inBoot .hostBoot, 9, [], by decide⟩,
  ⟨inBoot .hostBoot, by decide⟩,
  ⟨setPkg (inBoot .hostBoot) { sOn.pkg with refclk := 0xB }, 9, [], by decide⟩,
  ⟨inBoot .halted, rq .mgmt 128 0, [], by decide⟩,
  ⟨inBoot .halted, rq .mgmt 128 0, 1, [9], [1], [2], by decide⟩,
  ⟨inBoot .halted, rq .mgmt 128 64, List.replicate 64 3, by decide⟩,
  ⟨inBoot .halted, rq .mgmt 128 2, [1, 2], Instr.linkUnretire, 0x0307, by decide, by decide, by decide, by simp⟩,
  ⟨inBoot .halted, .romStatus (rq .mgmt 128 0) [], rq .mgmt 128 0, 0x0350, .any, true, [], id, by decide⟩⟩
theorem test_PowerFailAndClocks :
    (∃ (s : State), s.pkg.supply = .on ∨ s.pkg.supply = .rising) ∧
    (∃ (s : State) (c : PowerCause), c ≠ .vinCollapse ∧ (s.pkg.supply = .on ∨ s.pkg.supply = .rising)) ∧
    (∃ (s : State), s.pkg.supply = .on) ∧
    (∃ (s : State), s.pkg.supply = .on) ∧
    (∃ (s : State), s.pkg.supply = .on) ∧
    (∃ (s : State), s.pkg.supply = .on) ∧
    (∃ (s : State), fwRuns s = true) :=
  ⟨⟨sReady, by decide⟩,
  ⟨sReady, .vinLow, by decide⟩,
  ⟨sReady, by decide⟩,
  ⟨sReady, by decide⟩,
  ⟨setLink sReady 15 { linkReset with state := .up }, by decide⟩,
  ⟨setLink sReady 16 { linkReset with state := .up }, by decide⟩,
  ⟨sReady, by decide⟩⟩
theorem test_PowerAndThrottle :
    (∃ (s : State) (mv : Nat) (ma : Nat), 14000 < mv) ∧
    (∃ (s : State) (mv : Nat) (ma : Nat), s.pkg.supply = .on ∧ mv ≤ 13200 ∧ ma ≤ 345000 ∧ (10800 ≤ mv ∨ s.pkg.underVolt < 49)) ∧
    (∃ (s : State) (mv : Nat) (ma : Nat), s.pkg.supply = .on ∧ mv ≤ 14000 ∧ 345000 < ma ∧ 4 ≤ s.pkg.overCur) ∧
    (∃ (s : State) (mv : Nat) (ma : Nat), s.pkg.supply = .on ∧ 13200 < mv ∧ mv ≤ 14000 ∧ ma ≤ 345000 ∧ 49 ≤ s.pkg.overVolt) ∧
    (∃ (s : State) (mv : Nat) (ma : Nat), s.pkg.supply = .on ∧ mv < 10800 ∧ ma ≤ 345000 ∧ 49 ≤ s.pkg.underVolt) ∧
    (∃ (s : State) (mv : Nat) (ma : Nat), s.pkg.supply = .on ∧ mv ≤ 13200 ∧ ma ≤ 345000 ∧ 10800 ≤ mv) ∧
    (∃ (s : State), s.pkg.supply = .on ∧ s.pkg.curLimiting = true) ∧
    (∃ (k : Core), 800 ≤ k.clock ∧ k.clock ≤ 3300 ∧ 1 ≤ k.issue8 ∧ k.issue8 ≤ 8) ∧
    (∃ (k : Core), 800 ≤ k.clock ∧ k.clock ≤ 3300 ∧ 1 ≤ k.issue8 ∧ k.issue8 ≤ 8) ∧
    (∃ (s : State) (c : BitVec 5), s.pkg.supply = .on) :=
  ⟨⟨sOn, 14001, 0, by decide⟩,
  ⟨sReady, 13200, 345000, by decide⟩,
  ⟨setPkg sReady { sOn.pkg with overCur := 4 }, 14000, 345001, by decide⟩,
  ⟨setPkg sReady { sOn.pkg with overVolt := 49 }, 14000, 345000, by decide⟩,
  ⟨setPkg sReady { sOn.pkg with underVolt := 49 }, 10799, 345000, by decide⟩,
  ⟨sReady, 10800, 345000, by decide⟩,
  ⟨setPkg sReady { sOn.pkg with curLimiting := true }, by decide⟩,
  ⟨{ coreReset with clock := 800, issue8 := 2 }, by decide⟩,
  ⟨{ coreReset with clock := 3300, issue8 := 8 }, by decide⟩,
  ⟨sReady, 31, by decide⟩⟩
theorem test_TemperatureSampling :
    (∃ (s : State) (i : BitVec 7) (x : Int), s.pkg.supply = .on ∧ 48 ≤ i.toNat ∧ i.toNat < 60 ∧ x < 120 * 16) ∧
    (∃ (s : State) (i : BitVec 7) (x : Int), s.pkg.supply = .on ∧ i.toNat < 48 ∧ 105 * 16 ≤ x ∧ x < 120 * 16) ∧
    (∃ (s : State) (i : BitVec 7) (x : Int), s.pkg.supply = .on ∧ i.toNat < 48 ∧ x < 102 * 16 ∧ (∀ k < 12,
    12 * (i.toNat / 12) + k ≠ i.toNat → tget 0 s.pkg.sensors (12 * (i.toNat / 12) + k) < 102 * 16)) ∧
    (∃ (s : State) (i : BitVec 7) (x : Int), s.pkg.supply = .on ∧ 60 ≤ i.toNat ∧ i.toNat < 72 ∧ x < 105 * 16) ∧
    (∃ (s : State) (i : BitVec 7) (x : Int), s.pkg.supply = .on ∧ i.toNat < 72 ∧ tripTemp i.toNat ≤ x ∧ tget false s.pkg.tripArm i.toNat = true) ∧
    (∃ (s : State) (ph : Nat), s.pkg.supply = .on) :=
  ⟨⟨sReady, 59, 1919, by decide⟩,
  ⟨sReady, 47, 1680, by decide⟩,
  ⟨sReady, 47, 1631, by decide⟩,
  ⟨sReady, 71, 1679, by decide⟩,
  ⟨setPkg sReady { sOn.pkg with tripArm := [(71, true)] }, 71, tripTemp 71, by decide⟩,
  ⟨sReady, 3, by decide⟩⟩
theorem test_BoardPort :
    (∃ (s : State) (mask : W16) (fresh : W16) (i : Nat), i2cOn s = true ∧ i < 16) ∧
    (∃ (s : State) (r : Req) (body : Bytes) (i : Nat), Served s r .o ∧ r.port = .mgmt ∧ HasLength r body 2 ∧ i < 16) ∧
    (∃ (s : State), s.pkg.supply = .off) ∧
    (∃ (s : State), s.pkg.supply ≠ .off ∧ s.pkg.alertLatch = false) ∧
    (∃ (s : State) (mask : W16) (fresh : W16) (mv : Nat) (ma : Nat), i2cOn s = true ∧ (mv < 11400 ∨ (12600 < mv ∧ mv ≤ 13200)) ∧ ma ≤ 345000 ∧
    (10800 ≤ mv ∨ s.pkg.underVolt < 49)) ∧
    (∃ (s : State) (mask : W16) (fresh : W16) (mv : Nat) (ma : Nat), i2cOn s = true ∧ (mv < 11400 ∨ (12600 < mv ∧ mv ≤ 13200)) ∧ ma ≤ 345000 ∧
    (10800 ≤ mv ∨ s.pkg.underVolt < 49)) ∧
    (∃ (s : State) (mask : W16) (fresh : W16) (i : BitVec 7) (x : Int), i2cOn s = true ∧ ((i.toNat < 48 ∧ 100 * 16 ≤ x ∧
    x < 120 * 16) ∨ (48 ≤ i.toNat ∧ i.toNat < 60 ∧ 105 * 16 ≤ x ∧ x < 120 * 16) ∨ (60 ≤ i.toNat ∧ i.toNat < 72 ∧ 95 * 16 ≤ x ∧ x < 105 * 16))) ∧
    (∃ (s : State) (mask : W16) (fresh : W16) (i : BitVec 7) (x : Int), i2cOn s = true ∧ ((i.toNat < 48 ∧ 100 * 16 ≤ x ∧
    x < 120 * 16) ∨ (48 ≤ i.toNat ∧ i.toNat < 60 ∧ 105 * 16 ≤ x ∧ x < 120 * 16) ∨ (60 ≤ i.toNat ∧ i.toNat < 72 ∧ 95 * 16 ≤ x ∧ x < 105 * 16))) ∧
    (∃ (s : State) (mask : W16) (fresh : W16) (i : BitVec 7) (x : Int), i2cOn s = true ∧ ((i.toNat < 48 ∧ 100 * 16 ≤ x ∧
    x < 120 * 16) ∨ (48 ≤ i.toNat ∧ i.toNat < 60 ∧ 105 * 16 ≤ x ∧ x < 120 * 16) ∨ (60 ≤ i.toNat ∧ i.toNat < 72 ∧ 95 * 16 ≤ x ∧ x < 105 * 16))) ∧
    (∃ (s : State) (mask : W16) (fresh : W16), i2cOn s = true ∧ s.pkg.curLimiting = true) ∧
    (∃ (s : State) (off : Byte) (v : W16), i2cOn s = true ∧ off ≠ 0x04) ∧
    (∃ (s : State) (off : Nat), 0x12 < off) :=
  ⟨⟨sReady, 1, 3, 15, by decide⟩,
  ⟨sOp, { rOp 2 with recurs := 0x8000 }, [0xFF, 0xFF], 15, by decide⟩,
  ⟨State.reset, by decide⟩,
  ⟨sOn, by decide⟩,
  ⟨sReady, 4, 0, 11399, 345000, by decide⟩,
  ⟨sReady, 8, 0, 13200, 0, by decide⟩,
  ⟨sReady, 16, 0, 47, 1600, by decide⟩,
  ⟨sReady, 16, 0, 59, 1680, by decide⟩,
  ⟨sReady, 32, 0, 71, 1520, by decide⟩,
  ⟨setPkg sReady { sOn.pkg with curLimiting := true }, 2, 0, by decide⟩,
  ⟨sReady, 0, 7, by decide⟩,
  ⟨sOn, 0x13, by decide⟩⟩
theorem test_TestPortsAndPulse :
    (∃ (s : State), s.pkg.supply = .on ∧ now s % 1000000000 = 0 ∧ s.time.lastPps = none) ∧
    (∃ (s : State) (p : Nat), s.time.lastPps = some p ∧ s.time.moved = true ∧ now s < p + 500000000) ∧
    (∃ (s : State) (w : Nat), w < 1000) ∧
    (∃ (s : State) (w : Nat), 1000 ≤ w ∧ s.pkg.supply = .on ∧ ppsAssist s = false) ∧
    (∃ (s : State) (w : Nat), 1000 ≤ w ∧ s.pkg.supply = .on ∧ ppsAssist s = true ∧ fwRuns s = true ∧
    500 < (((now s / 8 * 8) : Int) - wholeSeconds (now s / 8 * 8) : Int).natAbs) ∧
    (∃ (s : State) (w : Nat), 1000 ≤ w ∧ s.pkg.supply = .on ∧ ppsAssist s = true ∧ fwRuns s = true ∧
    (((now s / 8 * 8) : Int) - wholeSeconds (now s / 8 * 8) : Int).natAbs ≤ 500 ∧ steered s = false) ∧
    (∃ (s : State) (w : Nat), 1000 ≤ w ∧ s.pkg.supply = .on ∧ ppsAssist s = true ∧ fwRuns s = true ∧
    (((now s / 8 * 8) : Int) - wholeSeconds (now s / 8 * 8) : Int).natAbs ≤ 500 ∧ steered s = true ∧ s.time.half = false) ∧
    (∃ (s : State), tapOn s = true) ∧
    (∃ (s : State) (code : Byte) (tdi : Bool), tapOn s = true ∧ code ∉ ([0x00, 0x01, 0x02, 0x20, 0x21, 0x22, 0x30] : List Byte)) ∧
    (∃ (s : State) (scan : Nat), tapOn s = true ∧ s.pkg.resetN = true) ∧
    (∃ (s : State) (code : Byte) (tdi : Bool) (scan : Nat), s.pkg.trstN = false) ∧
    (∃ (s : State) (scan : Nat), tapOn s = true ∧ s.pkg.resetN = false) ∧
    (∃ (s : State), tapOn s = true) ∧
    (∃ (s : State) (k : DebugToken), tapOn s = true) ∧
    (∃ (s : State), tapOn s = true) ∧
    (∃ (s : State) (op : DebugOp), tapOn s = true ∧ debugOpenAt s op.die.toNat = false) ∧
    (∃ (s : State) (op : DebugOp), tapOn s = true ∧ debugOpenAt s 1 = true ∧ op.die = 1 ∧ (ctxOf s op.ctx.toNat).state = .free) ∧
    (∃ (s : State) (op : DebugOp), tapOn s = true ∧ debugOpenAt s op.die.toNat = true ∧ op.die ≠ 1) ∧
    (∃ (s : State), s.fuses.lifecycle = .retired ∨ s.fuses.lifecycle = .prod) :=
  ⟨⟨{ sReady with time := { timeReset with base := 1000000000 } }, by decide⟩,
  ⟨{ sReady with time := { timeReset with base := 1499999999, lastPps := some 1000000000, moved := true } }, 1000000000, by decide⟩,
  ⟨sReady, 999, by decide⟩,
  ⟨{ sReady with time := { timeReset with base := 17 } }, 1000, by decide⟩,
  ⟨{ sEth [0, 0x80] with time := { timeReset with base := 1000000600 } }, 1000, by decide⟩,
  ⟨{ sEth [0, 0x80] with time := { timeReset with base := 1000000400 } }, 1000, by decide⟩,
  ⟨{ sEth [0, 0x80] with time := { timeReset with base := 1000000400, ptp := .locked } }, 1000, by decide⟩,
  ⟨sReady, by decide⟩,
  ⟨sReady, 0x03, true, by decide⟩,
  ⟨sReady, 9, by decide⟩,
  ⟨setPkg sReady { sOn.pkg with trstN := false }, 3, true, 9, by decide⟩,
  ⟨setPkg sReady { sOn.pkg with resetN := false }, 9, by decide⟩,
  ⟨sReady, by decide⟩,
  ⟨sReady, token1, by decide⟩,
  ⟨sReady, by decide⟩,
  ⟨sReady, ⟨2, 0, 0, false, 0⟩, by decide⟩,
  ⟨sDebug, ⟨1, 3, 0, false, 0⟩, by decide⟩,
  ⟨sDebug, ⟨0, 3, 0, false, 0⟩, by decide⟩,
  ⟨sReady, by decide⟩⟩
theorem test_DebugAndLifecycle :
    (∃ (s : State) (k : DebugToken), s.pkg.supply = .on ∧ s.fuses.lifecycle = .prod ∧ s.jtag.tokJtag = some k ∧ s.jtag.tokMgmt = none ∧
    tget 0 s.mrs.count 7 < 0xFFFFFFFE) ∧
    (∃ (s : State) (k : DebugToken), s.pkg.supply = .on ∧ s.fuses.lifecycle = .dev ∧ s.jtag.tokJtag = some k ∧ s.jtag.tokMgmt = none) ∧
    (∃ (s : State) (k : DebugToken) (m : DebugToken × Req), s.pkg.supply = .on ∧ s.fuses.lifecycle = .retired ∧ s.jtag.tokJtag = some k ∧
    s.jtag.tokMgmt = some m) ∧
    (∃ (s : State) (k : DebugToken), s.pkg.supply = .on ∧ s.jtag.tokJtag = some k) ∧
    (∃ (s : State) (n : Digest × Nat), s.jtag.nonce = some n) ∧
    (∃ (s : State), s.fuses.lifecycle = .prodDebug ∧ s.pkg.supply = .on) ∧
    (∃ (s : State) (serial : W64) (secret : Nat) (keys : Tbl Digest) (dk : Digest) (tk : Digest) (cert : Bytes), s.fuses.lifecycle = .blank) ∧
    (∃ (s : State) (serial : W64) (secret : Nat) (keys : Tbl Digest) (dk : Digest) (tk : Digest) (cert : Bytes), s.fuses.lifecycle ≠ .blank) ∧
    (∃ (s : State), s.fuses.lifecycle = .dev) ∧
    (∃ (s : State), s.fuses.lifecycle ≠ .dev) :=
  ⟨⟨withToken { sReady with mrs := { measureReset with count := [(7, 0xFFFFFFFD)] } }, token1, by decide⟩,
  ⟨inLife .dev (withToken sReady), token1, by decide⟩,
  ⟨inLife .retired { withToken sReady with jtag := { jtagReset with tokJtag := some token1, tokMgmt := some (token1, rOp 0) } }, token1, (token1,
    rOp 0), by decide⟩,
  ⟨withToken sReady, token1, by decide⟩,
  ⟨{ sReady with jtag := { jtagReset with nonce := some (5, 0) } }, (5, 0), by decide⟩,
  ⟨sDebug, by decide⟩,
  ⟨State.reset, 5, 7, [], 1, 2, [3], by decide⟩,
  ⟨inLife .retired sOn, 5, 7, [], 1, 2, [3], by decide⟩,
  ⟨inLife .dev sOn, by decide⟩,
  ⟨sOn, by decide⟩⟩
theorem test_InformationRequests :
    (∃ (s : State) (r : Req) (body : Bytes), Admitted s r .any ∧ HasLength r body 64 ∧ reportWait (taken s r) = none) ∧
    (∃ (s : State) (r : Req) (body : Bytes) (at_ : Nat), Admitted s r .any ∧ HasLength r body 64 ∧ reportWait (taken s r) = some at_) ∧
    (∃ (s : State) (r : Req) (body : Bytes), Served s r .any ∧ r.port = .host ∧ HasLength r body 0) ∧
    (∃ (s : State) (r : Req) (body : Bytes), Served s r .any ∧ HasLength r body 0) ∧
    (∃ (s : State) (r : Req) (body : Bytes), Served s r .any ∧ HasLength r body 0) ∧
    (∃ (s : State) (r : Req) (body : Bytes), Served s r .o ∧ r.port = .mgmt ∧ HasLength r body 0) ∧
    (∃ (s : State) (r : Req) (body : Bytes), Served s r .any ∧ r.port = .host ∧ HasLength r body 0) ∧
    (∃ (s : State) (r : Req) (body : Bytes), Served s r .o ∧ r.port = .mgmt ∧ HasLength r body 0) ∧
    (∃ (s : State) (r : Req) (op : W16), Served s r .any ∧ (ctxOf s r.ctx.toNat).state = .free) ∧
    (∃ (s : State) (l : Nat), fwRuns s = true ∧ l < 32 ∧ linkUp s l = true ∧ linkClaim s l 1 ≠ none ∧ (∀ j < 32,
    j ≠ l → linkUp s j = false ∨ linkClaim s j 1 = none)) :=
  ⟨⟨sOp, rOp 64, List.replicate 64 3, by decide⟩,
  ⟨{ sOp with time := { timeReset with base := 999999999, reports := List.replicate 1000 0 } }, rOp 64, List.replicate 64 3, 1000000000, by decide⟩,
  ⟨sHost, rTen 0, [], by decide⟩,
  ⟨sHost, rTen 0, [], by decide⟩,
  ⟨sHost, rFab 0, [], by decide⟩,
  ⟨sOp, rOp 0, [], by decide⟩,
  ⟨sHost, rTen 0, [], by decide⟩,
  ⟨sOp, rOp 0, [], by decide⟩,
  ⟨sHost, rTen 0, 0x7FFF, by decide⟩,
  ⟨withLink 31 upLink (withCfg (claimSet 31 1) sReady), 31, by decide⟩⟩
theorem test_ConfigurationMessages :
    (∃ (s : State) (r : Req) (body : Bytes), Served s r .o ∧ r.port = .mgmt ∧ 5 ≤ body.length ∧ r.bodyLen.toNat = body.length ∧
    be body 0 4 + (body.length - 4) ≤ 65536 ∧ (s.cfg.lock = none ∨ s.cfg.lock = some r.sess)) ∧
    (∃ (s : State) (p : Nat) (n : Nat) (v : Nat), p < 16 ∧ ((n = 10 ∧ v = 4) ∨ (n = 12 ∧ v = 100)) ∧ (secIndex s.cfg.shadow 1).isSome = true ∧
    pEnabledIn s.cfg.shadow p = true ∧ (∀ w ∈ s.cfg.wrote, secOff s.cfg.shadow 1 + 64 * p + n < w.1 ∨ w.1 + w.2 ≤ secOff s.cfg.shadow 1 + 64 * p + n)
    ∧ 176 ≤ secOff s.cfg.shadow 1) ∧
    (∃ (s : State) (r : Req) (body : Bytes), Served s r .o ∧ r.port = .mgmt ∧ HasLength r body 0 ∧ (s.cfg.lock = none ∨ s.cfg.lock = some r.sess)) ∧
    (∃ (s : State) (r : Req) (body : Bytes), Served s r .o ∧ r.port = .mgmt ∧ HasLength r body 0 ∧ s.cfg.lock = some r.sess ∧ s.cfg.valid = true ∧
    swapMode (shadowSet s) = 2) ∧
    (∃ (s : State) (r : Req) (body : Bytes), Served s r .o ∧ r.port = .mgmt ∧ HasLength r body 0 ∧ s.cfg.lock = some r.sess ∧ s.cfg.valid = true ∧
    swapMode (shadowSet s) = 1 ∧ swapRefused (taken s r) (shadowSet s) = none) ∧
    (∃ (s : State), fwRuns s = true ∧ s.cfg.fresh = true) ∧
    (∃ (s : State) (r : Req) (body : Bytes), Served s r .o ∧ r.port = .mgmt ∧ HasLength r body 9 ∧ be body 0 1 ≤ 1 ∧ be body 5 4 ≤ 65504 ∧
    be body 1 4 + be body 5 4 ≤ 65536) ∧
    (∃ (s : State) (r : Req) (body : Bytes), Served s r .o ∧ r.port = .mgmt ∧ HasLength r body 2 ∧ 1800 ≤ be body 0 2 ∧ be body 0 2 ≤ 3600 ∧
    be body 0 2 % 10 = 0 ∧ (s.cfg.lock = none ∨ s.cfg.lock = some r.sess) ∧ s.cfg.armed = none ∧ validate s (limitSet s (be body 0 2)) = none ∧
    swapRefused (taken s r) (limitSet s (be body 0 2)) = none) ∧
    (∃ (s : State) (r : Req) (body : Bytes), Served s r .o ∧ r.port = .mgmt ∧ 5 ≤ body.length ∧ r.bodyLen.toNat = body.length ∧
    be body 0 4 + (body.length - 4) ≤ 65536 ∧ s.cfg.lock ≠ none ∧ s.cfg.lock ≠ some r.sess) :=
  ⟨⟨sOp, rOp 5, [0, 0, 0xFF, 0xFF, 1], by decide⟩,
  ⟨{ sOn with cfg := { cfgReset with shadow := oneSection 1 partsSec } }, 2, 12, 100, by decide, by decide, by decide, by decide, by simp [sOn,
    cfgReset], by decide⟩,
  ⟨sOp, rOp 0, [], by decide⟩,
  ⟨sLocked, rOp 0, [], by decide⟩,
  ⟨{ sLocked with cfg := { sLocked.cfg with shadow := mwrite [] 0x10 [1] } }, rOp 0, [], by decide⟩,
  ⟨{ sReady with cfg := { cfgReset with fresh := true } }, by decide⟩,
  ⟨sOp, rOp 9, [1, 0, 0, 0, 0x20, 0, 0, 0xFF, 0xE0], by decide⟩,
  ⟨sPower, rOp 2, bytesBE 2 3000, by decide, by decide, by decide, by decide, by decide, by decide, by decide, by decide, valid_limit, swap_limit⟩,
  ⟨{ sOp with cfg := { sOp.cfg with lock := some 130 } }, rOp 5, [0, 0, 0, 0, 1], by decide⟩⟩
theorem test_ManagementAndFirmware :
    (∃ (s : State) (r : Req) (body : Bytes), Served s r .o ∧ r.port = .mgmt ∧ HasLength r body 6 ∧ be body 0 4 < 4096 ∧ be body 4 2 < 0xFFFF) ∧
    (∃ (s : State) (r : Req) (body : Bytes), Served s r .o ∧ r.port = .mgmt ∧ HasLength r body 1 ∧ be body 0 1 < 32 ∧
    linkSt s (be body 0 1) = .retired) ∧
    (∃ (s : State) (r : Req) (body : Bytes), Served s r .o ∧ r.port = .mgmt ∧ r.bodyLen.toNat = body.length) ∧
    (∃ (s : State) (m : Byte), s.mgmt.up = false ∧ fwRuns s = true ∧ (m = 1 ∨ m = 2) ∧ (s.nvm.mgNet.mode = 0 ∨ s.nvm.mgNet.mode.toNat = m.toNat)) ∧
    (∃ (s : State), s.mgmt.up = false ∧ bootHalted s = true) ∧
    (∃ (s : State), s.mgmt.up = true) ∧
    (∃ (s : State) (r : Req) (body : Bytes), Served s r .o ∧ r.port = .mgmt ∧ HasLength r body 5 ∧ be body 0 1 ≤ 1 ∧
    be body 0 1 ≠ s.boot.source.toNat ∧ 0 < be body 1 4 ∧ be body 1 4 ≤ 0x04000000) ∧
    (∃ (s : State) (r : Req) (body : Bytes) (n : Nat) (len : Nat) (done : Nat), Served s r .o ∧ r.port = .mgmt ∧ 4 ≤ body.length ∧
    r.bodyLen.toNat = body.length ∧ s.nvm.stageSlot = some (n, len, done) ∧ be body 0 4 = done ∧ body.length - 4 ≤ 32768 ∧
    done + (body.length - 4) ≤ len) ∧
    (∃ (s : State) (r : Req) (body : Bytes) (n : Nat) (len : Nat) (done : Nat), Served s r .o ∧ r.port = .mgmt ∧ HasLength r body 0 ∧
    s.nvm.stageSlot = some (n, len, done)) ∧
    (∃ (s : State) (r : Req) (body : Bytes), Served s r .o ∧ r.port = .mgmt ∧ HasLength r body 0 ∧ s.nvm.staged ≠ none ∧ s.nvm.activation = none ∧
    s.boot.source.toNat ≤ 1) ∧
    (∃ (s : State) (r : Req) (body : Bytes) (copy : Bytes), Served s r .o ∧ r.port = .mgmt ∧ HasLength r body 0 ∧ s.nvm.activation = some copy) ∧
    (∃ (s : State) (r : Req) (body : Bytes), Served s r .o ∧ r.port = .mgmt ∧ HasLength r body 1 ∧ be body 0 1 = s.fuses.svn) ∧
    (∃ (s : State) (r : Req) (body : Bytes), Served s r .o ∧ r.port = .mgmt ∧ HasLength r body 1 ∧ s.fuses.svn < be body 0 1 ∧
    be body 0 1 ≤ s.boot.fwSvn.toNat ∧ s.boot.source = 2) ∧
    (∃ (s : State) (r : Req) (body : Bytes), Served s r .o ∧ r.port = .mgmt ∧ HasLength r body 1 ∧ be body 0 1 ≤ 1 ∧ (be body 0 1 = 0 → ∀ p < 16,
    (partOf s p).state = .unused)) ∧
    (∃ (s : State) (r : Req) (body : Bytes), Served s r .o ∧ r.port = .mgmt ∧ HasLength r body 1 ∧ be body 0 1 = 0 ∧ (∃ p < 16,
    (partOf s p).state = .assigned ∨ (partOf s p).state = .charter ∨ (partOf s p).state = .resetting ∨ (partOf s p).state = .scrubbing)) :=
  ⟨⟨{ sOp with nvm := { nvmReset with faultLog := [{}] } }, rOp 6, [0, 0, 0, 0, 0xFF, 0xFE], by decide⟩,
  ⟨withLink 31 { linkReset with state := .retired } sOp, rOp 1, [31], by decide⟩,
  ⟨sOp, rOp 3, [1, 2, 3], by decide⟩,
  ⟨sReady, 2, by decide⟩,
  ⟨inBoot .halted, by decide⟩,
  ⟨{ sReady with mgmt := { mgmtReset with up := true, mode := 1 } }, by decide⟩,
  ⟨fromSlot 0 sOp, rOp 5, [1, 4, 0, 0, 0], by decide⟩,
  ⟨staging sOp, rOp 8, [0, 0, 0, 4, 1, 2, 3, 4], 1, 8, 4, by decide⟩,
  ⟨staging sOp, rOp 0, [], 1, 8, 4, by decide⟩,
  ⟨fromSlot 1 { sOp with nvm := { nvmReset with staged := some 0 } }, rOp 0, [], by decide⟩,
  ⟨fromSlot 1 { sOp with nvm := { nvmReset with activation := some [1, 2] } }, rOp 0, [], [1, 2], by decide⟩,
  ⟨sOp, rOp 1, [0], by decide⟩,
  ⟨fromSlot 2 { sOp with fuses := { sOp.fuses with svn := 63 } }, rOp 1, [64], by decide⟩,
  ⟨sOp, rOp 1, [0], by decide⟩,
  ⟨modPart 15 (fun q => { q with state := .scrubbing }) sOp, rOp 1, [0], by decide, rfl, by decide, rfl, 15, by decide, by decide⟩⟩
theorem test_LedgerAndTitle :
    (∃ (s : State) (r : Req) (body : Bytes), Served s r .o ∧ r.port = .mgmt ∧ HasLength r body 0 ∧ s.fuses.lifecycle = .prod ∧ (∀ p < 16,
    (partOf s p).state = .unused) ∧ s.mgmt.slRun = false) ∧
    (∃ (s : State), fwRuns s = true ∧ s.mgmt.slRun = true ∧ tget 0 s.ledger.counters 13 < 0xFFFE) ∧
    (∃ (s : State) (r : Req) (body : Bytes), Admitted s r .any ∧ r.port = .mgmt ∧ HasLength r body 64) ∧
    (∃ (s : State) (r : Req) (body : Bytes), Admitted s r .h ∧ s.fuses.lifecycle ≠ .retired ∧ r.port = .mgmt ∧ HasLength r body 0) ∧
    (∃ (s : State) (n : Digest × Nat), s.mgmt.challenge = some n) ∧
    (∃ (s : State) (r : Req) (body : Bytes), Admitted s r .h ∧ s.fuses.lifecycle ≠ .retired ∧ r.port = .mgmt ∧ HasLength r body 590 ∧
    s.fuses.ownerEpoch < 64 ∧ be body 197 1 ≤ 1) ∧
    (∃ (s : State) (q : TitleRun) (x : Title) (e : Nat), s.mgmt.titleRun = some q ∧ s.nvm.pendTitle = some (x, e) ∧ q.done = 1) ∧
    (∃ (s : State) (q : TitleRun) (x : Title) (e : Nat), s.mgmt.titleRun = some q ∧ s.nvm.pendTitle = some (x, e) ∧ q.done = 2 ∧
    now s < q.at_ + 60000000) ∧
    (∃ (s : State) (q : TitleRun) (x : Title) (e : Nat), s.mgmt.titleRun = some q ∧ s.nvm.pendTitle = some (x, e) ∧ q.done = 2 ∧
    q.at_ + 60000000 ≤ now s) ∧
    (∃ (s : State) (q : TitleRun) (x : Title) (e : Nat), s.mgmt.titleRun = some q ∧ s.nvm.pendTitle = some (x, e) ∧ q.done = 3 ∧
    now s < q.at_ + 100000000) ∧
    (∃ (s : State) (q : TitleRun) (x : Title) (e : Nat), s.mgmt.titleRun = some q ∧ s.nvm.pendTitle = some (x, e) ∧ q.done = 3 ∧
    q.at_ + 100000000 ≤ now s) ∧
    (∃ (s : State) (r : Req) (body : Bytes), Served s r .h ∧ r.port = .mgmt ∧ HasLength r body 64) ∧
    (∃ (s : State) (r : Req) (body : Bytes), Served s r .h ∧ r.port = .mgmt ∧ HasLength r body 65 ∧ be body 0 1 = 0 ∧ s.nvm.activation = none) ∧
    (∃ (s : State) (r : Req) (body : Bytes), Served s r .h ∧ r.port = .mgmt ∧ HasLength r body 132 ∧ s.fuses.lifecycle = .prod) ∧
    (∃ (s : State) (r : Req) (body : Bytes), Served s r .o ∧ r.port = .mgmt ∧ r.bodyLen.toNat = body.length ∧ s.jtag.tokMgmt = none) :=
  ⟨⟨sOp, rOp 0, [], by decide⟩,
  ⟨{ sReady with mgmt := { mgmtReset with slRun := true }, ledger := { ledgerReset with counters := [(13, 0xFFFD)] } }, by decide⟩,
  ⟨sOp, rOp 64, List.replicate 64 3, by decide⟩,
  ⟨sTitle, rTitle 0, [], by decide⟩,
  ⟨{ sReady with mgmt := { mgmtReset with challenge := some (5, 0) } }, (5, 0), by decide⟩,
  ⟨{ sTitle with fuses := { sTitle.fuses with ownerEpoch := 63 } }, rTitle 590, List.replicate 590 1, by decide⟩,
  ⟨{ sReady with mgmt := { mgmtReset with titleRun := some ⟨rTitle 590, 1, 0⟩ }, nvm := { nvmReset with pendTitle := some (nvmReset.title, 1) }, time := { timeReset with base := 50000000 } },
    ⟨rTitle 590, 1, 0⟩, nvmReset.title, 1, by decide⟩,
  ⟨{ sReady with mgmt := { mgmtReset with titleRun := some ⟨rTitle 590, 2, 0⟩ }, nvm := { nvmReset with pendTitle := some (nvmReset.title, 1) }, time := { timeReset with base := 59999999 } },
    ⟨rTitle 590, 2, 0⟩, nvmReset.title, 1, by decide⟩,
  ⟨{ sReady with mgmt := { mgmtReset with titleRun := some ⟨rTitle 590, 2, 0⟩ }, nvm := { nvmReset with pendTitle := some (nvmReset.title, 1) }, time := { timeReset with base := 60000000 } },
    ⟨rTitle 590, 2, 0⟩, nvmReset.title, 1, by decide⟩,
  ⟨{ sReady with mgmt := { mgmtReset with titleRun := some ⟨rTitle 590, 3, 0⟩ }, nvm := { nvmReset with pendTitle := some (nvmReset.title, 1) }, time := { timeReset with base := 99999999 } },
    ⟨rTitle 590, 3, 0⟩, nvmReset.title, 1, by decide⟩,
  ⟨{ sReady with mgmt := { mgmtReset with titleRun := some ⟨rTitle 590, 3, 0⟩ }, nvm := { nvmReset with pendTitle := some (nvmReset.title, 1) }, time := { timeReset with base := 100000000 } },
    ⟨rTitle 590, 3, 0⟩, nvmReset.title, 1, by decide⟩,
  ⟨sTitle, rTitle 64, List.replicate 64 3, by decide⟩,
  ⟨sTitle, rTitle 65, List.replicate 65 0, by decide⟩,
  ⟨sTitle, rTitle 132, List.replicate 132 3, by decide⟩,
  ⟨sOp, rOp 2, [1, 2], by decide⟩⟩
theorem test_DescriptorAndBanks :
    (∃ (s : State) (core : BitVec 5) (g : Nat) (d : BitVec 512) (both : Bool), matHead s core.toNat = some (g, d, both) ∧
    coreLive s core.toNat = true ∧ (arrOf s core.toNat).run = none ∧ matNoop d = true ∧
    firstFailure (matChecks (matPopped core.toNat g both (foldBoundary core.toNat s)) core.toNat g d) = none) ∧
    (∃ (s : State) (core : BitVec 5) (g : Nat) (d : BitVec 512) (both : Bool) (st : Status), matHead s core.toNat = some (g, d, both) ∧
    coreLive s core.toNat = true ∧ (arrOf s core.toNat).run = none ∧
    firstFailure (matChecks (matPopped core.toNat g both (foldBoundary core.toNat s)) core.toNat g d) = some st) ∧
    (∃ (s : State) (core : BitVec 5) (g : Nat) (d : BitVec 512) (both : Bool) (st : Status), matHead s core.toNat = some (g, d, both) ∧
    coreLive s core.toNat = true ∧ (arrOf s core.toNat).run = none) ∧
    (∃ (s : State) (core : BitVec 5) (g : Nat) (d : BitVec 512) (both : Bool), matHead s core.toNat = some (g, d, both) ∧
    coreLive s core.toNat = true ∧ (arrOf s core.toNat).run = none ∧ matNoop d = false ∧
    firstFailure (matChecks (matPopped core.toNat g both (foldBoundary core.toNat s)) core.toNat g d) = none ∧ (∃ sp ∈ activeSplits d,
    splitFail (matPopped core.toNat g both (foldBoundary core.toNat s)) core.toNat d (cfgSlot s core.toNat (mCfg d)) sp sp = none)) ∧
    (∃ (s : State) (core : BitVec 5) (g : Nat) (d : BitVec 512) (both : Bool) (a : Nat) (l : List Nat) (e : Nat × Nat × Status),
    matHead s core.toNat = some (g, d, both) ∧ coreLive s core.toNat = true ∧ (arrOf s core.toNat).run = none ∧ matNoop d = false ∧
    activeSplits d = a :: l ∧ firstFailure (matChecks (matPopped core.toNat g both (foldBoundary core.toNat s)) core.toNat g d) = none ∧
    splitFail (matPopped core.toNat g both (foldBoundary core.toNat s)) core.toNat d (cfgSlot s core.toNat (mCfg d)) a a = some e ∧
    (∀ sp ∈ activeSplits d, splitFail (matPopped core.toNat g both (foldBoundary core.toNat s)) core.toNat d (cfgSlot s core.toNat (mCfg d)) sp sp ≠
    none ∧ splitFail (matPopped core.toNat g both (foldBoundary core.toNat s)) core.toNat d (cfgSlot s core.toNat (mCfg d)) a sp ≠ none)) ∧
    (∃ (s : State) (core : BitVec 5) (a : BitVec 2) (b : BitVec 1) (r : MatRun) (cp : Nat) (ch : Nat), Running s core.toNat r ∧ r.saving = false ∧
    arrIn s core.toNat a.toNat = true ∧ (loadSeq s core.toNat r)[tget 0 r.loads a.toNat]? = some (cp, ch) ∧ tget 0 r.loads a.toNat % 2 = b.toNat ∧
    (tget ({} : Bank) (arrOf s core.toNat).banks (2 * a.toNat + b.toNat)).state = .filling) ∧
    (∃ (s : State) (core : BitVec 5) (a : BitVec 2) (b : BitVec 1), coreLive s core.toNat = true ∧
    (tget ({} : Bank) (arrOf s core.toNat).banks (2 * a.toNat + b.toNat)).state = .releasing) ∧
    (∃ (s : State) (core : BitVec 5) (a : BitVec 2) (b : BitVec 1),
    (tget ({} : Bank) (arrOf s core.toNat).banks (2 * a.toNat + b.toNat)).state ≠ .releasing) ∧
    (∃ (s : State) (core : BitVec 5) (a : BitVec 2) (b : BitVec 1) (r : MatRun), (arrOf s core.toNat).run = some r ∧
    tget 0 r.loads a.toNat % 2 ≠ b.toNat) :=
  ⟨⟨withArr { queue := [(1, [0x720])] }, 31, 1, 0x720, false, by decide⟩,
  ⟨withArr { queue := [(1, [matmul1])] }, 31, 1, matmul1, false, .badDescriptor, by decide⟩,
  ⟨withArr { queue := [(1, [matmul1])] }, 31, 1, matmul1, false, .ok, by decide⟩,
  ⟨withTiles (withArr { queue := [(1, [matmul2])] }), 31, 1, matmul2, false, by decide⟩,
  ⟨withArr { queue := [(1, [matmul2])] }, 31, 1, matmul2, false, 0, [], (unitAddr 31 0, 1, .checksumFail), by decide⟩,
  ⟨withArr { run := some { run1 with loads := [] } }, 31, 0, 0, { run1 with loads := [] }, 0, 0, by decide⟩,
  ⟨withArr { banks := [(7, { state := .releasing })] }, 31, 3, 1, by decide⟩,
  ⟨withArr {}, 31, 3, 1, by decide⟩,
  ⟨withArr { run := some run1 }, 31, 0, 0, run1, by decide⟩⟩
theorem test_WavefrontAndCells :
    (∃ (s : State) (core : BitVec 5) (r : MatRun) (it : MatItem) (b : RowBlk), Running s core.toNat r ∧ r.saving = false ∧ isDrainOp r.desc = false ∧
    r.pendDrain = none ∧ r.drain = none ∧ r.plan[r.cur.item]? = some it ∧ it.blks[r.cur.block]? = some b ∧ (r.cur.item = 0 ∨ it.dry = true ∨ ∀ q,
    r.plan[r.cur.item - 1]? = some q → q.dry = false) ∧ (∀ a ∈ busyArrays s core.toNat r.desc it.cpass,
    loadAt s core.toNat r r.cur.item r.cur.chunk < tget 0 r.loads a)) ∧
    (∃ (s : State) (core : BitVec 5) (r : MatRun) (it : MatItem) (b : RowBlk), (arrOf s core.toNat).run = some r ∧ isDrainOp r.desc = false ∧
    r.pendDrain = none ∧ r.plan[r.cur.item]? = some it ∧ it.blks[r.cur.block]? = some b ∧ r.cur.item = 0 ∧
    (∃ a ∈ busyArrays s core.toNat r.desc it.cpass, tget 0 r.loads a ≤ loadAt s core.toNat r r.cur.item r.cur.chunk) ∧
    ((loadAt s core.toNat r r.cur.item r.cur.chunk) = 0 ∨ ∀ a ∈ busyArrays s core.toNat r.desc it.cpass,
    ¬(fun a => (tget ({} : Bank) (arrOf s core.toNat).banks (2 * a + (loadAt s core.toNat r r.cur.item r.cur.chunk) % 2)).state = .active) a)) ∧
    (∃ (s : State) (core : BitVec 5) (r : MatRun) (it : MatItem) (b : RowBlk), (arrOf s core.toNat).run = some r ∧ isDrainOp r.desc = false ∧
    r.pendDrain = none ∧ r.plan[r.cur.item]? = some it ∧ it.blks[r.cur.block]? = some b ∧ r.cur.item = 0 ∧
    (∃ a ∈ busyArrays s core.toNat r.desc it.cpass, tget 0 r.loads a ≤ loadAt s core.toNat r r.cur.item r.cur.chunk) ∧ Running s core.toNat r ∧
    r.saving = false ∧ 0 < (loadAt s core.toNat r r.cur.item r.cur.chunk) ∧ (∃ a ∈ busyArrays s core.toNat r.desc it.cpass,
    (fun a => (tget ({} : Bank) (arrOf s core.toNat).banks (2 * a + (loadAt s core.toNat r r.cur.item r.cur.chunk) % 2)).state = .active) a)) ∧
    (∃ (s : State) (core : BitVec 5), (arrOf s core.toNat).run = none) ∧
    (∃ (s : State) (core : BitVec 5) (a : BitVec 2) (row : BitVec 7) (col : BitVec 7) (r : MatRun) (n : Nat) (done : Bool) (w : Wave) (sp : Nat) (i :
    Nat), Running s core.toNat r ∧ row.toNat ≤ 64 ∧ col.toNat < 68 ∧ nextWave s core.toNat (cellKey a.toNat row.toNat col.toNat) = some (n, done,
    w) ∧ (tDrain w.tag = true → done = true) ∧ cellSplit s core.toNat a.toNat col.toNat w.cpass r = some sp ∧
    logicalRow s core.toNat a.toNat row.toNat = some i ∧ tOperands w.tag = true ∧ tValid w.tag sp = true ∧
    (i = 64 ∨ i < ((w.blk.parts.find? (fun p => p.1 == sp)).map (fun p => p.2.2)).getD 0) ∧ (row.toNat ≠ 64 ∨ col.toNat < 64)) ∧
    (∃ (s : State) (core : BitVec 5) (a : BitVec 2) (row : BitVec 7) (col : BitVec 7) (r : MatRun) (n : Nat) (w : Wave) (dr : MatDrain),
    Running s core.toNat r ∧ r.drain = some dr ∧ row.toNat ≤ 64 ∧ col.toNat < 68 ∧
    nextWave s core.toNat (cellKey a.toNat row.toNat col.toNat) = some (n, false, w) ∧ tDrain w.tag = true) ∧
    (∃ (s : State) (core : BitVec 5) (a : BitVec 2) (row : BitVec 7) (col : BitVec 7) (n : Nat) (w : Wave),
    nextWave s core.toNat (cellKey a.toNat row.toNat col.toNat) = some (n, false, w) ∧ tDrain w.tag = true) :=
  ⟨⟨withArr { run := some run1 }, 31, run1, { blks := [blk1] }, blk1, by and_intros <;> first | decide | exact .inl (by decide)⟩,
  ⟨withArr { run := some { run1 with loads := [] } }, 31, { run1 with loads := [] }, { blks := [blk1] }, blk1, by decide⟩,
  ⟨withArr { run := some runK, banks := [(1, { state := .active })] }, 31, runK, { blks := [blk1] }, blk1, by decide⟩,
  ⟨withArr {}, 31, by decide⟩,
  ⟨withArr { run := some run1, flight := [wave1] }, 31, 0, 0, 0, run1, 0, false, wave1, 0, 0, by decide⟩,
  ⟨withArr { run := some { run1 with drain := some drain1 }, flight := [mark1] }, 31, 0, 64, 67, { run1 with drain := some drain1 }, 0, mark1,
    drain1, by decide⟩,
  ⟨withArr { flight := [mark1] }, 31, 0, 0, 0, 0, mark1, by decide⟩⟩
theorem test_WindowAddIsExactUntilShed :
    (∃ (g : Group) (sm : Int) (e : Int) (code : Nat), gNan g = false ∧ sm ≠ 0 ∧ -1040 ≤ e ∧ gShed (windowAdd g sm e code).1 = false) ∧
    (∃ (g : Group) (sm : Int) (e : Int) (code : Nat), gNan g = false ∧ sm ≠ 0 ∧ -1040 ≤ e ∧ gShed g = true) ∧
    (∃ (g : Group) (sm : Int) (e : Int) (code : Nat), gNan g = false ∧ sm ≠ 0 ∧ -1040 ≤ e ∧ gPinf (windowAdd g sm e code).1 = false ∧
    gNinf (windowAdd g sm e code).1 = false) :=
  ⟨⟨0, 1, 0, 1, by decide⟩,
  ⟨BitVec.ofNat 112 (2 ^ 111), 1, 0, 1, by decide⟩,
  ⟨0, 1, 0, 1, by decide⟩⟩
theorem test_ReadOutAndDecisions :
    (∃ (s : State) (core : BitVec 5) (sp : BitVec 2) (row : BitVec 7) (r : MatRun) (dr : MatDrain) (p : RowPart), Running s core.toNat r ∧
    r.drain = some dr ∧ dr.blk.parts.find? (fun q => q.1 == sp.toNat) = some p ∧ (∀ x ∈ rowCells s core.toNat r.desc sp.toNat dr.cpass row.toNat,
    2 * dr.wave + 1 ≤ tget 0 (arrOf s core.toNat).pos (cellKey x.1 x.2.1 x.2.2)) ∧ sp.toNat * 128 + row.toNat ∉ dr.rows ∧
    (row.toNat = 64 ∨ row.toNat < p.2.2) ∧ outStalls s core.toNat r sp.toNat ((p.2.1 + row.toNat) / natMax 1 (mOutRows r.desc)) = false) ∧
    (∃ (s : State) (core : BitVec 5) (sp : BitVec 2) (row : BitVec 7) (r : MatRun) (dr : MatDrain) (p : RowPart), (arrOf s core.toNat).run = some r ∧
    r.drain = some dr ∧ dr.blk.parts.find? (fun q => q.1 == sp.toNat) = some p ∧
    outStalls s core.toNat r sp.toNat ((p.2.1 + row.toNat) / natMax 1 (mOutRows r.desc)) = true) ∧
    (∃ (s : State) (core : BitVec 5) (sp : BitVec 2) (r : MatRun) (dr : MatDrain) (p : RowPart), Running s core.toNat r ∧ r.drain = some dr ∧
    dr.blk.parts.find? (fun q => q.1 == sp.toNat) = some p ∧ sp.toNat ∉ dr.cmp ∧ (∀ i ∈ List.range p.2.2 ++ [64], sp.toNat * 128 + i ∈ dr.rows)) ∧
    (∃ (s : State) (core : BitVec 5) (sp : BitVec 2) (r : MatRun) (dr : MatDrain) (i : Nat) (p : RowPart), (arrOf s core.toNat).run = some r ∧
    r.drain = some dr ∧ dr.blk.parts.find? (fun q => q.1 == sp.toNat) = some p ∧ i < p.2.2 ∧ sp.toNat * 128 + i ∉ dr.rows) ∧
    (∃ (s : State) (core : BitVec 5) (r : MatRun), Running s core.toNat r ∧ undecided r = true) ∧
    (∃ (s : State) (core : BitVec 5) (r : MatRun), Running s core.toNat r ∧ undecided r = true ∧ planDone r = false) ∧
    (∃ (s : State) (core : BitVec 5) (r : MatRun), Running s core.toNat r ∧ undecided r = true ∧ (∀ m ∈ r.mism, m.again = false ∧
    2 ≤ tget 0 r.reexec (blkKey m))) ∧
    (∃ (s : State) (core : BitVec 5) (r : MatRun), Running s core.toNat r ∧ undecided r = true ∧ (∀ m ∈ r.mism, m.again = false ∧
    tget 0 r.reexec (blkKey m) = 0) ∧ planDone r = false) ∧
    (∃ (s : State) (core : BitVec 5) (r : MatRun), Running s core.toNat r ∧ undecided r = true ∧ (∀ m ∈ r.mism, m.again = false ∧
    tget 0 r.reexec (blkKey m) = 0) ∧ planDone r = true ∧ (∀ m ∈ r.mism, 0 < m.rows) ∧ arraysIn s core.toNat ≠ [] ∧ 0 < rowHeight s core.toNat ∧
    (coreOf s core.toNat).pendFold = []) ∧
    (∃ (s : State) (core : BitVec 5) (a : BitVec 2) (i : BitVec 6) (r : MatRun), Running s core.toNat r ∧ undecided r = true ∧
    popcount 64 (foldOf s core.toNat a.toNat).cols.toNat < 4 ∧ (∀ m ∈ r.mism, m.again = false ∧ tget 0 r.reexec (blkKey m) = 1 ∧ m.kind = 1 ∧
    m.array = a.toNat ∧ m.col = i.toNat ∧ (tget {} r.placed (blkKey m)).kind = 1 ∧ (tget {} r.placed (blkKey m)).array = a.toNat ∧
    (tget {} r.placed (blkKey m)).row = m.row ∧ (tget {} r.placed (blkKey m)).col = i.toNat) ∧ planDone r = false) ∧
    (∃ (s : State) (core : BitVec 5) (a : BitVec 2) (i : BitVec 6) (r : MatRun), Running s core.toNat r ∧ undecided r = true ∧
    popcount 64 (foldOf s core.toNat a.toNat).cols.toNat < 4 ∧ (∀ m ∈ r.mism, m.again = false ∧ tget 0 r.reexec (blkKey m) = 1 ∧ m.kind = 1 ∧
    m.array = a.toNat ∧ m.col = i.toNat ∧ (tget {} r.placed (blkKey m)).kind = 1 ∧ (tget {} r.placed (blkKey m)).array = a.toNat ∧
    (tget {} r.placed (blkKey m)).row = m.row ∧ (tget {} r.placed (blkKey m)).col = i.toNat) ∧ planDone r = true ∧ foldWaits s core.toNat = false ∧
    (coreOf s core.toNat).pendFold = []) ∧
    (∃ (s : State) (core : BitVec 5) (r : MatRun) (a : BitVec 2) (isRow : Bool) (i : BitVec 6), (arrOf s core.toNat).run = some r ∧
    undecided r = false) :=
  ⟨⟨withArr { run := some { run1 with drain := some drain1 }, pos := [(cellKey 0 0 0, 1), (cellKey 0 0 67, 1)] }, 31, 0, 0,
    { run1 with drain := some drain1 }, drain1, (0, 0, 1), by decide⟩,
  ⟨onCore
    { coreReset with arr := { run := some { run1 with drain := some drain1 } }, movers := [(0, { run := some { desc := mdesc 0x61 0 1, srcs := [(outAddr 31 { run1 with drain := some drain1 } 0 0, 64)] } })] },
    31, 0, 0, { run1 with drain := some drain1 }, drain1, (0, 0, 1), by decide⟩,
  ⟨withArr { run := some { run1 with drain := some { drain1 with rows := [64, 0] } } }, 31, 0,
    { run1 with drain := some { drain1 with rows := [64, 0] } }, { drain1 with rows := [64, 0] }, (0, 0, 1), by decide⟩,
  ⟨withArr { run := some { run1 with drain := some drain1 } }, 31, 0, { run1 with drain := some drain1 }, drain1, 0, (0, 0, 1), by decide⟩,
  ⟨withArr { run := some mism1 }, 31, mism1, by decide⟩,
  ⟨withArr { run := some misms }, 31, misms, by decide⟩,
  ⟨withArr { run := some { mism1 with reexec := [(0, 2)] } }, 31, { mism1 with reexec := [(0, 2)] }, by decide⟩,
  ⟨withArr { run := some misms }, 31, misms, by decide⟩,
  ⟨withArr { run := some mism1 }, 31, mism1, by decide⟩,
  ⟨withArr { run := some { mism1 with mism := [misAt], placed := [(0, misAt)], reexec := [(0, 1)], plan := [{ blks := [blk1] }] } }, 31, 0, 63,
    { mism1 with mism := [misAt], placed := [(0, misAt)], reexec := [(0, 1)], plan := [{ blks := [blk1] }] }, by decide⟩,
  ⟨withArr { run := some { mism1 with mism := [misAt], placed := [(0, misAt)], reexec := [(0, 1)] } }, 31, 0, 63,
    { mism1 with mism := [misAt], placed := [(0, misAt)], reexec := [(0, 1)] }, by decide⟩,
  ⟨withArr { run := some run1 }, 31, run1, 0, true, 63, by decide⟩⟩
theorem test_MatrixCompletionAndSave :
    (∃ (s : State) (core : BitVec 5) (r : MatRun), Running s core.toNat r ∧ planDone r = true ∧ r.mism = [] ∧ drains r.desc = false ∧
    r.failStep = false) ∧
    (∃ (s : State) (core : BitVec 5) (r : MatRun), Running s core.toNat r ∧ planDone r = true ∧ r.mism = [] ∧ drains r.desc = true ∧
    r.failStep = false ∧ (∀ sp ∈ liveSplits r, ∀ i < ceilDiv (mM r.desc sp) (natMax 1 (mOutRows r.desc)),
    (tget {} r.tiles (tileKey sp i)).final = true)) ∧
    (∃ (s : State) (core : BitVec 5) (r : MatRun), (arrOf s core.toNat).run = some r ∧ planDone r = false) ∧
    (∃ (s : State) (core : BitVec 5) (c : Nat), isReady s = true ∧ (coreOf s core.toNat).ctx = some c ∧ (ctxOf s c).switching = true ∧
    (arrOf s core.toNat).run = none) ∧
    (∃ (s : State) (core : BitVec 5) (c : Nat) (r : MatRun), isReady s = true ∧ (coreOf s core.toNat).ctx = some c ∧ (ctxOf s c).state = .fencing ∧
    (ctxOf s c).saveReq = true ∧ (arrOf s core.toNat).run = some r ∧ undecided r = false ∧ r.drain = none ∧ r.saving = false) :=
  ⟨⟨withArr { run := some { desc := BitVec.ofNat 512 (2 ^ 22 + 0x20) } }, 31, { desc := BitVec.ofNat 512 (2 ^ 22 + 0x20) }, by decide⟩,
  ⟨withArr { run := some { desc := matmul1, tiles := [(tileKey 0 0, { final := true })] } }, 31,
    { desc := matmul1, tiles := [(tileKey 0 0, { final := true })] }, by decide⟩,
  ⟨withArr { run := some run1 }, 31, run1, by decide⟩,
  ⟨setCtx (withArr {}) 1 { ctxOf sCtx 1 with switching := true }, 31, 1, by decide⟩,
  ⟨setCtx (withArr { run := some run1 }) 1 { ctxOf sCtx 1 with state := .fencing, saveReq := true }, 31, 1, run1, by decide⟩⟩
theorem test_ChainStartAndEnd :
    (∃ (s : State) (core : BitVec 5) (g : BitVec 1) (d : VDesc), VecReady s core g d ∧ firstFailure (vChecks s core.toNat d) = none ∧ vNoop d = true) ∧
    (∃ (s : State) (core : BitVec 5) (g : BitVec 1) (d : VDesc) (st : Status), VecReady s core g d ∧ firstFailure (vChecks s core.toNat d) = some st) ∧
    (∃ (s : State) (core : BitVec 5) (g : BitVec 1) (d : VDesc), VecReady s core g d ∧ vNoop d = false ∧ isUpdate d = false ∧
    firstFailure (vChecks s core.toNat d) = none ∧ (∀ e ∈ sourceTiles d, sourceFail s core.toNat (viewOf d e.1) e.2 = none)) ∧
    (∃ (s : State) (core : BitVec 5) (g : BitVec 1) (d : VDesc) (o : Nat) (st : Status), VecReady s core g d ∧ vNoop d = false ∧
    firstFailure (vChecks s core.toNat d) = none ∧ (sourceTiles d).findSome? (fun e => sourceFail s core.toNat (viewOf d e.1) e.2) = some (o, st)) ∧
    (∃ (s : State) (core : BitVec 5) (g : BitVec 1) (d : VDesc), VecReady s core g d ∧ vNoop d = false ∧ isUpdate d = true ∧
    firstFailure (vChecks s core.toNat d) = none ∧ (∀ e ∈ sourceTiles d, sourceFail s core.toNat (viewOf d e.1) e.2 = none)) ∧
    (∃ (s : State) (x : VX) (c1 : W32) (c2 : W32) (j : Nat), isUpdate x.d = true ∧ StoresPlain s x (updView x.d 119) ∧
    vwFmt (updView x.d 119) = 0x0A ∧ (∀ hi ∈ [113, 107], vwMode (updView x.d hi) = 3) ∧
    (updOuts x.d).Pairwise (fun n m => Apart (viewOf x.d n) (viewOf x.d m)) ∧ (∀ n ∈ updOuts x.d,
    (vwPlace (viewOf x.d n) (vwElem (viewOf x.d n) (j :: rowPoint x.d x.row))).1 < vwTiles (viewOf x.d n) ∧ viewBad (viewOf x.d n) = false ∧
    footprint (vwPayload (viewOf x.d n)) ≤ vwSlot (viewOf x.d n) * 64) ∧ pointSkip s x (j :: rowPoint x.d x.row) = false ∧ x.n = 0 ∧ j < 2 ^ 24 ∧
    Fresh s x (updView x.d 119) (j :: rowPoint x.d x.row)) ∧
    (∃ (s : State) (core : BitVec 5) (ch : BitVec 3) (key : Nat) (r : VecRun), coreLive s core.toNat = true ∧
    runKey s core.toNat ch.toNat = some key ∧ runOf s core.toNat key = r ∧ (∀ c ∈ vChans r.d, (chanOf s core.toNat c).done = true) ∧
    vecStalled s core.toNat r.d = false) ∧
    (∃ (s : State) (core : BitVec 5) (ch : BitVec 3) (key : Nat) (c : Nat), runKey s core.toNat ch.toNat = some key ∧
    c ∈ vChans (runOf s core.toNat key).d ∧ (chanOf s core.toNat c).done = false) :=
  ⟨⟨queued (chain 0 0 []), 31, 1, chain 0 0 [], by decide⟩,
  ⟨queued (chain 1 0 [slotW 0xFF 0 0 0 0 0 0 0 0]), 31, 1, chain 1 0 [slotW 0xFF 0 0 0 0 0 0 0 0], .badDescriptor, by decide⟩,
  ⟨{ queued (chain 1 0 [slotW 1 3 0 0 0 0 0 0 0]) with mem := writeHdr [] (unitAddr 31 0) (rowTile 2 0x0A 0 0 true) }, 31, 1,
    (chain 1 0 [slotW 1 3 0 0 0 0 0 0 0]), by decide⟩,
  ⟨queued (chain 1 0 [slotW 1 3 0 0 0 0 0 0 0]), 31, 1, (chain 1 0 [slotW 1 3 0 0 0 0 0 0 0]), 1, .checksumFail, by decide⟩,
  ⟨updateTiles (queued update1), 31, 1, update1, by decide⟩,
  ⟨onCore { coreReset with vec := { chans := [(7, { busy := true })], runs := [(7, { d := update1 })] } }, ⟨31, 7, 7, update1, 0, 0, 0, 0, 0⟩, 0, 0,
    0, by decide⟩,
  ⟨onCore
    { coreReset with vec := { chans := [(7, { busy := true, done := true })], runs := [(7, { d := (chain 1 0 [slotW 1 3 0 0 0 0 0 0 0]) })] } }, 31,
    7, 7, { d := (chain 1 0 [slotW 1 3 0 0 0 0 0 0 0]) }, by decide⟩,
  ⟨atInstr 0 (slotW 3 1 0 0 0 0 0 0 7), 31, 7, 7, 7, by decide⟩⟩
theorem test_LaneArithmetic :
    (∃ (i : BitVec 5 → BitVec 3 → Instr) (op : Nat) (sub : Nat) (f : Val → Val → Val → Val × Exc) (h : Int → Int → Int) (s : State) (core : BitVec 5)
    (ch : BitVec 3) (x : VX), (i, op, f, h) ∈ [(Instr.vecAdd, 0x10, (fun a b _ => vAdd a b), (fun a b => a + b)), (Instr.vecSub, 0x11,
    (fun a b _ => vSub a b), (fun a b => a - b)), (Instr.vecMul, 0x12, (fun a b _ => vMul a b), (fun a b => a * b)), (Instr.vecFma, 0x13, vFma,
    (fun a _ => a)), (Instr.vecDiv, 0x14, (fun a b _ => vDiv a b), (fun a _ => a)), (Instr.vecSqrt, 0x15, (fun a _ _ => vSqrt a), (fun a _ => a)),
    (Instr.vecMax, 0x16, (fun a b _ => Machine.vMax a b), (fun a b => if a < b then b else a)), (Instr.vecMin, 0x17, (fun a b _ => Machine.vMin a b),
    (fun a b => if b < a then b else a)), (Instr.vecAbs, 0x18, (fun a _ _ => (vabs a, 0)), (fun a _ => (a.natAbs : Int))), (Instr.vecNeg, 0x19,
    (fun a _ _ => (vneg a, 0)), (fun a _ => -a)), (Instr.vecFunc, 0x1A, (fun a _ _ => vFunc sub a), (fun a _ => a))] ∧ AtInstr s core ch x ∧
    xOp x.w = op ∧ (op = 0x1A → xSub x.w = sub)) ∧
    (∃ (i : BitVec 5 → BitVec 3 → Instr) (op : Nat) (sub : Nat) (f : Val → Val → Val → Val × Exc) (h : Int → Int → Int) (s : State) (core : BitVec 5)
    (ch : BitVec 3) (x : VX), (i, op, f, h) ∈ [(Instr.vecAdd, 0x10, (fun a b _ => vAdd a b), (fun a b => a + b)), (Instr.vecSub, 0x11,
    (fun a b _ => vSub a b), (fun a b => a - b)), (Instr.vecMul, 0x12, (fun a b _ => vMul a b), (fun a b => a * b)), (Instr.vecFma, 0x13, vFma,
    (fun a _ => a)), (Instr.vecDiv, 0x14, (fun a b _ => vDiv a b), (fun a _ => a)), (Instr.vecSqrt, 0x15, (fun a _ _ => vSqrt a), (fun a _ => a)),
    (Instr.vecMax, 0x16, (fun a b _ => Machine.vMax a b), (fun a b => if a < b then b else a)), (Instr.vecMin, 0x17, (fun a b _ => Machine.vMin a b),
    (fun a b => if b < a then b else a)), (Instr.vecAbs, 0x18, (fun a _ _ => (vabs a, 0)), (fun a _ => (a.natAbs : Int))), (Instr.vecNeg, 0x19,
    (fun a _ _ => (vneg a, 0)), (fun a _ => -a)), (Instr.vecFunc, 0x1A, (fun a _ _ => vFunc sub a), (fun a _ => a))] ∧ AtInstr s core ch x ∧
    xOp x.w = op ∧ (op = 0x1A → xSub x.w = sub) ∧ Inside s x) :=
  ⟨⟨Instr.vecAdd, 0x10, 0, (fun a b _ => vAdd a b), (fun a b => a + b), atInstr 0 (slotW 0x10 3 2 4 0 0 0 0 0), 31, 7,
    vx 0 (slotW 0x10 3 2 4 0 0 0 0 0), by simp, by decide, by decide, by decide⟩,
  ⟨Instr.vecAdd, 0x10, 0, (fun a b _ => vAdd a b), (fun a b => a + b), atInstr 0 (slotW 0x10 3 2 4 0 0 0 0 0), 31, 7,
    vx 0 (slotW 0x10 3 2 4 0 0 0 0 0), by simp, by and_intros <;> decide⟩⟩
theorem test_LaneMovesAndMemory :
    (∃ (s : State) (core : BitVec 5) (ch : BitVec 3) (x : VX), AtInstr s core ch x ∧ Inside s x ∧ xOp x.w = 0x03) ∧
    (∃ (s : State) (core : BitVec 5) (ch : BitVec 3) (x : VX), AtInstr s core ch x ∧ Inside s x ∧ xOp x.w = 0x20) ∧
    (∃ (s : State) (core : BitVec 5) (ch : BitVec 3) (x : VX), AtInstr s core ch x ∧ Inside s x ∧ xOp x.w = 0x21 ∧ xType x.w ≠ 3) ∧
    (∃ (s : State) (core : BitVec 5) (ch : BitVec 3) (x : VX), AtInstr s core ch x ∧ Inside s x ∧ xOp x.w = 0x21 ∧ xType x.w = 3) ∧
    (∃ (s : State) (core : BitVec 5) (ch : BitVec 3) (x : VX), AtInstr s core ch x ∧ Inside s x ∧ xOp x.w = 0x22 ∧ xType x.w ≠ 3) ∧
    (∃ (s : State) (core : BitVec 5) (ch : BitVec 3) (x : VX), AtInstr s core ch x ∧ Inside s x ∧ xOp x.w = 0x22 ∧ xType x.w = 3 ∧ xSub x.w % 4 ≠ 3) ∧
    (∃ (s : State) (core : BitVec 5) (ch : BitVec 3) (x : VX), AtInstr s core ch x ∧ Inside s x ∧ xOp x.w = 0x22 ∧ xType x.w = 3 ∧ xSub x.w % 4 = 3) ∧
    (∃ (s : State) (core : BitVec 5) (ch : BitVec 3) (x : VX), AtInstr s core ch x ∧ Inside s x ∧ xOp x.w = 0x23) ∧
    (∃ (s : State) (core : BitVec 5) (ch : BitVec 3) (x : VX), AtInstr s core ch x ∧ Inside s x ∧ xOp x.w = 0x32) ∧
    (∃ (s : State) (core : BitVec 5) (ch : BitVec 3) (x : VX), AtInstr s core ch x ∧ Inside s x ∧ xOp x.w = 0x30 ∧ IndexesFit s x (vLen x)) ∧
    (∃ (s : State) (core : BitVec 5) (ch : BitVec 3) (x : VX), AtInstr s core ch x ∧ Inside s x ∧ xOp x.w = 0x60) ∧
    (∃ (s : State) (core : BitVec 5) (ch : BitVec 3) (x : VX), AtInstr s core ch x ∧ xOp x.w ≠ 0x03) ∧
    (∃ (s : State) (core : BitVec 5) (ch : BitVec 3) (x : VX), AtInstr s core ch x ∧ xOp x.w ≠ 0x20) ∧
    (∃ (s : State) (core : BitVec 5) (ch : BitVec 3) (x : VX), AtInstr s core ch x ∧ xOp x.w ≠ 0x21) ∧
    (∃ (s : State) (core : BitVec 5) (ch : BitVec 3) (x : VX), AtInstr s core ch x ∧ xOp x.w ≠ 0x32) ∧
    (∃ (s : State) (core : BitVec 5) (ch : BitVec 3) (x : VX), AtInstr s core ch x ∧ Inside s x ∧ xOp x.w = 0x01 ∧ xType x.w % 2 = 0) ∧
    (∃ (s : State) (core : BitVec 5) (ch : BitVec 3) (x : VX), AtInstr s core ch x ∧ Inside s x ∧ xOp x.w = 0x01 ∧ xType x.w = 3) ∧
    (∃ (s : State) (core : BitVec 5) (ch : BitVec 3) (x : VX), AtInstr s core ch x ∧ Inside s x ∧ xOp x.w = 0x01 ∧ xType x.w = 1) ∧
    (∃ (s : State) (core : BitVec 5) (ch : BitVec 3) (x : VX), AtInstr s core ch x ∧ Inside s x ∧ xOp x.w = 0x31 ∧ xType x.w ≠ 3 ∧
    IndexesFit s x (((vExts x.d)[0]?).getD 0)) ∧
    (∃ (s : State) (core : BitVec 5) (ch : BitVec 3) (x : VX), AtInstr s core ch x ∧ Inside s x ∧ xOp x.w = 0x31 ∧ xType x.w = 3 ∧
    IndexesFit s x (((vExts x.d)[0]?).getD 0)) ∧
    (∃ (s : State) (core : BitVec 5) (ch : BitVec 3) (x : VX), AtInstr s core ch x ∧ Inside s x ∧ xOp x.w = 0x31 ∧ xIdx x.w = 2 ∧
    (¬ IndexesFit s x (((vExts x.d)[0]?).getD 0))) ∧
    (∃ (s : State) (core : BitVec 5) (ch : BitVec 3) (x : VX), AtInstr s core ch x ∧ Inside s x ∧ xOp x.w = 0x30 ∧ (¬ IndexesFit s x (vLen x))) ∧
    (∃ (s : State) (core : BitVec 5) (ch : BitVec 3) (x : VX), AtInstr s core ch x ∧ Inside s x ∧ xOp x.w = 0x51) ∧
    (∃ (s : State) (core : BitVec 5) (ch : BitVec 3) (x : VX), AtInstr s core ch x ∧ Inside s x ∧ xOp x.w = 0x02 ∧
    StoresPlain s x (viewOf x.d (xView x.w))) ∧
    (∃ (s : State) (core : BitVec 5) (ch : BitVec 3) (x : VX), AtInstr s core ch x ∧ Inside s x ∧ xOp x.w = 0x50 ∧
    StoresPlain s x (viewOf x.d (xView x.w))) ∧
    (∃ (s : State) (core : BitVec 5) (ch : BitVec 3) (x : VX), AtInstr s core ch x ∧ Inside s x ∧ xOp x.w = 0x02 ∧
    viewBad (viewOf x.d (xView x.w)) = false) ∧
    (∃ (s : State) (core : BitVec 5) (ch : BitVec 3) (x : VX), AtInstr s core ch x ∧ Inside s x ∧ xOp x.w = 0x50 ∧
    viewBad (viewOf x.d (xView x.w)) = false) :=
  ⟨⟨atInstr 0 (slotW 3 3 2 4 5 0 0 0 7), 31, 7, vx 0 (slotW 3 3 2 4 5 0 0 0 7), by decide⟩,
  ⟨atInstr 0 (slotW 32 3 2 4 5 2 0 4 0), 31, 7, vx 0 (slotW 32 3 2 4 5 2 0 4 0), by decide⟩,
  ⟨atInstr 0 (slotW 33 3 2 4 5 0 0 0 0), 31, 7, vx 0 (slotW 33 3 2 4 5 0 0 0 0), by decide⟩,
  ⟨atInstr 0 (slotW 33 8 12 4 16 3 0 0 0), 31, 7, vx 0 (slotW 33 8 12 4 16 3 0 0 0), by decide⟩,
  ⟨atInstr 0 (slotW 34 3 2 4 5 2 0 0 0), 31, 7, vx 0 (slotW 34 3 2 4 5 2 0 0 0), by decide⟩,
  ⟨atInstr 0 (slotW 34 8 2 4 5 3 0 0 0), 31, 7, vx 0 (slotW 34 8 2 4 5 3 0 0 0), by decide⟩,
  ⟨atInstr 0 (slotW 34 8 12 4 5 3 0 3 0), 31, 7, vx 0 (slotW 34 8 12 4 5 3 0 3 0), by decide⟩,
  ⟨atInstr 0 (slotW 35 3 2 4 5 2 0 2 0), 31, 7, vx 0 (slotW 35 3 2 4 5 2 0 2 0), by decide⟩,
  ⟨atInstr 0 (slotW 50 3 2 4 5 2 0 0 0), 31, 7, vx 0 (slotW 50 3 2 4 5 2 0 0 0), by decide⟩,
  ⟨atInstr 0 (slotW 48 3 2 2 5 0 1 0 0), 31, 7, vx 0 (slotW 48 3 2 2 5 0 1 0 0), by decide⟩,
  ⟨atInstr 0 (slotW 96 8 12 16 5 3 0 0 0), 31, 7, vx 0 (slotW 96 8 12 16 5 3 0 0 0), by decide⟩,
  ⟨atInstr 0 (slotW 2 3 2 4 5 0 0 0 0), 31, 7, vx 0 (slotW 2 3 2 4 5 0 0 0 0), by decide⟩,
  ⟨atInstr 0 (slotW 2 3 2 4 5 0 0 0 0), 31, 7, vx 0 (slotW 2 3 2 4 5 0 0 0 0), by decide⟩,
  ⟨atInstr 0 (slotW 2 3 2 4 5 0 0 0 0), 31, 7, vx 0 (slotW 2 3 2 4 5 0 0 0 0), by decide⟩,
  ⟨atInstr 0 (slotW 2 3 2 4 5 0 0 0 0), 31, 7, vx 0 (slotW 2 3 2 4 5 0 0 0 0), by decide⟩,
  ⟨atInstr 0 (slotW 1 3 2 4 5 0 0 0 0), 31, 7, vx 0 (slotW 1 3 2 4 5 0 0 0 0), by decide⟩,
  ⟨atInstr 0 (slotW 1 8 2 4 5 3 0 0 0), 31, 7, vx 0 (slotW 1 8 2 4 5 3 0 0 0), by decide⟩,
  ⟨atInstr 1 (slotW 1 3 2 4 5 1 0 0 0), 31, 7, vx 1 (slotW 1 3 2 4 5 1 0 0 0), by decide⟩,
  ⟨atInstr 0 (slotW 49 3 2 2 5 0 1 0 0), 31, 7, vx 0 (slotW 49 3 2 2 5 0 1 0 0), by decide⟩,
  ⟨atInstr 0 (slotW 49 8 2 2 5 3 0 0 0), 31, 7, vx 0 (slotW 49 8 2 2 5 3 0 0 0), by decide⟩,
  ⟨atInstr 0 (slotW 49 3 2 2 5 0 2 0 0), 31, 7, vx 0 (slotW 49 3 2 2 5 0 2 0 0), by decide⟩,
  ⟨atInstr 0 (slotW 48 3 2 2 5 0 2 0 0), 31, 7, vx 0 (slotW 48 3 2 2 5 0 2 0 0), by decide⟩,
  ⟨atInstr 0 (slotW 81 3 2 4 5 0 0 0 0), 31, 7, vx 0 (slotW 81 3 2 4 5 0 0 0 0), by decide⟩,
  ⟨atInstr 0 (slotW 2 3 2 4 5 0 0 0 0), 31, 7, vx 0 (slotW 2 3 2 4 5 0 0 0 0), by decide⟩,
  ⟨atInstr 0 (slotW 80 3 2 4 5 0 0 0 0), 31, 7, vx 0 (slotW 80 3 2 4 5 0 0 0 0), by decide⟩,
  ⟨atInstr 0 (slotW 2 3 2 4 5 0 0 0 0), 31, 7, vx 0 (slotW 2 3 2 4 5 0 0 0 0), by decide⟩,
  ⟨atInstr 0 (slotW 80 3 2 4 5 0 0 0 0), 31, 7, vx 0 (slotW 80 3 2 4 5 0 0 0 0), by decide⟩⟩
theorem test_ReductionsAndSummaries :
    (∃ (s : State) (core : BitVec 5) (ch : BitVec 3) (x : VX), AtInstr s core ch x ∧ Inside s x ∧ xOp x.w = 0x40) ∧
    (∃ (s : State) (core : BitVec 5) (ch : BitVec 3) (x : VX), AtInstr s core ch x ∧ Inside s x ∧ xOp x.w = 0x41 ∧ dryRun s x = false) ∧
    (∃ (s : State) (core : BitVec 5) (ch : BitVec 3) (x : VX), AtInstr s core ch x ∧ Inside s x ∧ xOp x.w = 0x41 ∧ dryRun s x = true) :=
  ⟨⟨atInstr 0 (slotW 64 3 2 4 5 0 0 0 0), 31, 7, vx 0 (slotW 64 3 2 4 5 0 0 0 0), by decide⟩,
  ⟨atInstr 0 (slotW 65 3 2 4 5 0 0 0 15), 31, 7, vx 0 (slotW 65 3 2 4 5 0 0 0 15), by decide⟩,
  ⟨dryState, 31, 7, dryVx, by decide⟩⟩
theorem test_AluInstructions :
    (∃ (func : Nat) (f : W64 → W64 → W64) (s : State) (core : BitVec 5) (g : BitVec 1) (w : Nat), (func, f) ∈ [(0,
    fun a b => BitVec.ofNat 64 (a.toNat + b.toNat)), (1, fun a b => BitVec.ofInt 64 (a.toInt - b.toInt)), (2, fun a b => a &&& b), (3,
    fun a b => a ||| b), (4, fun a b => a ^^^ b), (5, fun a b => BitVec.ofNat 64 (a.toNat * 2 ^ (b.toNat % 64))), (6,
    fun a b => BitVec.ofNat 64 (a.toNat / 2 ^ (b.toNat % 64))), (7, fun a b => BitVec.ofInt 64 (a.toInt / 2 ^ (b.toNat % 64))), (8,
    fun a b => BitVec.ofNat 64 (a.toNat * b.toNat)), (9, fun a b => BitVec.ofNat 64 (a.toNat * b.toNat / 2 ^ 64)), (10,
    fun a b => if a.toInt < b.toInt then 1 else 0), (11, fun a b => if a.toNat < b.toNat then 1 else 0), (12,
    fun a b => if a.toInt < b.toInt then a else b), (13, fun a b => if a.toInt < b.toInt then b else a)] ∧ AtWord s core.toNat g.toNat w ∧
    iOp w = 0x01 ∧ iFunc w = func) ∧
    (∃ (i : BitVec 5 → BitVec 1 → Instr) (op : Nat) (f : W64 → Int → W64) (s : State) (core : BitVec 5) (g : BitVec 1) (w : Nat), (i, op,
    f) ∈ [(Instr.addi, 0x02, fun a k => BitVec.ofInt 64 (a.toInt + k)), (Instr.andi, 0x03, fun a k => a &&& BitVec.ofInt 64 k), (Instr.ori, 0x04,
    fun a k => a ||| BitVec.ofInt 64 k), (Instr.xori, 0x05, fun a k => a ^^^ BitVec.ofInt 64 k), (Instr.shli, 0x06,
    fun a k => BitVec.ofNat 64 (a.toNat * 2 ^ (k % 64).toNat)), (Instr.shri, 0x07, fun a k => BitVec.ofNat 64 (a.toNat / 2 ^ (k % 64).toNat))] ∧
    AtWord s core.toNat g.toNat w ∧ iOp w = op) :=
  ⟨⟨7, (fun a b => BitVec.ofInt 64 (a.toInt / 2 ^ (b.toNat % 64))), gAt (rw' 1 4 3 2 7) (gX) (g0), 31, 1, rw' 1 4 3 2 7, by simp, by decide,
    by decide, by decide⟩,
  ⟨Instr.addi, 0x02, (fun a k => BitVec.ofInt 64 (a.toInt + k)), gAt (iw 2 0 3 0x3FFFF) (gX) (g0), 31, 1, iw 2 0 3 0x3FFFF, by simp, by decide,
    by decide⟩⟩
theorem test_ScratchAndBranches :
    (∃ (s : State) (core : BitVec 5) (g : BitVec 1) (w : Nat) (a : Nat), AtWord s core.toNat g.toNat w ∧ iOp w = 0x0A ∧
    (reg s core.toNat g.toNat (iA w) + BitVec.ofInt 64 (iImm w)).toNat = a ∧ a % 8 = 0 ∧ a + 8 ≤ 16384) ∧
    (∃ (s : State) (core : BitVec 5) (g : BitVec 1) (w : Nat) (a : Nat), AtWord s core.toNat g.toNat w ∧ iOp w = 0x0B ∧
    (reg s core.toNat g.toNat (iA w) + BitVec.ofInt 64 (iImm w)).toNat = a ∧ a % 8 = 0 ∧ a + 8 ≤ 16384) ∧
    (∃ (s : State) (core : BitVec 5) (g : BitVec 1) (w : Nat), AtWord s core.toNat g.toNat w ∧ iOp w = 0x09 ∧ iImm w % 2 = 0 ∧ 0 ≤ iImm w ∧
    iImm w < 16384) ∧
    (∃ (s : State) (core : BitVec 5) (g : BitVec 1) (w : Nat) (a : Nat) (kind : Nat), AtWord s core.toNat g.toNat w ∧ (iOp w = 0x0A ∨ iOp w = 0x0B) ∧
    (reg s core.toNat g.toNat (iA w) + BitVec.ofInt 64 (iImm w)).toNat = a ∧ ((a % 8 ≠ 0 ∧ kind = 0x02) ∨ (a % 8 = 0 ∧ 16384 < a + 8 ∧ kind = 0x03))) ∧
    (∃ (s : State) (core : BitVec 5) (g : BitVec 1) (w : Nat) (a : Nat) (kind : Nat), AtWord s core.toNat g.toNat w ∧ (iOp w = 0x0A ∨ iOp w = 0x0B) ∧
    (reg s core.toNat g.toNat (iA w) + BitVec.ofInt 64 (iImm w)).toNat = a ∧ ((a % 8 ≠ 0 ∧ kind = 0x02) ∨ (a % 8 = 0 ∧ 16384 < a + 8 ∧ kind = 0x03))) ∧
    (∃ (i : BitVec 5 → BitVec 1 → Instr) (op : Nat) (p : W64 → W64 → Prop) (s : State) (core : BitVec 5) (g : BitVec 1) (w : Nat), (i, op,
    p) ∈ [(Instr.beq, 0x10, fun a b => a = b), (Instr.bne, 0x11, fun a b => a ≠ b), (Instr.blt, 0x12, fun a b => a.toInt < b.toInt), (Instr.bge,
    0x13, fun a b => b.toInt ≤ a.toInt), (Instr.bltu, 0x14, fun a b => a.toNat < b.toNat), (Instr.bgeu, 0x15, fun a b => b.toNat ≤ a.toNat)] ∧
    AtWord s core.toNat g.toNat w ∧ iOp w = op ∧ p (reg s core.toNat g.toNat (iD w)) (reg s core.toNat g.toNat (iA w))) ∧
    (∃ (i : BitVec 5 → BitVec 1 → Instr) (op : Nat) (p : W64 → W64 → Prop) (s : State) (core : BitVec 5) (g : BitVec 1) (w : Nat), (i, op,
    p) ∈ [(Instr.beq, 0x10, fun a b => a = b), (Instr.bne, 0x11, fun a b => a ≠ b), (Instr.blt, 0x12, fun a b => a.toInt < b.toInt), (Instr.bge,
    0x13, fun a b => b.toInt ≤ a.toInt), (Instr.bltu, 0x14, fun a b => a.toNat < b.toNat), (Instr.bgeu, 0x15, fun a b => b.toNat ≤ a.toNat)] ∧
    AtWord s core.toNat g.toNat w ∧ iOp w = op ∧ (¬ p (reg s core.toNat g.toNat (iD w)) (reg s core.toNat g.toNat (iA w)))) ∧
    (∃ (s : State) (core : BitVec 5) (g : BitVec 1) (w : Nat), AtWord s core.toNat g.toNat w ∧ iOp w = 0x16) ∧
    (∃ (s : State) (core : BitVec 5) (g : BitVec 1) (w : Nat), AtWord s core.toNat g.toNat w ∧ iOp w = 0x17) :=
  ⟨⟨gAt (iw 0x0A 4 2 16368) (gX) (g0), 31, 1, iw 0x0A 4 2 16368, 16376, by decide⟩,
  ⟨gAt (iw 0x0B 4 2 0x3FFF8) (gX) (g0), 31, 1, iw 0x0B 4 2 0x3FFF8, 0, by decide⟩,
  ⟨gAt (iw 0x09 4 0 16382) (gX) (g0), 31, 1, iw 0x09 4 0 16382, by decide⟩,
  ⟨gAt (iw 0x0A 4 2 16376) (gX) (g0), 31, 1, iw 0x0A 4 2 16376, 16384, 3, by decide⟩,
  ⟨gAt (iw 0x0B 4 2 1) (gX) (g0), 31, 1, iw 0x0B 4 2 1, 9, 2, by decide⟩,
  ⟨Instr.blt, 0x12, (fun a b => a.toInt < b.toInt), gAt (iw 0x12 3 2 0x3FFFF) (gX) (g0), 31, 1, iw 0x12 3 2 0x3FFFF, by simp, by decide, by decide,
    by decide⟩,
  ⟨Instr.bltu, 0x14, (fun a b => a.toNat < b.toNat), gAt (iw 0x14 3 2 5) (gX) (g0), 31, 1, iw 0x14 3 2 5, by simp, by decide, by decide, by decide⟩,
  ⟨gAt (iw 0x16 4 0 9) (gX) (g0), 31, 1, iw 0x16 4 0 9, by decide⟩,
  ⟨gAt (iw 0x17 2 2 4) (gX) (g0), 31, 1, iw 0x17 2 2 4, by decide⟩⟩
theorem test_IssueAndWaits :
    (∃ (s : State) (core : BitVec 5) (g : BitVec 1) (w : Nat) (b : Bytes), AtWord s core.toNat g.toNat w ∧ iOp w = 0x20 ∧ nbits w 2 0 = 0 ∧
    issueBytes s core.toNat g.toNat w 64 = .inl b ∧ tagIdle s core.toNat g.toNat (dTag (descOf b)) = true ∧
    (tget [] (coreOf s core.toNat).arr.queue g.toNat).length < 16) ∧
    (∃ (s : State) (core : BitVec 5) (g : BitVec 1) (w : Nat) (b : Bytes), AtWord s core.toNat g.toNat w ∧ iOp w = 0x20 ∧ nbits w 2 0 = 0 ∧
    issueBytes s core.toNat g.toNat w 64 = .inl b ∧ tagIdle s core.toNat g.toNat (dTag (descOf b)) = false) ∧
    (∃ (s : State) (core : BitVec 5) (g : BitVec 1) (w : Nat) (b : Bytes), AtWord s core.toNat g.toNat w ∧ iOp w = 0x20 ∧ nbits w 2 0 = 0 ∧
    issueBytes s core.toNat g.toNat w 64 = .inl b ∧ tagIdle s core.toNat g.toNat (dTag (descOf b)) = true ∧
    16 ≤ (tget [] (coreOf s core.toNat).arr.queue g.toNat).length) ∧
    (∃ (s : State) (core : BitVec 5) (g : BitVec 1) (w : Nat) (b : Bytes) (c : Bytes), AtWord s core.toNat g.toNat w ∧ iOp w = 0x20 ∧
    nbits w 2 0 = 1 ∧ issueBytes s core.toNat g.toNat w 64 = .inl b ∧
    issueBytes s core.toNat g.toNat w (if dOp (descOf b) = 0x40 then 192 else 64) = .inl c ∧ tagIdle s core.toNat g.toNat (dTag (descOf c)) = true ∧
    16 ≤ (tget [] (coreOf s core.toNat).vec.queue g.toNat).length) ∧
    (∃ (s : State) (core : BitVec 5) (g : BitVec 1) (w : Nat) (b : Bytes) (c : Bytes), AtWord s core.toNat g.toNat w ∧ iOp w = 0x20 ∧
    nbits w 2 0 = 1 ∧ issueBytes s core.toNat g.toNat w 64 = .inl b ∧
    issueBytes s core.toNat g.toNat w (if dOp (descOf b) = 0x40 then 192 else 64) = .inl c ∧ tagIdle s core.toNat g.toNat (dTag (descOf c)) = true ∧
    (tget [] (coreOf s core.toNat).vec.queue g.toNat).length < 16) ∧
    (∃ (s : State) (core : BitVec 5) (g : BitVec 1) (w : Nat) (m : Nat) (b : Bytes), AtWord s core.toNat g.toNat w ∧ iOp w = 0x20 ∧
    nbits w 2 0 = m + 2 ∧ m < 2 ∧ issueBytes s core.toNat g.toNat w 64 = .inl b ∧ tagIdle s core.toNat g.toNat (dTag (descOf b)) = true ∧
    512 ≤ (tget ({} : Mover) (coreOf s core.toNat).movers m).queue.length) ∧
    (∃ (s : State) (core : BitVec 5) (g : BitVec 1) (w : Nat) (m : Nat) (b : Bytes), AtWord s core.toNat g.toNat w ∧ iOp w = 0x20 ∧
    nbits w 2 0 = m + 2 ∧ m < 2 ∧ issueBytes s core.toNat g.toNat w 64 = .inl b ∧ tagIdle s core.toNat g.toNat (dTag (descOf b)) = true ∧
    (tget ({} : Mover) (coreOf s core.toNat).movers m).queue.length < 512) ∧
    (∃ (s : State) (core : BitVec 5) (g : BitVec 1) (w : Nat) (b : Bytes), AtWord s core.toNat g.toNat w ∧ iOp w = 0x20 ∧
    issueBytes s core.toNat g.toNat w 64 = .inl b ∧ nbits w 2 0 = 4) ∧
    (∃ (s : State) (core : BitVec 5) (g : BitVec 1) (w : Nat) (b : Bytes), AtWord s core.toNat g.toNat w ∧ iOp w = 0x20 ∧
    issueBytes s core.toNat g.toNat w 64 = .inl b ∧ nbits w 2 0 = 5) ∧
    (∃ (s : State) (core : BitVec 5) (g : BitVec 1) (w : Nat) (st : W16), AtWord s core.toNat g.toNat w ∧ (iOp w = 0x21 ∨ iOp w = 0x22) ∧
    tget TagState.idle (grainOf (coreOf s core.toNat) g.toNat).tags (nbits w 7 0) = .done st) ∧
    (∃ (s : State) (core : BitVec 5) (g : BitVec 1) (w : Nat) (st : W16), AtWord s core.toNat g.toNat w ∧ (iOp w = 0x21 ∨ iOp w = 0x22) ∧
    tget TagState.idle (grainOf (coreOf s core.toNat) g.toNat).tags (nbits w 7 0) = .done st) ∧
    (∃ (s : State) (core : BitVec 5) (g : BitVec 1) (w : Nat), AtWord s core.toNat g.toNat w ∧ (iOp w = 0x21 ∨ iOp w = 0x22) ∧
    tget TagState.idle (grainOf (coreOf s core.toNat) g.toNat).tags (nbits w 7 0) = .idle) ∧
    (∃ (s : State) (core : BitVec 5) (g : BitVec 1) (w : Nat), AtWord s core.toNat g.toNat w ∧ (iOp w = 0x21 ∨ iOp w = 0x22) ∧
    tget TagState.idle (grainOf (coreOf s core.toNat) g.toNat).tags (nbits w 7 0) = .outstanding ∧ iOp w = 0x21) ∧
    (∃ (s : State) (core : BitVec 5) (g : BitVec 1) (w : Nat), AtWord s core.toNat g.toNat w ∧ (iOp w = 0x21 ∨ iOp w = 0x22) ∧
    tget TagState.idle (grainOf (coreOf s core.toNat) g.toNat).tags (nbits w 7 0) = .outstanding ∧ iOp w = 0x22) ∧
    (∃ (s : State) (core : BitVec 5) (g : BitVec 1) (w : Nat), AtWord s core.toNat g.toNat w ∧ iOp w = 0x23 ∧
    anyOutstanding (grainOf (coreOf s core.toNat) g.toNat) = false) ∧
    (∃ (s : State) (core : BitVec 5) (g : BitVec 1) (w : Nat), AtWord s core.toNat g.toNat w ∧ iOp w = 0x23 ∧
    anyOutstanding (grainOf (coreOf s core.toNat) g.toNat) = true) ∧
    (∃ (s : State) (core : BitVec 5) (g : BitVec 1) (w : Nat) (v : BitVec 86), AtWord s core.toNat g.toNat w ∧ iOp w = 0x28 ∧
    tget 0 (grainOf (coreOf s core.toNat) g.toNat).sums (nbits w 3 0) = v ∧ bit v 85 = true) :=
  ⟨⟨gAt (iw 0x20 4 2 0) (gD 0x20) (g0), 31, 1, iw 0x20 4 2 0, mread (gD 0x20).scratch 64 64, by decide⟩,
  ⟨gAt (iw 0x20 4 2 0) ({ gD 0x20 with tags := [(7, .outstanding)] }) (g0), 31, 1, iw 0x20 4 2 0, mread (gD 0x20).scratch 64 64, by decide⟩,
  ⟨setCore (gAt (iw 0x20 4 2 0) (gD 0x20) (g0)) 31
    { coreOf (gAt (iw 0x20 4 2 0) (gD 0x20) (g0)) 31 with arr := { queue := [(1, List.replicate 16 0)] } }, 31, 1, iw 0x20 4 2 0,
    mread (gD 0x20).scratch 64 64, by decide⟩,
  ⟨setCore (gAt (iw 0x20 4 2 1) (gD 0x40) (g0)) 31
    { coreOf (gAt (iw 0x20 4 2 1) (gD 0x40) (g0)) 31 with vec := { queue := [(1, List.replicate 16 (chain 0 0 []))] } }, 31, 1, iw 0x20 4 2 1,
    mread (gD 0x40).scratch 64 64, mread (gD 0x40).scratch 64 192, by decide⟩,
  ⟨gAt (iw 0x20 4 2 1) (gD 0x40) (g0), 31, 1, iw 0x20 4 2 1, mread (gD 0x40).scratch 64 64, mread (gD 0x40).scratch 64 192, by decide⟩,
  ⟨setCore (gAt (iw 0x20 4 2 3) (gD 0x20) (g0)) 31
    { coreOf (gAt (iw 0x20 4 2 3) (gD 0x20) (g0)) 31 with movers := [(1, { queue := List.replicate 512 (0, 0) })] }, 31, 1, iw 0x20 4 2 3, 1,
    mread (gD 0x20).scratch 64 64, by decide⟩,
  ⟨gAt (iw 0x20 4 2 3) (gD 0x20) (g0), 31, 1, iw 0x20 4 2 3, 1, mread (gD 0x20).scratch 64 64, by decide⟩,
  ⟨gAt (iw 0x20 4 2 (7 * 2 ^ 3 + 4)) (gD 0x20) (g0), 31, 1, iw 0x20 4 2 (7 * 2 ^ 3 + 4), mread (gD 0x20).scratch 64 64, by decide⟩,
  ⟨gAt (iw 0x20 4 2 5) (gD 0x20) (g0), 31, 1, iw 0x20 4 2 5, mread (gD 0x20).scratch 64 64, by decide⟩,
  ⟨gAt (iw 0x21 4 0 7) ({ g0 with tags := [(7, .done 0x0401)], doneOrder := [7] }) (g0), 31, 1, iw 0x21 4 0 7, 0x0401, by decide⟩,
  ⟨gAt (iw 0x22 4 0 7) ({ g0 with tags := [(7, .done 0)], doneOrder := [7] }) (g0), 31, 1, iw 0x22 4 0 7, 0, by decide⟩,
  ⟨gAt (iw 0x22 4 0 7) (gX) (g0), 31, 1, iw 0x22 4 0 7, by decide⟩,
  ⟨gAt (iw 0x21 4 0 7) ({ g0 with tags := [(7, .outstanding)], doneOrder := [7] }) (g0), 31, 1, iw 0x21 4 0 7, by decide⟩,
  ⟨gAt (iw 0x22 4 0 7) ({ g0 with tags := [(7, .outstanding)], doneOrder := [7] }) (g0), 31, 1, iw 0x22 4 0 7, by decide⟩,
  ⟨gAt (iw 0x23 4 0 0) ({ g0 with tags := [(7, .done 0x0401)], doneOrder := [7] }) (g0), 31, 1, iw 0x23 4 0 0, by decide⟩,
  ⟨gAt (iw 0x23 4 0 0) ({ g0 with tags := [(7, .outstanding)], doneOrder := [7] }) (g0), 31, 1, iw 0x23 4 0 0, by decide⟩,
  ⟨gAt (iw 0x28 4 0 15) ({ g0 with sums := [(15, BitVec.ofNat 86 (2 ^ 85 + 9))] }) (g0), 31, 1, iw 0x28 4 0 15, BitVec.ofNat 86 (2 ^ 85 + 9),
    by decide⟩⟩
theorem test_MarksAndTraps :
    (∃ (s : State) (core : BitVec 5) (g : BitVec 1) (w : Nat) (v : Nat), AtWord s core.toNat g.toNat w ∧ iOp w = 0x30 ∧
    (reg s core.toNat g.toNat (iA w)).toNat = v ∧ v < 0xFFFFFFFF ∧
    (v = (coreOf s core.toNat).epoch.toNat + 1 ∨ v = (coreOf s core.toNat).epoch.toNat)) ∧
    (∃ (s : State) (core : BitVec 5) (g : BitVec 1) (w : Nat) (v : Nat), AtWord s core.toNat g.toNat w ∧ iOp w = 0x30 ∧
    (reg s core.toNat g.toNat (iA w)).toNat = v ∧ v < 0xFFFFFFFF ∧ v ≠ (coreOf s core.toNat).epoch.toNat + 1 ∧ v ≠ (coreOf s core.toNat).epoch.toNat) ∧
    (∃ (s : State) (core : BitVec 5) (g : BitVec 1) (w : Nat) (c : Nat), AtWord s core.toNat g.toNat w ∧ iOp w = 0x31 ∧
    (coreOf s core.toNat).ctx = some c ∧ c < 256 ∧ (nbit w 5 = false ∨ anyOutstanding (grainOf (coreOf s core.toNat) g.toNat) = false)) ∧
    (∃ (s : State) (core : BitVec 5) (g : BitVec 1) (w : Nat), AtWord s core.toNat g.toNat w ∧ iOp w = 0x31 ∧ nbit w 5 = true ∧
    anyOutstanding (grainOf (coreOf s core.toNat) g.toNat) = true) ∧
    (∃ (s : State) (core : BitVec 5) (g : BitVec 1) (w : Nat), AtWord s core.toNat g.toNat w ∧ iOp w = 0x32) ∧
    (∃ (s : State) (core : BitVec 5) (g : BitVec 1) (w : Nat), AtWord s core.toNat g.toNat w ∧ iOp w = 0x36 ∧
    (grainOf (coreOf s core.toNat) (1 - g.toNat)).inbox.length < 4) ∧
    (∃ (s : State) (core : BitVec 5) (g : BitVec 1) (w : Nat), AtWord s core.toNat g.toNat w ∧ iOp w = 0x36 ∧
    4 ≤ (grainOf (coreOf s core.toNat) (1 - g.toNat)).inbox.length) ∧
    (∃ (s : State) (core : BitVec 5) (g : BitVec 1) (w : Nat) (v : W64) (o : Byte) (rest : List (W64 × Byte)), AtWord s core.toNat g.toNat w ∧
    iOp w = 0x37 ∧ (grainOf (coreOf s core.toNat) g.toNat).inbox = (v, o) :: rest) ∧
    (∃ (s : State) (core : BitVec 5) (g : BitVec 1) (w : Nat), AtWord s core.toNat g.toNat w ∧ iOp w = 0x37 ∧
    (grainOf (coreOf s core.toNat) g.toNat).inbox = []) ∧
    (∃ (s : State) (core : BitVec 5) (g : BitVec 1) (w : Nat), AtWord s core.toNat g.toNat w ∧ iOp w = 0x33) ∧
    (∃ (s : State) (core : BitVec 5) (g : BitVec 1) (cause : Byte) (tag : Byte), grainRuns s core.toNat g.toNat = true ∧
    trapDue (grainOf (coreOf s core.toNat) g.toNat) = true ∧ (grainOf (coreOf s core.toNat) g.toNat).arriving = [(cause, tag)] ∧
    (grainOf (coreOf s core.toNat) g.toNat).trapQueue = []) ∧
    (∃ (s : State) (core : BitVec 5) (g : BitVec 1), (grainOf (coreOf s core.toNat) g.toNat).inTrap = true ∨ (grainOf (coreOf s core.toNat)
    g.toNat).trapVec = 0 ∨ (grainOf (coreOf s core.toNat) g.toNat).arriving = [] ∨ (grainOf (coreOf s core.toNat) g.toNat).waiting = .sync ∨ (grainOf
    (coreOf s core.toNat) g.toNat).waiting = .issue) ∧
    (∃ (s : State) (core : BitVec 5) (g : BitVec 1), (grainOf (coreOf s core.toNat) g.toNat).inTrap = true ∨ (grainOf (coreOf s core.toNat)
    g.toNat).trapVec = 0 ∨ (grainOf (coreOf s core.toNat) g.toNat).arriving = [] ∨ (grainOf (coreOf s core.toNat) g.toNat).waiting = .sync ∨ (grainOf
    (coreOf s core.toNat) g.toNat).waiting = .issue) ∧
    (∃ (s : State) (core : BitVec 5) (g : BitVec 1) (w : Nat), AtWord s core.toNat g.toNat w ∧ iOp w = 0x34) ∧
    (∃ (s : State) (core : BitVec 5) (g : BitVec 1) (w : Nat), AtWord s core.toNat g.toNat w ∧ iOp w = 0x35) ∧
    (∃ (s : State) (core : BitVec 5) (g : BitVec 1), grainRuns s core.toNat g.toNat = true ∧
    trapDue (grainOf (coreOf s core.toNat) g.toNat) = false ∧ 16384 ≤ (grainOf (coreOf s core.toNat) g.toNat).pc) ∧
    (∃ (s : State) (core : BitVec 5) (g : BitVec 1), grainRuns s core.toNat g.toNat = true ∧
    trapDue (grainOf (coreOf s core.toNat) g.toNat) = false ∧ (grainOf (coreOf s core.toNat) g.toNat).pc < 16384 ∧
    legalWord (grainOf (coreOf s core.toNat) g.toNat) (fetchWord (grainOf (coreOf s core.toNat) g.toNat) (grainOf (coreOf s core.toNat) g.toNat).pc)
    = false) :=
  ⟨⟨gAt (iw 0x30 0 2 0) ({ g0 with regs := [(2, 1)] }) (g0), 31, 1, iw 0x30 0 2 0, 1, by decide⟩,
  ⟨gAt (iw 0x30 0 2 0) ({ g0 with regs := [(2, 2)] }) (g0), 31, 1, iw 0x30 0 2 0, 2, by decide⟩,
  ⟨gAt (iw 0x31 0 0 1) (gX) (g0), 31, 1, iw 0x31 0 0 1, 1, by decide⟩,
  ⟨gAt (iw 0x31 0 0 0x21) ({ g0 with tags := [(7, .outstanding)] }) (g0), 31, 1, iw 0x31 0 0 0x21, by decide⟩,
  ⟨gAt (iw 0x32 4 0 0) (gX) (g0), 31, 1, iw 0x32 4 0 0, by decide⟩,
  ⟨gAt (iw 0x36 0 2 0) (gX) ({ g0 with inbox := [(1, 0), (2, 0), (3, 0)] }), 31, 1, iw 0x36 0 2 0, by decide⟩,
  ⟨gAt (iw 0x36 0 2 0) (gX) ({ g0 with inbox := [(1, 0), (2, 0), (3, 0), (4, 0)] }), 31, 1, iw 0x36 0 2 0, by decide⟩,
  ⟨gAt (iw 0x37 4 0 0) ({ g0 with inbox := [(1, 3)] }) (g0), 31, 1, iw 0x37 4 0 0, 1, 3, [], by decide⟩,
  ⟨gAt (iw 0x37 4 0 0) (gX) (g0), 31, 1, iw 0x37 4 0 0, by decide⟩,
  ⟨gAt (iw 0x33 0 0 0) ({ g0 with trapQueue := [(1, 7)] }) (g0), 31, 1, iw 0x33 0 0 0, by decide⟩,
  ⟨gAt (0) ({ g0 with trapVec := 8, arriving := [(1, 7)] }) (g0), 31, 1, 1, 7, by decide⟩,
  ⟨gAt (0) (gX) (g0), 31, 1, by decide⟩,
  ⟨gAt (0) ({ g0 with trapVec := 8, arriving := [(1, 7)], waiting := .sync }) (g0), 31, 1, by decide⟩,
  ⟨gAt (iw 0x34 0 0 0) ({ g0 with inTrap := true, trapRet := 3 }) (g0), 31, 1, iw 0x34 0 0 0, by decide⟩,
  ⟨gAt (iw 0x35 4 0 0) ({ g0 with trapsLost := 2 }) (g0), 31, 1, iw 0x35 4 0 0, by decide⟩,
  ⟨gAt (0) ({ g0 with pc := 16384 }) (g0), 31, 1, by decide⟩,
  ⟨gAt (0) (gX) (g0), 31, 1, by decide⟩⟩
theorem test_BarrierAndHalt :
    (∃ (s : State) (core : BitVec 5) (g : BitVec 1) (w : Nat) (c : Nat), AtWord s core.toNat g.toNat w ∧ iOp w = 0x38 ∧
    (coreOf s core.toNat).ctx = some c ∧ (grainOf (coreOf s core.toNat) g.toNat).inTrap = false ∧
    (grainOf (coreOf s core.toNat) g.toNat).released = false ∧ barrierOther s c (BitVec.ofNat 8 (nbits w 7 0)) = true) ∧
    (∃ (s : State) (core : BitVec 5) (g : BitVec 1) (w : Nat) (c : Nat), AtWord s core.toNat g.toNat w ∧ iOp w = 0x38 ∧
    (coreOf s core.toNat).ctx = some c ∧ (grainOf (coreOf s core.toNat) g.toNat).inTrap = false ∧
    (grainOf (coreOf s core.toNat) g.toNat).released = false ∧ barrierOther s c (BitVec.ofNat 8 (nbits w 7 0)) = false ∧
    (grainOf (coreOf s core.toNat) g.toNat).barrier = none ∧ (∃ m ∈ barrierMembers s c, m ≠ (core.toNat, g.toNat) ∧
    (grainOf (coreOf s m.1) m.2).barrier = none)) ∧
    (∃ (s : State) (core : BitVec 5) (g : BitVec 1) (w : Nat) (c : Nat), AtWord s core.toNat g.toNat w ∧ iOp w = 0x38 ∧
    (coreOf s core.toNat).ctx = some c ∧ (grainOf (coreOf s core.toNat) g.toNat).inTrap = false ∧
    (grainOf (coreOf s core.toNat) g.toNat).released = false ∧ barrierOther s c (BitVec.ofNat 8 (nbits w 7 0)) = false ∧
    (grainOf (coreOf s core.toNat) g.toNat).barrier = none ∧ (core.toNat, g.toNat) ∈ barrierMembers s c ∧ nbits w 7 0 ≠ 0xFE ∧
    (∀ m ∈ barrierMembers s c, m ≠ (core.toNat, g.toNat) → (grainOf (coreOf s m.1) m.2).barrier = some (BitVec.ofNat 8 (nbits w 7 0)))) ∧
    (∃ (s : State) (core : BitVec 5) (g : BitVec 1) (w : Nat) (c : Nat) (p : Nat) (ch : Charter), AtWord s core.toNat g.toNat w ∧ iOp w = 0x38 ∧
    (coreOf s core.toNat).ctx = some c ∧ (grainOf (coreOf s core.toNat) g.toNat).inTrap = false ∧
    (grainOf (coreOf s core.toNat) g.toNat).released = false ∧ barrierOther s c 0xFE = false ∧
    (grainOf (coreOf s core.toNat) g.toNat).barrier = none ∧ (core.toNat, g.toNat) ∈ barrierMembers s c ∧ nbits w 7 0 = 0xFE ∧
    (∀ m ∈ barrierMembers s c, m ≠ (core.toNat, g.toNat) → (grainOf (coreOf s m.1) m.2).barrier = some 0xFE) ∧ p = (ctxOf s c).part.toNat ∧
    (partOf s p).charter = some ch ∧ ch.active = false) ∧
    (∃ (s : State) (core : BitVec 5) (g : BitVec 1) (w : Nat) (c : Nat) (p : Nat) (ch : Charter) (x : Grain) (verdict : Nat),
    AtWord s core.toNat g.toNat w ∧ iOp w = 0x38 ∧ (coreOf s core.toNat).ctx = some c ∧ (grainOf (coreOf s core.toNat) g.toNat).inTrap = false ∧
    (grainOf (coreOf s core.toNat) g.toNat).released = false ∧ barrierOther s c 0xFE = false ∧
    (grainOf (coreOf s core.toNat) g.toNat).barrier = none ∧ (core.toNat, g.toNat) ∈ barrierMembers s c ∧ nbits w 7 0 = 0xFE ∧
    (∀ m ∈ barrierMembers s c, m ≠ (core.toNat, g.toNat) → (grainOf (coreOf s m.1) m.2).barrier = some 0xFE) ∧ p = (ctxOf s c).part.toNat ∧
    (partOf s p).charter = some ch ∧ ch.active = true ∧ x = grainOf (coreOf s ((ctxCores (ctxOf s c)).head?.getD 0)) 0 ∧
    verdict = (if !audience ch 5 x.owner then 0xFF else if natLE (mread x.scratch 0 8) = 0 then 0 else 1)) ∧
    (∃ (s : State) (core : BitVec 5) (g : BitVec 1) (w : Nat), AtWord s core.toNat g.toNat w ∧ iOp w = 0x3F) :=
  ⟨⟨gAt (iw 0x38 0 0 5) (gX) ({ g0 with started := true, barrier := some 6 }), 31, 1, iw 0x38 0 0 5, 1, by decide⟩,
  ⟨gAt (iw 0x38 0 0 5) (gX) ({ g0 with started := true }), 31, 1, iw 0x38 0 0 5, 1, by decide⟩,
  ⟨gAt (iw 0x38 0 0 5) (gX) ({ g0 with started := true, barrier := some 5 }), 31, 1, iw 0x38 0 0 5, 1, by decide⟩,
  ⟨modPart 2 (fun q => { q with charter := some { doc := [], active := false } }) (gAt (iw 0x38 0 0 0xFE) (g0)
    ({ g0 with started := true, barrier := some 0xFE })), 31, 1, iw 0x38 0 0 0xFE, 1, 2, { doc := [], active := false }, by decide⟩,
  ⟨modPart 2 (fun q => { q with charter := some { doc := [], active := true } }) (gAt (iw 0x38 0 0 0xFE) (g0)
    ({ g0 with started := true, barrier := some 0xFE })), 31, 1, iw 0x38 0 0 0xFE, 1, 2, { doc := [], active := true },
    grainOf (coreOf (modPart 2 (fun q => { q with charter := some { doc := [], active := true } }) (gAt (iw 0x38 0 0 0xFE) (g0)
    ({ g0 with started := true, barrier := some 0xFE }))) 0) 0, _, by and_intros <;> first | decide | exact rfl⟩,
  ⟨gAt (iw 0x3F 0 2 0) (gX) (g0), 31, 1, iw 0x3F 0 2 0, by decide⟩⟩
theorem test_MoverStartAndMove :
    (∃ (i : BitVec 5 → BitVec 1 → Instr) (op : Nat) (acc : Bool) (s : State) (core : BitVec 5) (m : BitVec 1) (d : BitVec 512) (g : Nat) (rest : List
    (BitVec 512 × Nat)), (i, op, acc) ∈ [(Instr.tmCopy, 0x60, false), (Instr.tmLayout, 0x61, false), (Instr.tmGather, 0x62, false), (Instr.tmZero,
    0x63, false), (Instr.tmZeroAcc, 0x63, true), (Instr.tmReduce, 0x64, false), (Instr.tmAccRead, 0x65, false), (Instr.tmSend, 0x66, false)] ∧
    coreLive s core.toNat = true ∧ (moverOf s core.toNat m.toNat).run = none ∧ (moverOf s core.toNat m.toNat).queue = (d, g) :: rest ∧ dOp d = op ∧
    (op = 0x63 → tAcc d = acc)) ∧
    (∃ (s : State) (core : BitVec 5) (m : BitVec 1) (r : MovRun) (x : Nat) (hb : Hdr × Bytes), Moving s core.toNat m.toNat r ∧ dOp r.desc = 0x60 ∧
    Memory.wf s.mem = true ∧ x = coreCtx s core.toNat ∧ hb = carried s x (tSrcAt r.desc r.done) ∧
    HbmSlot s x (tDstAt r.desc r.done) (64 + hb.2.length)) ∧
    (∃ (s : State) (core : BitVec 5) (m : BitVec 1) (r : MovRun) (x : Nat) (src : Nat) (dst : Nat) (h : Hdr), Moving s core.toNat m.toNat r ∧
    dOp r.desc = 0x61 ∧ Memory.wf s.mem = true ∧ x = coreCtx s core.toNat ∧ src = tSrcAt r.desc r.done ∧ dst = tDstAt r.desc r.done ∧
    h = moverHdr s x src ∧ UsableTile s x src ∧ hMode h ≠ 3 ∧ hFormat h ≠ 0x0B ∧ CacheSlot s dst (transposeFp h)) ∧
    (∃ (s : State) (core : BitVec 5) (m : BitVec 1) (r : MovRun) (x : Nat) (ix : Nat) (dst : Nat) (v : Nat) (h : Hdr),
    Moving s core.toNat m.toNat r ∧ dOp r.desc = 0x62 ∧ Memory.wf s.mem = true ∧ x = coreCtx s core.toNat ∧
    ix = unitAddr core.toNat (tIndex r.desc) ∧ dst = tDstAt r.desc r.done ∧ h = moverHdr s x (tSrc r.desc) ∧
    v = natMin (tRows r.desc) (hVCols (moverHdr s x ix) - r.done * tRows r.desc) ∧ UsableTile s x ix ∧ UsableTile s x (tSrc r.desc) ∧
    gatherSame h h = .ok ∧ hFormat h ≠ 0x0B ∧ CacheSlot s dst (footprint (gatherOut r.desc h).payload) ∧ (∀ k < v, ∃ j : Nat,
    indexAt s x ix (r.done * tRows r.desc + k) = j ∧ j < tLimit r.desc ∧ UsableTile s x (tSrcAt r.desc (j / hRows h)) ∧
    gatherSame h (moverHdr s x (tSrcAt r.desc (j / hRows h))) = .ok ∧ j % hRows h < hVRows (moverHdr s x (tSrcAt r.desc (j / hRows h))))) ∧
    (∃ (s : State) (core : BitVec 5) (m : BitVec 1) (r : MovRun) (x : Nat) (src : Nat) (dst : Nat) (h : Hdr), Moving s core.toNat m.toNat r ∧
    dOp r.desc = 0x64 ∧ r.adds = [] ∧ x = coreCtx s core.toNat ∧ src = tSrcAt r.desc r.done ∧ dst = tDstAt r.desc r.done ∧ h = moverHdr s x src ∧
    UsableTile s x src ∧ contribCheck s x dst false h = .ok) ∧
    (∃ (s : State) (core : BitVec 5) (m : BitVec 1) (r : MovRun) (x : Nat) (key : Nat) (tr : Nat) (hb : Hdr × Bytes) (e : BitVec 128),
    Moving s core.toNat m.toNat r ∧ dOp r.desc = 0x66 ∧ sendLink r.desc = true ∧ x = coreCtx s core.toNat ∧ x < 256 ∧ key = sendKey r.desc ∧
    e = entryOf s key ∧ eValid e = true ∧ eRole e = 0 ∧ 3 ≤ (pathOf s key).phase ∧ (r.stream = 0 → (pathOf s key).flight.length < 32768) ∧
    tr = (if r.stream = 0 then (pathOf s key).next.toNat else r.sent.getLast?.getD 0) ∧ tr < 2 ^ 16 ∧
    hdrCheckUse (coreConsumer s core.toNat) carriedFormat (moverHdr s x (tSrcAt r.desc r.done)) = none ∧ hb = carried s x (tSrcAt r.desc r.done)) ∧
    (∃ (s : State) (core : BitVec 5) (m : BitVec 1) (r : MovRun), Moving s core.toNat m.toNat r ∧ dOp r.desc = 0x60 ∧ Memory.wf s.mem = true ∧
    CacheSlot s (tDstAt r.desc r.done) (64 + (carried s (coreCtx s core.toNat) (tSrcAt r.desc r.done)).2.length)) ∧
    (∃ (s : State) (core : BitVec 5) (m : BitVec 1) (r : MovRun), Moving s core.toNat m.toNat r ∧ dOp r.desc = 0x63 ∧ tAcc r.desc = false ∧
    Memory.wf s.mem = true ∧ CacheSlot s (tDstAt r.desc r.done) 64) ∧
    (∃ (s : State) (core : BitVec 5) (m : BitVec 1) (r : MovRun), (moverOf s core.toNat m.toNat).run = some r ∧
    (r.waitAdm ≠ none ∨ tCount r.desc ≤ r.done ∨ r.status ≠ none)) :=
  ⟨⟨Instr.tmZeroAcc, 0x63, true, withMover { queue := [(mdesc 0x63 1 1, 1)] } sCtx, 31, 1, mdesc 0x63 1 1, 1, [], by simp, by decide⟩,
  ⟨withMover { run := some { desc := mdescTo 0x40 0 0x60 } } ({ sMem with mem := writeHdr [] (unitAddr 31 4) (denseTile 0x0A) }), 31, 1,
    { desc := mdescTo 0x40 0 0x60 }, 1, _, by decide, by decide, by decide, by decide, rfl, by decide, by decide, by decide, by decide,
    no_snapshot _ _ (by decide), span_all (by decide)⟩,
  ⟨withMover { run := some { desc := mdesc 0x61 0 1 } } ({ sMem with mem := writeHdr [] (unitAddr 31 4) (denseTile 0x0A) }), 31, 1,
    { desc := mdesc 0x61 0 1 }, 1, unitAddr 31 4, unitAddr 31 6, denseTile 0x0A, by decide⟩,
  ⟨withMover { run := some { desc := mdescTo (unitAddr 31 6) 0 0x62 } }
    ({ sMem with mem := writeHdr (writeHdr [] (unitAddr 31 4) (denseTile 0x0A)) (unitAddr 31 2) (denseTile 0x0C) }), 31, 1,
    { desc := mdescTo (unitAddr 31 6) 0 0x62 }, 1, unitAddr 31 2, unitAddr 31 6, 1, denseTile 0x0A, by decide, by decide, by decide, by decide,
    by decide, by decide, by decide, by decide, by decide, by decide, by decide, by decide, by decide,
    fun k hk => by obtain rfl := Nat.lt_one_iff.mp hk; exact ⟨0, by decide⟩⟩,
  ⟨withMover { run := some { desc := mdesc 0x64 0 1 } }
    ({ sMem with mem := writeHdr (writeHdr [] (unitAddr 31 4) (denseTile 0x0A)) (unitAddr 31 6) (openRecord (denseTile 0x0A) 1 1 1 2 0 0) }), 31, 1,
    { desc := mdesc 0x64 0 1 }, 1, unitAddr 31 4, unitAddr 31 6, denseTile 0x0A, by decide⟩,
  ⟨withPathOn 0 openPath (moving { desc := mdescTo (2 ^ 47 + 5 * 2 ^ 33) 0 0x66 }), 31, 1, { desc := mdescTo (2 ^ 47 + 5 * 2 ^ 33) 0 0x66 }, 1, 5, 0,
    (rowTile 1 0x0A 0 0 true, []), mkEntry 0 3 5 1 2 1 1 0 1 0 100, by decide⟩,
  ⟨moving { desc := mdesc 0x60 0 1 }, 31, 1, { desc := mdesc 0x60 0 1 }, by decide⟩,
  ⟨moving { desc := mdesc 0x63 0 1 }, 31, 1, { desc := mdesc 0x63 0 1 }, by decide⟩,
  ⟨moving { desc := mdesc 0x60 0 1, done := 1 }, 31, 1, { desc := mdesc 0x60 0 1, done := 1 }, by decide⟩⟩
theorem test_MoverWaitsAndCompletion :
    (∃ (s : State) (core : BitVec 5) (m : BitVec 1) (r : MovRun), coreLive s core.toNat = true ∧ (moverOf s core.toNat m.toNat).run = some r ∧
    r.waitAcc = true ∧ dOp r.desc = 0x65 ∧ accReady s (coreCtx s core.toNat) (tSrcAt r.desc r.done) = true ∧ Memory.wf s.mem = true ∧
    CacheSlot s (tDstAt r.desc r.done) (64 + (readOut core.toNat m.toNat r (coreCtx s core.toNat) (tSrcAt r.desc r.done) s).2.length)) ∧
    (∃ (s : State) (core : BitVec 5) (m : BitVec 1) (r : MovRun), (moverOf s core.toNat m.toNat).run = some r ∧
    accReady s (coreCtx s core.toNat) (tSrcAt r.desc r.done) = false) ∧
    (∃ (s : State) (core : BitVec 5) (m : BitVec 1) (r : MovRun) (e : Nat), coreLive s core.toNat = true ∧
    (moverOf s core.toNat m.toNat).run = some r ∧ r.waitAdm = some e ∧ tBounded r.desc = false ∧ dOp r.desc ≠ 0x66) ∧
    (∃ (s : State) (core : BitVec 5) (m : BitVec 1) (r : MovRun) (e : Nat) (p : Nat) (u : Admit × State), coreLive s core.toNat = true ∧
    (moverOf s core.toNat m.toNat).run = some r ∧ r.waitAdm = some e ∧ tBounded r.desc = true ∧ sendPush r.desc = false ∧
    (sendLink r.desc = true → (pathOf s (sendKey r.desc)).seq < 2 ^ 48 - 1) ∧ p = (ctxOf s (coreCtx s core.toNat)).part.toNat ∧
    u = admitAt (natMax (now s) e) p (tResv r.desc) r.charged s ∧ u.1 = .accepted) ∧
    (∃ (s : State) (core : BitVec 5) (m : BitVec 1) (r : MovRun) (e : Nat) (p : Nat) (u : Admit × State), coreLive s core.toNat = true ∧
    (moverOf s core.toNat m.toNat).run = some r ∧ r.waitAdm = some e ∧ tBounded r.desc = true ∧ sendPush r.desc = false ∧
    (sendLink r.desc = true → (pathOf s (sendKey r.desc)).seq < 2 ^ 48 - 1) ∧ p = (ctxOf s (coreCtx s core.toNat)).part.toNat ∧
    u = admitAt (natMax (now s) e) p (tResv r.desc) r.charged s ∧ u.1 = .notAdmitted) ∧
    (∃ (s : State) (core : BitVec 5) (m : BitVec 1) (r : MovRun) (e : Nat) (p : Nat) (u : Admit × State) (f : Nat), coreLive s core.toNat = true ∧
    (moverOf s core.toNat m.toNat).run = some r ∧ r.waitAdm = some e ∧ tBounded r.desc = true ∧ sendPush r.desc = false ∧
    (sendLink r.desc = true → (pathOf s (sendKey r.desc)).seq < 2 ^ 48 - 1) ∧ p = (ctxOf s (coreCtx s core.toNat)).part.toNat ∧
    u = admitAt (natMax (now s) e) p (tResv r.desc) r.charged s ∧ u.1 = .deferred f ∧ tWait r.desc = true) ∧
    (∃ (s : State) (core : BitVec 5) (m : BitVec 1) (r : MovRun) (st : Status), coreLive s core.toNat = true ∧
    (moverOf s core.toNat m.toNat).run = some r ∧ r.status = some st ∧ r.adds = [] ∧ r.sent = []) ∧
    (∃ (s : State) (core : BitVec 5) (m : BitVec 1) (r : MovRun), coreLive s core.toNat = true ∧ (moverOf s core.toNat m.toNat).run = some r ∧
    r.status = none ∧ moverEnded s core.toNat m.toNat r = true) ∧
    (∃ (s : State) (core : BitVec 5) (m : BitVec 1) (r : MovRun), coreLive s core.toNat = true ∧ (moverOf s core.toNat m.toNat).run = some r ∧
    r.status = none ∧ r.done < tCount r.desc) :=
  ⟨⟨withMover { run := some { desc := mdesc 0x65 0 1, waitAcc := true } } sCtx, 31, 1, { desc := mdesc 0x65 0 1, waitAcc := true }, by decide⟩,
  ⟨{ withMover { run := some { desc := mdesc 0x65 0 1, waitAcc := true } } sCtx with mem := accRec }, 31, 1,
    { desc := mdesc 0x65 0 1, waitAcc := true }, by decide⟩,
  ⟨moving { desc := mdesc 0x60 0 1, waitAdm := some 5 }, 31, 1, { desc := mdesc 0x60 0 1, waitAdm := some 5 }, 5, by decide⟩,
  ⟨modCtx 1 (fun k => { k with part := 0 })
    { moving { desc := mdescTo 0x40 (2 ^ 24) 0x60, waitAdm := some 9 } with cfg := (sResv 0).cfg, parts := (sResv 0).parts }, 31, 1,
    { desc := mdescTo 0x40 (2 ^ 24) 0x60, waitAdm := some 9 }, 9, 0,
    admitAt 9 0 0 0 (modCtx 1 (fun k => { k with part := 0 })
    { moving { desc := mdescTo 0x40 (2 ^ 24) 0x60, waitAdm := some 9 } with cfg := (sResv 0).cfg, parts := (sResv 0).parts }),
    by and_intros <;> first | decide | exact rfl⟩,
  ⟨modCtx 1 (fun k => { k with part := 0 })
    { moving { desc := mdescTo 0x40 (2 ^ 24) 0x60, waitAdm := some 9, charged := 2 ^ 20 } with cfg := (sResv 0).cfg, parts := (sResv 0).parts }, 31,
    1, { desc := mdescTo 0x40 (2 ^ 24) 0x60, waitAdm := some 9, charged := 2 ^ 20 }, 9, 0,
    admitAt 9 0 0 1048576 (modCtx 1 (fun k => { k with part := 0 })
    { moving { desc := mdescTo 0x40 (2 ^ 24) 0x60, waitAdm := some 9, charged := 2 ^ 20 } with cfg := (sResv 0).cfg, parts := (sResv 0).parts }),
    by and_intros <;> first | decide | exact rfl⟩,
  ⟨modCtx 1 (fun k => { k with part := 0 })
    { moving { desc := mdescTo 0x40 (2 ^ 239 + 2 ^ 24) 0x60, waitAdm := some 9, charged := 1000 } with cfg := (sResv 0).cfg, parts := (sResv 0).parts },
    31, 1, { desc := mdescTo 0x40 (2 ^ 239 + 2 ^ 24) 0x60, waitAdm := some 9, charged := 1000 }, 9, 0,
    admitAt 9 0 0 1000 (modCtx 1 (fun k => { k with part := 0 })
    { moving { desc := mdescTo 0x40 (2 ^ 239 + 2 ^ 24) 0x60, waitAdm := some 9, charged := 1000 } with cfg := (sResv 0).cfg, parts := (sResv 0).parts }),
    327, by and_intros <;> first | decide | exact rfl⟩,
  ⟨moving { desc := mdesc 0x60 0 1, status := some .denied }, 31, 1, { desc := mdesc 0x60 0 1, status := some .denied }, .denied, by decide⟩,
  ⟨moving { desc := mdesc 0x60 0 1, done := 1 }, 31, 1, { desc := mdesc 0x60 0 1, done := 1 }, by decide⟩,
  ⟨moving { desc := mdesc 0x60 0 1 }, 31, 1, { desc := mdesc 0x60 0 1 }, by decide⟩⟩
theorem test_LineReadAndWrite :
    (∃ (s : State) (m : Master) (pa : W64), s.pkg.supply = .on ∧ masterCheck s m rREAD (lineOf pa.toNat) = .ok ∧
    ctrlWindow (lineOf pa.toNat) = false ∧ (isHbm s (lineOf pa.toNat) = true → isMeta s (lineOf pa.toNat) = false → poisoned s (lineOf pa.toNat) =
    false)) ∧
    (∃ (s : State) (m : Master) (pa : W64), s.pkg.supply = .on ∧ masterCheck s m rREAD (lineOf pa.toNat) = .ok ∧ isHbm s (lineOf pa.toNat) = true ∧
    isMeta s (lineOf pa.toNat) = false ∧ poisoned s (lineOf pa.toNat) = true) ∧
    (∃ (s : State) (m : Master) (pa : W64) (find : HbmFind), s.pkg.supply = .on ∧ masterCheck s m rREAD (lineOf pa.toNat) ≠ .ok) ∧
    (∃ (s : State) (m : Master) (pa : W64) (find : HbmFind), s.pkg.supply = .on ∧ masterCheck s m rREAD (lineOf pa.toNat) ≠ .ok) ∧
    (∃ (s : State) (m : Master) (pa : W64) (find : HbmFind), s.pkg.supply = .on ∧ ctrlWindow (lineOf pa.toNat) = true) ∧
    (∃ (s : State) (m : Master) (pa : W64), s.pkg.supply = .on ∧ masterCheck s m rREAD (lineOf pa.toNat) = .ok ∧ isHbm s (lineOf pa.toNat) = true ∧
    isMeta s (lineOf pa.toNat) = false ∧ findHits s (lineOf pa.toNat) .tagBad = true) ∧
    (∃ (s : State) (m : Master) (pa : W64) (d : WriteLine), s.pkg.supply = .on ∧ writeCheck s m (lineOf pa.toNat) = .ok ∧
    isHbm s (lineOf pa.toNat) = true ∧ isMeta s (lineOf pa.toNat) = false ∧ NoSnapshot s (lineOf pa.toNat) ∧ CounterOpen s (lineOf pa.toNat) ∧
    Memory.wf s.mem = true) ∧
    (∃ (s : State) (m : Master) (pa : W64) (d : WriteLine), s.pkg.supply = .on ∧ writeCheck s m (lineOf pa.toNat) = .ok ∧
    isHbm s (lineOf pa.toNat) = true ∧ isMeta s (lineOf pa.toNat) = false ∧ NoSnapshot s (lineOf pa.toNat) ∧ CounterOpen s (lineOf pa.toNat) ∧
    Memory.wf s.mem = true) ∧
    (∃ (s : State) (m : Master) (pa : W64) (d : WriteLine), s.pkg.supply = .on ∧ writeCheck s m (lineOf pa.toNat) = .ok ∧
    isHbm s (lineOf pa.toNat) = true ∧ isMeta s (lineOf pa.toNat) = false ∧ NoSnapshot s (lineOf pa.toNat) ∧ sealedAt s (lineOf pa.toNat) = true ∧
    (ctrGroup s (lineOf pa.toNat / 4096)).busy = false ∧ (ctrGroup s (lineOf pa.toNat / 4096)).shut = false ∧
    minorOf (ctrGroup s (lineOf pa.toNat / 4096)) (lineOf pa.toNat) = 127 ∧ Memory.wf s.mem = true ∧
    (ctrGroup s (lineOf pa.toNat / 4096)).major ≠ majorEnd) ∧
    (∃ (s : State) (m : Master) (pa : W64) (d : WriteLine), s.pkg.supply = .on ∧ writeCheck s m (lineOf pa.toNat) = .ok ∧
    isHbm s (lineOf pa.toNat) = true ∧ isMeta s (lineOf pa.toNat) = false ∧ NoSnapshot s (lineOf pa.toNat) ∧ sealedAt s (lineOf pa.toNat) = true ∧
    (ctrGroup s (lineOf pa.toNat / 4096)).busy = false ∧ (ctrGroup s (lineOf pa.toNat / 4096)).shut = false ∧
    minorOf (ctrGroup s (lineOf pa.toNat / 4096)) (lineOf pa.toNat) = 127 ∧ Memory.wf s.mem = true ∧
    (ctrGroup s (lineOf pa.toNat / 4096)).major = majorEnd) ∧
    (∃ (s : State) (m : Master) (pa : W64) (d : WriteLine), s.pkg.supply = .on ∧ writeCheck s m (lineOf pa.toNat) = .ok ∧
    isHbm s (lineOf pa.toNat) = true ∧ NoSnapshot s (lineOf pa.toNat) ∧ groupBusy s (lineOf pa.toNat) = true) ∧
    (∃ (s : State) (m : Master) (pa : W64) (n : BitVec 7) (d : BitVec 512), s.pkg.supply = .on ∧ writeCheck s m (lineOf pa.toNat) = .ok ∧
    isHbm s (lineOf pa.toNat) = true ∧ isMeta s (lineOf pa.toNat) = false ∧ NoSnapshot s (lineOf pa.toNat) ∧ CounterOpen s (lineOf pa.toNat) ∧
    Memory.wf s.mem = true ∧ poisoned s (lineOf pa.toNat) = false ∧ 0 < n.toNat ∧ pa.toNat % 64 + n.toNat ≤ 64) ∧
    (∃ (s : State) (m : Master) (pa : W64) (n : BitVec 7) (d : BitVec 512) (find : HbmFind), s.pkg.supply = .on ∧
    writeCheck s m (lineOf pa.toNat) = .ok ∧ isHbm s (lineOf pa.toNat) = true ∧ (find = .good ∨ NoSnapshot s (lineOf pa.toNat)) ∧
    poisoned s (lineOf pa.toNat) = true ∧ groupBusy s (lineOf pa.toNat) = false ∧ 0 < n.toNat ∧ pa.toNat % 64 + n.toNat ≤ 64) ∧
    (∃ (s : State) (m : Master) (pa : W64) (n : BitVec 7) (d : BitVec 512) (find : HbmFind), s.pkg.supply = .on ∧ 64 < pa.toNat % 64 + n.toNat ∧
    0 < n.toNat) ∧
    (∃ (s : State) (m : Master) (pa : W64) (d : WriteLine), s.pkg.supply = .on ∧ withdrawn s (lineOf pa.toNat) = true ∧ m ≠ 0x5F) ∧
    (∃ (s : State) (m : Master) (pa : W64) (d : WriteLine) (a : Nat) (p : Nat) (e : Nat) (n : Snapshot), s.pkg.supply = .on ∧ a = lineOf pa.toNat ∧
    writeCheck s m a = .ok ∧ isHbm s a = true ∧ isMeta s a = false ∧ CounterOpen s a ∧ Memory.wf s.mem = true ∧ d.find = .good ∧
    partOfSlice s (sliceOf a) = some p ∧ n = (partOf s p).snap ∧ needsPush n a = true ∧ poisonIn s (a / 4096 * 4096) 4096 = false ∧
    e = mapPa n (shardGroup n a) ∧ pushFull n a = true) ∧
    (∃ (s : State) (m : Master) (pa : W64) (d : WriteLine) (a : Nat) (p : Nat) (e : Nat) (n : Snapshot), s.pkg.supply = .on ∧ a = lineOf pa.toNat ∧
    writeCheck s m a = .ok ∧ isHbm s a = true ∧ isMeta s a = false ∧ CounterOpen s a ∧ Memory.wf s.mem = true ∧ d.find = .good ∧
    partOfSlice s (sliceOf a) = some p ∧ n = (partOf s p).snap ∧ needsPush n a = true ∧ poisonIn s (a / 4096 * 4096) 4096 = false ∧
    e = mapPa n (shardGroup n a) ∧ pushFull n a = false ∧ e / 4096 ≠ a / 4096 ∧ e % 64 + 4 ≤ 64 ∧ isHbm s e = true ∧ isAlias e = false ∧
    isMeta s (lineOf e) = false ∧ poisoned s (lineOf e) = false ∧ CounterOpen s (lineOf e)) :=
  ⟨⟨sMem, 62, pa1, by decide⟩,
  ⟨withHbm { poison := [0x8001] } sMem, 62, pa1, by decide⟩,
  ⟨sMem, 60, pa1, .good, by decide⟩,
  ⟨sReady, 62, pa1, .good, by decide⟩,
  ⟨sMem, 0x51, 0x7F8000000000, .good, by decide⟩,
  ⟨group1 { minors := [(1, 3)] }, 62, pa1, by decide⟩,
  ⟨sMem, 62, pa1, { data := 9 }, by decide, by decide, by decide, by decide, no_snapshot _ _ (by decide), by decide, by decide⟩,
  ⟨inRegion (region1 - 2 ^ 43) sMem, 62, pa1, { data := 9 }, by decide, by decide, by decide, by decide, no_snapshot _ _ (by decide), by decide,
    by decide⟩,
  ⟨group1 { minors := [(1, 127)] }, 62, pa1, { data := 9 }, by decide, by decide, by decide, by decide, no_snapshot _ _ (by decide),
    by and_intros <;> decide⟩,
  ⟨group1 { major := majorEnd, minors := [(1, 127)] }, 62, pa1, { data := 9 }, by decide, by decide, by decide, by decide,
    no_snapshot _ _ (by decide), by and_intros <;> decide⟩,
  ⟨group1 { busy := true }, 62, pa1, { data := 9 }, by decide, by decide, by decide, no_snapshot _ _ (by decide), by decide⟩,
  ⟨sMem, 62, pa1 + 1, 63, 0x1234, by decide, by decide, by decide, by decide, no_snapshot _ _ (by decide), by and_intros <;> decide⟩,
  ⟨withHbm { poison := [0x8001] } sMem, 62, pa1, 5, 9, .good, by decide⟩,
  ⟨sMem, 62, pa1 + 2, 63, 0x1234, .good, by decide⟩,
  ⟨sArrived, 62, pa1, { data := 9 }, by decide⟩,
  ⟨copying, 62, pa1, { data := 9 }, 0x200040, 2, 0, (partOf copying 2).snap, by decide⟩,
  ⟨modSnap (fun z => { z with staging := 2, areas := [(0x400000, 0x4000)] }) copying, 62, pa1, { data := 9 }, 0x200040, 2, 0x402000,
    (partOf (modSnap (fun z => { z with staging := 2, areas := [(0x400000, 0x4000)] }) copying) 2).snap, by decide⟩⟩
theorem test_LineAddAndMetadata :
    (∃ (s : State) (stack : BitVec 4) (ch : BitVec 5) (a : LineAdd) (rest : List LineAdd) (k : Contrib) (pa : Nat), s.pkg.supply = .on ∧
    tget [] s.hbm.atomQ (stack.toNat * 32 + ch.toNat) = a :: rest ∧ contribOf s a.id = k ∧ 2 ≤ k.queued ∧ linePa s k a.line = pa ∧
    (∀ x ∈ s.hbm.contribs, x.1 ≠ a.id → (contribOf s x.1).todo ≠ [] ∨ (contribOf s x.1).queued ≠ 0 ∨ (contribOf s x.1).whole = false) ∧
    isHbm s pa = true ∧ isMeta s pa = false ∧ poisoned s pa = false ∧ NoSnapshot s pa ∧ CounterOpen s pa ∧ Memory.wf s.mem = true) ∧
    (∃ (s : State) (stack : BitVec 4) (ch : BitVec 5) (find : HbmFind), (tget [] s.hbm.atomQ (stack.toNat * 32 + ch.toNat) = [] ∨ ∃ a rest,
    tget [] s.hbm.atomQ (stack.toNat * 32 + ch.toNat) = a :: rest ∧ groupBusy s (linePa s (contribOf s a.id) a.line) = true)) ∧
    (∃ (s : State) (stack : BitVec 4) (ch : BitVec 5) (find : HbmFind), (tget [] s.hbm.atomQ (stack.toNat * 32 + ch.toNat) = [] ∨ ∃ a rest,
    tget [] s.hbm.atomQ (stack.toNat * 32 + ch.toNat) = a :: rest ∧ groupBusy s (linePa s (contribOf s a.id) a.line) = true)) ∧
    (∃ (s : State) (g : W64) (k : CtrGroup), ctrGroup s g.toNat = k ∧ k.busy = true ∧ k.waiting = [] ∧ k.trig = none ∧ s.hbm.contribs = []) ∧
    (∃ (s : State) (g : W64) (k : CtrGroup) (pa : Nat) (d : BitVec 512) (m : Nat), ctrGroup s g.toNat = k ∧ k.busy = true ∧ k.shut = false ∧
    k.trig = none ∧ k.waiting = [{ pa := pa, data := d, master := m, reply := true }] ∧ pa / 4096 = g.toNat ∧ pa % 64 = 0 ∧ isHbm s pa = true ∧
    isMeta s pa = false ∧ sealedAt s pa = true ∧ s.hbm.contribs = [] ∧ Memory.wf s.mem = true) ∧
    (∃ (s : State) (g : W64) (k : CtrGroup) (pa : Nat) (d : BitVec 512) (m : Nat), ctrGroup s g.toNat = k ∧ k.busy = true ∧ k.waiting = [] ∧
    k.trig = some { pa := pa, data := d, master := m, reply := true } ∧ pa / 4096 = g.toNat ∧ pa % 64 = 0 ∧ s.hbm.contribs = [] ∧
    Memory.wf s.mem = true) ∧
    (∃ (s : State) (g : W64) (bad : W64), (ctrGroup s g.toNat).busy = false) ∧
    (∃ (s : State) (line : W64) (k : Nat) (i : Nat), lineOf line.toNat ∈ s.hbm.dirty ∧ parentOf (lineOf line.toNat) = some (some k, i) ∧
    tget 0 s.hbm.nodes k + 1 < counterEnd) ∧
    (∃ (s : State) (line : W64) (i : Nat), lineOf line.toNat ∈ s.hbm.dirty ∧ parentOf (lineOf line.toNat) = some (none, i) ∧
    tget 0 s.hbm.roots i + 1 < counterEnd) ∧
    (∃ (s : State) (line : W64), lineOf line.toNat ∈ s.hbm.dirty ∧ parentOf (lineOf line.toNat) = none) ∧
    (∃ (s : State) (line : W64), lineOf line.toNat ∉ s.hbm.dirty) ∧
    (∃ (s : State) (ctx : BitVec 8) (entry : BitVec 10) (w : ZotWork), s.hbm.zotQ = [w] ∧ w.ctx = ctx.toNat ∧ w.entry = entry.toNat ∧
    regValid (tget 0 (ctxOf s ctx.toNat).regions entry.toNat) = true ∧
    (w.isSealed = true → pathEnds s (sliceOf w.base) (w.base % 2 ^ 32 / 4096) ((w.base % 2 ^ 32 + w.len - 1) / 4096) = false)) ∧
    (∃ (s : State) (p : BitVec 4) (g : Nat) (rest : List Nat) (burst : List Nat) (i : Nat) (core : Nat), (partOf s p.toNat).snap.pbuf = g :: rest ∧
    burst = ((g :: rest).filter (fun x => stackOf (x * 4096) / 3 == stackOf (g * 4096) / 3)).take 16 ∧
    pushChannel s p.toNat (burst.length * 32) = some (i, core)) ∧
    (∃ (s : State) (p : BitVec 4) (g : Nat) (k : Nat) (a : Nat) (i : Nat) (core : Nat), (partOf s p.toNat).snap.pbuf = [g] ∧
    tget 0 (partOf s p.toNat).snap.map g = k + 1 ∧ pushChannel s p.toNat 32 = some (i, core) ∧ a = stagePa (partOf s p.toNat).snap k ∧ a % 64 = 0 ∧
    isAlias a = false ∧ Memory.wf s.mem = true ∧ (tget [] (partOf s p.toNat).snap.stage k).length = 4096 ∧ (∀ j < 64, isHbm s (a + 64 * j) = true ∧
    isMeta s (a + 64 * j) = false ∧ CounterOpen s (a + 64 * j))) ∧
    (∃ (s : State) (p : BitVec 4), ((partOf s p.toNat).snap.pbuf = [] ∨ ∀ ns, pushChannel s p.toNat ns = none)) :=
  ⟨⟨sAdding, 0, 1, { id := 4, line := 1 }, [], { ctx := 1, slot := 0x80, fmt := 0x0A, queued := 2, whole := true }, 0x200100,
    by and_intros <;> first | decide | exact no_snapshot _ _ (by decide)⟩,
  ⟨sMem, 0, 1, .good, Or.inl (by decide)⟩,
  ⟨{ sAdding with hbm := { sAdding.hbm with groups := [(0x200, { busy := true })] } }, 0, 1, .good, Or.inr ⟨_, _, rfl, by decide⟩⟩,
  ⟨group1 { minors := [(1, 127)], busy := true }, 0x200, { minors := [(1, 127)], busy := true }, by decide⟩,
  ⟨group1 { minors := [(1, 127)], busy := true, waiting := [{ pa := 0x200040, data := 9, master := 62, reply := true }] }, 0x200,
    { minors := [(1, 127)], busy := true, waiting := [{ pa := 0x200040, data := 9, master := 62, reply := true }] }, 0x200040, 9, 62, by decide⟩,
  ⟨group1 { minors := [(1, 127)], busy := true, trig := some { pa := 0x200040, data := 9, master := 62, reply := true } }, 0x200,
    { minors := [(1, 127)], busy := true, trig := some { pa := 0x200040, data := 9, master := 62, reply := true } }, 0x200040, 9, 62, by decide⟩,
  ⟨sMem, 0x200, 3, by decide⟩,
  ⟨withHbm { dirty := [0xFC008000] } sMem, 0xFC008000, nodePa 0 1 0x40 * 8, 0, by decide⟩,
  ⟨withHbm { dirty := [nodePa 0 6 1] } sMem, BitVec.ofNat 64 (nodePa 0 6 1), 1, by decide⟩,
  ⟨withHbm { dirty := [0xE0008000] } sMem, 0xE0008000, by decide⟩,
  ⟨sMem, 0xFC008000, by decide⟩,
  ⟨withHbm { zotQ := [{ ctx := 1, entry := 3, base := 0x200000, len := 0x200000, isSealed := true }] } (inRegion (region1 + 2) sMem), 1, 3,
    { ctx := 1, entry := 3, base := 0x200000, len := 0x200000, isSealed := true }, by decide⟩,
  ⟨{ modSnap (fun z => { z with pbuf := [0x200, 0x201] }) (sCh 1 {}) with cfg := { cfgReset with active := sections [(1, partsSec), (5, bytesLE 2 1 ++ List.replicate 6 0 ++ bytesLE 8 (2 * 2 ^ 56 + 31 * 2 ^ 48 + 4 * 2 ^ 40 + 2 * 2 ^ 32 + 1))] } },
    2, 0x200, [0x201], [0x200, 0x201], 0, 31, by decide⟩,
  ⟨{ modSnap (fun z => { z with pbuf := [0x200], map := [(0x200, 1)], stage := [(0, List.replicate 4096 7)], staging := 2, areas := [(0x400000, 0x4000)] }) (sCh 1 {}) with cfg := { cfgReset with active := sections [(1, partsSec), (5, bytesLE 2 1 ++ List.replicate 6 0 ++ bytesLE 8 (2 * 2 ^ 56 + 31 * 2 ^ 48 + 4 * 2 ^ 40 + 2 * 2 ^ 32 + 1))] } },
    2, 0x200, 0, 0x400000, 0, 31, by decide⟩,
  ⟨sMem, 2, Or.inl (by decide)⟩⟩
theorem test_LinkHandshake :
    (∃ (s : State) (l : BitVec 5), fwRuns s = true ∧ linkSt s l.toNat = .down ∧ linkEnabled (active s) l.toNat = true ∧ linkRef s l.toNat = true ∧
    (linkOf s l.toNat).retryOk = true) ∧
    (∃ (s : State) (l : BitVec 5) (d : Nat), linkSt s l.toNat = .training) ∧
    (∃ (s : State) (l : BitVec 5) (d : Nat), linkSt s l.toNat = .training) ∧
    (∃ (s : State) (l : BitVec 5) (p : Bytes), linkSt s l.toNat = .hello ∧ hlOk p = true ∧ p.length = hlLen p) ∧
    (∃ (s : State) (l : BitVec 5) (p : Bytes), linkSt s l.toNat = .hello ∧ hlOk p = false) ∧
    (∃ (s : State) (l : BitVec 5) (p : Bytes), linkSt s l.toNat = .attest ∧ (linkOf s l.toNat).report = []) ∧
    (∃ (s : State) (l : BitVec 5) (accept : Bool), linkSt s l.toNat = .attest ∧ (linkOf s l.toNat).report ≠ []) ∧
    (∃ (s : State) (l : BitVec 5) (f : Frame), linkSt s l.toNat = .keyed ∧ fType f.hdr = 0x12) ∧
    (∃ (s : State) (l : BitVec 5) (f : Frame), linkSt s l.toNat = .attest ∧ fType f.hdr = 0x12) :=
  ⟨⟨sLink .down, 3, by decide⟩,
  ⟨sLink .training, 3, 900, by decide⟩,
  ⟨sLink .training, 3, 1001, by decide⟩,
  ⟨sLink .hello, 3, hello9, by decide⟩,
  ⟨sLink .hello, 3, [1], by decide⟩,
  ⟨sLink .attest, 3, [1], by decide⟩,
  ⟨withLink 3 { linkReset with state := .attest, report := [1] } sReady, 3, true, by decide⟩,
  ⟨sLink .keyed, 3, fr 0x12 2 0 (List.replicate 148 0), by decide⟩,
  ⟨sLink .attest, 3, fr 0x12 2 0 [1], by decide⟩⟩
theorem test_LinkLoss :
    (∃ (i : BitVec 5 → Instr) (st : LinkState) (cause : Nat) (s : State) (l : BitVec 5), (i, st, cause) ∈ [(Instr.trainTimeout, LinkState.training,
    1), (Instr.helloTimeout, .hello, 2), (Instr.attestTimeout, .attest, 3), (Instr.keyTimeout, .keyed, 4), (Instr.signalLoss, .training, 0x10),
    (Instr.signalLoss, .hello, 0x10), (Instr.signalLoss, .attest, 0x10), (Instr.signalLoss, .keyed, 0x10)] ∧ linkSt s l.toNat = st) ∧
    (∃ (s : State) (l : BitVec 5), linkSt s l.toNat = .up) ∧
    (∃ (s : State) (l : BitVec 5) (f : Frame), fType f.hdr = 0x13 ∧
    (linkSt s l.toNat = .hello ∨ linkSt s l.toNat = .attest ∨ linkSt s l.toNat = .keyed)) ∧
    (∃ (s : State) (l : BitVec 5) (f : Frame), fType f.hdr = 0x13 ∧
    (linkSt s l.toNat = .hello ∨ linkSt s l.toNat = .attest ∨ linkSt s l.toNat = .keyed)) ∧
    (∃ (s : State) (l : BitVec 5) (f : Frame), Arrives s l.toNat f 0x13 2) ∧
    (∃ (s : State) (l : BitVec 5) (cause : Byte), linkUp s l.toNat = true ∧ cause ∈ ([0x10, 0x11, 0x15, 0x16] : List Byte)) ∧
    (∃ (s : State) (l : BitVec 5) (cause : Byte), linkUp s l.toNat = true ∧ cause ∈ ([0x10, 0x11, 0x15, 0x16] : List Byte)) ∧
    (∃ (s : State) (l : BitVec 5), linkUp s l.toNat = true ∧ (linkOf s l.toNat).degraded = true) ∧
    (∃ (s : State) (l : BitVec 5), (linkOf s l.toNat).degraded = false) ∧
    (∃ (s : State) (l : BitVec 5), linkUp s l.toNat = true ∧ (linkOf s l.toNat).unacked ≠ []) ∧
    (∃ (s : State) (l : BitVec 5), linkUp s l.toNat = true ∧ (linkOf s l.toNat).unacked ≠ []) ∧
    (∃ (s : State) (l : BitVec 5), linkSt s l.toNat = .fenced) ∧
    (∃ (s : State) (l : BitVec 5), linkSt s l.toNat = .fenced) ∧
    (∃ (s : State) (l : BitVec 5), linkSt s l.toNat = .down ∧ (linkOf s l.toNat).retryOk = false) :=
  ⟨⟨Instr.trainTimeout, .training, 1, sLink .training, 3, by simp, by decide⟩,
  ⟨sLink .up, 3, by decide⟩,
  ⟨sLink .hello, 3, fr 0x13 2 0 [], by decide⟩,
  ⟨sLink .keyed, 3, fr 0x13 2 0 [], by decide⟩,
  ⟨sUp linkReset, 3, sealF (sUp linkReset) 3 (fr 0x13 2 (0) []), ⟨by decide, hop_seal (by decide), by decide, by decide⟩⟩,
  ⟨sUp linkReset, 3, 0x15, by decide⟩,
  ⟨sUp linkReset, 3, 0x16, by decide⟩,
  ⟨sUp { linkReset with degraded := true }, 3, by decide⟩,
  ⟨sUp linkReset, 3, by decide⟩,
  ⟨sUp { linkReset with unacked := [{ tx1 3 with tries := 6 }] }, 3, by decide⟩,
  ⟨sUp { linkReset with unacked := [{ tx1 3 with tries := 7 }] }, 3, by decide⟩,
  ⟨sLink .fenced, 3, by decide⟩,
  ⟨withLink 3 { linkReset with state := .fenced, cause := 0x16 } sReady, 3, by decide⟩,
  ⟨withLink 3 { linkReset with retryOk := false } sReady, 3, by decide⟩⟩
theorem test_LinkFrames :
    (∃ (s : State) (l : BitVec 5) (u : TxFrame) (rest : List TxFrame), linkUp s l.toNat = true ∧ (linkOf s l.toNat).ctrlQ = u :: rest) ∧
    (∃ (s : State) (l : BitVec 5) (u : TxFrame) (rest : List TxFrame), linkUp s l.toNat = true ∧ (linkOf s l.toNat).ctrlQ = [] ∧
    (linkOf s l.toNat).retrQ = u :: rest) ∧
    (∃ (q : Nat) (us : List TxFrame) (i : Nat) (u : TxFrame), us[i]? = some u) ∧
    (∃ (k : Link) (i : Nat) (u : TxFrame), boundedNext k = some (i, u) ∧ (k.bndQ[i]? = some u ∧ covered k u = true ∧ ∀ v ∈ k.bndQ,
    covered k v = true)) ∧
    (∃ (s : State) (l : BitVec 5) (i : Nat) (u : TxFrame), linkUp s l.toNat = true ∧ (linkOf s l.toNat).ctrlQ = [] ∧ (linkOf s l.toNat).retrQ = [] ∧
    (linkOf s l.toNat).unacked.length < 1024 ∧ boundedNext (linkOf s l.toNat) = some (i, u)) ∧
    (∃ (s : State) (l : BitVec 5) (f : Frame), Arrives s l.toNat f 0x02 2) ∧
    (∃ (s : State) (l : BitVec 5) (f : Frame), Arrives s l.toNat f 0x02 2) ∧
    (∃ (s : State) (l : BitVec 5) (f : Frame), Arrives s l.toNat f 0x03 2) ∧
    (∃ (s : State) (l : BitVec 5) (f : Frame), Arrives s l.toNat f 0x03 2) ∧
    (∃ (s : State) (l : BitVec 5) (f : Frame), Arrives s l.toNat f 0x3F 1 ∧ fSeq f.hdr = (linkOf s l.toNat).rxSeq.toNat) ∧
    (∃ (s : State) (l : BitVec 5), linkUp s l.toNat = true) ∧
    (∃ (s : State) (l : BitVec 5) (f : Frame), linkUp s l.toNat = true ∧ fType f.hdr = 0x02 ∧ hopOk s l.toNat f = false) ∧
    (∃ (s : State) (l : BitVec 5) (f : Frame), linkUp s l.toNat = true ∧ fType f.hdr = 0x02 ∧ hopOk s l.toNat f = false) ∧
    (∃ (s : State) (l : BitVec 5) (errors : Nat), linkUp s l.toNat = true) :=
  ⟨⟨sUp { linkReset with ctrlQ := [tx1 3], retrQ := [tx1 4] }, 3, tx1 3, [], by decide⟩,
  ⟨sUp { linkReset with retrQ := [tx1 4] }, 3, tx1 4, [], by decide⟩,
  ⟨5, [tx1 3, tx1 4], 1, tx1 4, by decide⟩,
  ⟨kBnd, 1, tx1 300, by decide⟩,
  ⟨sUp kBnd, 3, 1, tx1 300, by decide⟩,
  ⟨sUp kSent, 3, sealF (sUp kSent) 3 (fr 0x02 2 (2 ^ 144) []), ⟨by decide, hop_seal (by decide), by decide, by decide⟩⟩,
  ⟨sUp kSent, 3, sealF (sUp kSent) 3 (fr 0x02 2 (5 * 2 ^ 144) []), ⟨by decide, hop_seal (by decide), by decide, by decide⟩⟩,
  ⟨sUp kSent, 3, sealF (sUp kSent) 3 (fr 0x03 2 (2 * 2 ^ 144) []), ⟨by decide, hop_seal (by decide), by decide, by decide⟩⟩,
  ⟨sUp kSent, 3, sealF (sUp kSent) 3 (fr 0x03 2 (9 * 2 ^ 144) []), ⟨by decide, hop_seal (by decide), by decide, by decide⟩⟩,
  ⟨sUp kSent, 3, sealF (sUp kSent) 3 (fr 0x3F 1 (4 * 2 ^ 144) []), ⟨by decide, hop_seal (by decide), by decide, by decide⟩, by decide⟩,
  ⟨sUp kSent, 3, by decide⟩,
  ⟨sUp linkReset, 3, { fr 2 2 0 [] with txc := 0 }, by decide⟩,
  ⟨sUp { linkReset with hopFail := 15 }, 3, { fr 2 2 0 [] with txc := 0 }, by decide⟩,
  ⟨sUp linkReset, 3, 100, by decide⟩⟩
theorem test_PathFrames :
    (∃ (s : State) (l : BitVec 5) (f : Frame), Arrives s l.toNat f 0x20 2 ∧ fPath f.hdr ≠ 0) ∧
    (∃ (s : State) (l : BitVec 5) (f : Frame) (key : Nat), Arrives s l.toNat f 0x21 2 ∧ backEntry s l.toNat (fPath f.hdr) = some key ∧
    eRole (entryOf s key) = 1 ∧ fHops f.hdr ≠ 0) ∧
    (∃ (s : State) (l : BitVec 5) (f : Frame) (key : Nat), Arrives s l.toNat f 0x21 2 ∧ backEntry s l.toNat (fPath f.hdr) = some key ∧
    eRole (entryOf s key) = 0 ∧ (pathOf s key).phase ≠ 1) ∧
    (∃ (s : State) (l : BitVec 5) (f : Frame) (key : Nat), Arrives s l.toNat f 0x21 2 ∧ backEntry s l.toNat (fPath f.hdr) = some key ∧
    eRole (entryOf s key) = 0 ∧ (pathOf s key).phase = 1) ∧
    (∃ (s : State) (l : BitVec 5) (f : Frame), Arrives s l.toNat f 0x22 2 ∧ eValid (entryOf s (pathKey (l.toNat / 16) (fPath f.hdr))) = true ∧
    eRole (entryOf s (pathKey (l.toNat / 16) (fPath f.hdr))) = 1 ∧ fHops f.hdr ≠ 0) ∧
    (∃ (s : State) (l : BitVec 5) (f : Frame), Arrives s l.toNat f 0x22 2 ∧ eValid (entryOf s (pathKey (l.toNat / 16) (fPath f.hdr))) = true ∧
    eRole (entryOf s (pathKey (l.toNat / 16) (fPath f.hdr))) = 2 ∧ (pathOf s (pathKey (l.toNat / 16) (fPath f.hdr))).phase = 2) ∧
    (∃ (s : State) (l : BitVec 5) (f : Frame), Arrives s l.toNat f 0x23 2 ∧ eValid (entryOf s (pathKey (l.toNat / 16) (fPath f.hdr))) = false) ∧
    (∃ (s : State) (l : BitVec 5) (f : Frame), Arrives s l.toNat f 0x23 2 ∧ eValid (entryOf s (pathKey (l.toNat / 16) (fPath f.hdr))) = true ∧
    ((eRole (entryOf s (pathKey (l.toNat / 16) (fPath f.hdr))) = 1 ∧ fHops f.hdr ≠ 0) ∨ eRole (entryOf s (pathKey (l.toNat / 16) (fPath f.hdr))) = 2)) ∧
    (∃ (s : State) (l : BitVec 5) (f : Frame), Arrives s l.toNat f 0x23 2 ∧ eValid (entryOf s (pathKey (l.toNat / 16) (fPath f.hdr))) = true ∧
    ((eRole (entryOf s (pathKey (l.toNat / 16) (fPath f.hdr))) = 1 ∧ fHops f.hdr ≠ 0) ∨ eRole (entryOf s (pathKey (l.toNat / 16) (fPath f.hdr))) = 2)) ∧
    (∃ (s : State) (l : BitVec 5) (f : Frame) (key : Nat), Arrives s l.toNat f 0x24 2 ∧ backEntry s l.toNat (fPath f.hdr) = some key ∧
    (eRole (entryOf s key) = 1 → fHops f.hdr ≠ 0)) ∧
    (∃ (s : State) (l : BitVec 5) (f : Frame) (key : Nat), Arrives s l.toNat f 0x25 2 ∧ backEntry s l.toNat (fPath f.hdr) = some key ∧
    eRole (entryOf s key) = 0) ∧
    (∃ (s : State) (die : BitVec 1) (path : BitVec 12), eValid (entryOf s (pathKey die.toNat path.toNat)) = true ∧
    eRole (entryOf s (pathKey die.toNat path.toNat)) = 0 ∧ (pathOf s (pathKey die.toNat path.toNat)).phase = 3 ∧
    (pathOf s (pathKey die.toNat path.toNat)).notice = true ∧ (pathOf s (pathKey die.toNat path.toNat)).flight = [] ∧
    sendsOn s (pathKey die.toNat path.toNat) = false ∧ linkUp s (eOutLink (entryOf s (pathKey die.toNat path.toNat))) = true) ∧
    (∃ (s : State) (die : BitVec 1) (path : BitVec 12), (pathOf s (pathKey die.toNat path.toNat)).notice = false) :=
  ⟨⟨sUp linkReset, 3, sealF (sUp linkReset) 3 (fr 0x20 2 (5 * 2 ^ 228) []), ⟨by decide, hop_seal (by decide), by decide, by decide⟩, by decide⟩,
  ⟨sPath 1 openPath, 3, sealF (sPath 1 openPath) 3 (fr 0x21 2 (2 ^ 240 + 5 * 2 ^ 228) []), 5, ⟨by decide, hop_seal (by decide), by decide,
    by decide⟩, by decide, by decide, by decide⟩,
  ⟨sPath 0 openPath, 3, sealF (sPath 0 openPath) 3 (fr 0x21 2 (5 * 2 ^ 228) []), 5, ⟨by decide, hop_seal (by decide), by decide, by decide⟩,
    by decide, by decide, by decide⟩,
  ⟨sPath 0 { openPath with phase := 1 }, 3, sealF (sPath 0 { openPath with phase := 1 }) 3 (fr 0x21 2 (5 * 2 ^ 228) []), 5, ⟨by decide,
    hop_seal (by decide), by decide, by decide⟩, by decide, by decide, by decide⟩,
  ⟨sPath 1 openPath, 3, sealF (sPath 1 openPath) 3 (fr 0x22 2 (2 ^ 240 + 5 * 2 ^ 228) []), ⟨by decide, hop_seal (by decide), by decide, by decide⟩,
    by decide, by decide, by decide⟩,
  ⟨sPath 2 { openPath with phase := 2 }, 3, sealF (sPath 2 { openPath with phase := 2 }) 3 (fr 0x22 2 (5 * 2 ^ 228) []), ⟨by decide,
    hop_seal (by decide), by decide, by decide⟩, by decide, by decide, by decide⟩,
  ⟨sUp linkReset, 3, sealF (sUp linkReset) 3 (fr 0x23 2 (5 * 2 ^ 228) []), ⟨by decide, hop_seal (by decide), by decide, by decide⟩, by decide⟩,
  ⟨sPath 2 openPath, 3, sealF (sPath 2 openPath) 3 (fr 0x23 2 (5 * 2 ^ 228) []), ⟨by decide, hop_seal (by decide), by decide, by decide⟩, by decide,
    by decide⟩,
  ⟨sPath 1 openPath, 3, sealF (sPath 1 openPath) 3 (fr 0x23 2 (2 ^ 240 + 5 * 2 ^ 228) []), ⟨by decide, hop_seal (by decide), by decide, by decide⟩,
    by decide, by decide⟩,
  ⟨sPath 0 openPath, 3, sealF (sPath 0 openPath) 3 (fr 0x24 2 (5 * 2 ^ 228) []), 5, ⟨by decide, hop_seal (by decide), by decide, by decide⟩,
    by decide, by decide⟩,
  ⟨sPath 0 openPath, 3, sealF (sPath 0 openPath) 3 (fr 0x25 2 (5 * 2 ^ 228) [1]), 5, ⟨by decide, hop_seal (by decide), by decide, by decide⟩,
    by decide, by decide⟩,
  ⟨sPath 0 { openPath with notice := true }, 0, 5, by decide⟩,
  ⟨sPath 0 openPath, 0, 5, by decide⟩⟩
theorem test_TransferOutcomes :
    (∃ (s : State) (l : BitVec 5) (f : Frame) (cls : Nat), Arrives s l.toNat f 0x01 cls ∧ cls < 2 ∧ fSeq f.hdr = (linkOf s l.toNat).rxSeq.toNat ∧
    eValid (entryOf s (pathKey (l.toNat / 16) (fPath f.hdr))) = false) ∧
    (∃ (s : State) (l : BitVec 5) (f : Frame) (cls : Nat), Arrives s l.toNat f 0x01 cls ∧ cls < 2 ∧ fSeq f.hdr = (linkOf s l.toNat).rxSeq.toNat ∧
    eValid (entryOf s (pathKey (l.toNat / 16) (fPath f.hdr))) = true ∧ eRole (entryOf s (pathKey (l.toNat / 16) (fPath f.hdr))) = 1 ∧ fHops f.hdr = 0) ∧
    (∃ (s : State) (l : BitVec 5) (f : Frame) (cls : Nat), Arrives s l.toNat f 0x01 cls ∧ cls < 2 ∧ fSeq f.hdr = (linkOf s l.toNat).rxSeq.toNat ∧
    eValid (entryOf s (pathKey (l.toNat / 16) (fPath f.hdr))) = true ∧ eRole (entryOf s (pathKey (l.toNat / 16) (fPath f.hdr))) = 1 ∧ fHops f.hdr ≠ 0) ∧
    (∃ (s : State) (l : BitVec 5) (f : Frame) (cls : Nat), Arrives s l.toNat f 0x01 cls ∧ cls < 2 ∧ fSeq f.hdr = (linkOf s l.toNat).rxSeq.toNat ∧
    eValid (entryOf s (pathKey (l.toNat / 16) (fPath f.hdr))) = true ∧ eRole (entryOf s (pathKey (l.toNat / 16) (fPath f.hdr))) = 1 ∧ fHops f.hdr ≠ 0) ∧
    (∃ (s : State) (l : BitVec 5) (f : Frame) (cls : Nat), Arrives s l.toNat f 0x01 cls ∧ cls < 2 ∧ fSeq f.hdr = (linkOf s l.toNat).rxSeq.toNat ∧
    eValid (entryOf s (pathKey (l.toNat / 16) (fPath f.hdr))) = true ∧ eRole (entryOf s (pathKey (l.toNat / 16) (fPath f.hdr))) = 2 ∧
    (pathOf s (pathKey (l.toNat / 16) (fPath f.hdr))).phase = 3 ∧ (∃ x ∈ s.paths.held, x.2.1 = (pathKey (l.toNat / 16) (fPath f.hdr)))) ∧
    (∃ (s : State) (l : BitVec 5) (f : Frame) (cls : Nat), Arrives s l.toNat f 0x01 cls ∧ cls < 2 ∧ fSeq f.hdr = (linkOf s l.toNat).rxSeq.toNat ∧
    eValid (entryOf s (pathKey (l.toNat / 16) (fPath f.hdr))) = true ∧ eRole (entryOf s (pathKey (l.toNat / 16) (fPath f.hdr))) = 2 ∧
    (pathOf s (pathKey (l.toNat / 16) (fPath f.hdr))).phase = 3 ∧ (∀ x ∈ s.paths.held, x.2.1 ≠ (pathKey (l.toNat / 16) (fPath f.hdr))) ∧
    (rxOf s (pathKey (l.toNat / 16) (fPath f.hdr)) (fTransfer f.hdr)).fail = none ∧
    (rxOf s (pathKey (l.toNat / 16) (fPath f.hdr)) (fTransfer f.hdr)).add = none ∧
    (fGen f.hdr ≠ eSendGen (entryOf s (pathKey (l.toNat / 16) (fPath f.hdr))) ∨ winGen (tget 0 (partOf s (ePart (entryOf s (pathKey (l.toNat / 16)
    (fPath f.hdr))))).windows (eWindow (entryOf s (pathKey (l.toNat / 16) (fPath f.hdr))))) ≠ (ctxOf s (winCtx (tget 0 (partOf s (ePart (entryOf s
    (pathKey (l.toNat / 16) (fPath f.hdr))))).windows (eWindow (entryOf s (pathKey (l.toNat / 16) (fPath f.hdr))))))).gen.toNat)) ∧
    (∃ (s : State) (l : BitVec 5) (f : Frame) (cls : Nat), Arrives s l.toNat f 0x01 cls ∧ cls < 2 ∧ fSeq f.hdr = (linkOf s l.toNat).rxSeq.toNat ∧
    eValid (entryOf s (pathKey (l.toNat / 16) (fPath f.hdr))) = true ∧ eRole (entryOf s (pathKey (l.toNat / 16) (fPath f.hdr))) = 2 ∧
    (pathOf s (pathKey (l.toNat / 16) (fPath f.hdr))).phase = 3 ∧ (∀ x ∈ s.paths.held, x.2.1 ≠ (pathKey (l.toNat / 16) (fPath f.hdr))) ∧
    (rxOf s (pathKey (l.toNat / 16) (fPath f.hdr)) (fTransfer f.hdr)).fail = none ∧
    (rxOf s (pathKey (l.toNat / 16) (fPath f.hdr)) (fTransfer f.hdr)).add = none ∧
    (fGen f.hdr ≠ eSendGen (entryOf s (pathKey (l.toNat / 16) (fPath f.hdr))) ∨ winGen (tget 0 (partOf s (ePart (entryOf s (pathKey (l.toNat / 16)
    (fPath f.hdr))))).windows (eWindow (entryOf s (pathKey (l.toNat / 16) (fPath f.hdr))))) ≠ (ctxOf s (winCtx (tget 0 (partOf s (ePart (entryOf s
    (pathKey (l.toNat / 16) (fPath f.hdr))))).windows (eWindow (entryOf s (pathKey (l.toNat / 16) (fPath f.hdr))))))).gen.toNat)) ∧
    (∃ (s : State) (l : BitVec 5) (f : Frame) (cls : Nat), Arrives s l.toNat f 0x01 cls ∧ cls < 2 ∧ fSeq f.hdr = (linkOf s l.toNat).rxSeq.toNat ∧
    eValid (entryOf s (pathKey (l.toNat / 16) (fPath f.hdr))) = true ∧ eRole (entryOf s (pathKey (l.toNat / 16) (fPath f.hdr))) = 2 ∧
    (pathOf s (pathKey (l.toNat / 16) (fPath f.hdr))).phase = 3 ∧ (∀ x ∈ s.paths.held, x.2.1 ≠ (pathKey (l.toNat / 16) (fPath f.hdr))) ∧
    (rxOf s (pathKey (l.toNat / 16) (fPath f.hdr)) (fTransfer f.hdr)).fail = none ∧
    (rxOf s (pathKey (l.toNat / 16) (fPath f.hdr)) (fTransfer f.hdr)).add = none ∧
    fPart f.hdr = (ePart (entryOf s (pathKey (l.toNat / 16) (fPath f.hdr)))) ∧
    fCtx f.hdr = eSendCtx (entryOf s (pathKey (l.toNat / 16) (fPath f.hdr))) ∧
    fGen f.hdr = eSendGen (entryOf s (pathKey (l.toNat / 16) (fPath f.hdr))) ∧
    ctxLive s (winCtx (tget 0 (partOf s (ePart (entryOf s (pathKey (l.toNat / 16) (fPath f.hdr))))).windows (eWindow (entryOf s (pathKey (l.toNat /
    16) (fPath f.hdr)))))) (ePart (entryOf s (pathKey (l.toNat / 16) (fPath f.hdr)))) = true ∧
    winGen (tget 0 (partOf s (ePart (entryOf s (pathKey (l.toNat / 16) (fPath f.hdr))))).windows (eWindow (entryOf s (pathKey (l.toNat / 16) (fPath
    f.hdr))))) = (ctxOf s (winCtx (tget 0 (partOf s (ePart (entryOf s (pathKey (l.toNat / 16) (fPath f.hdr))))).windows (eWindow (entryOf s (pathKey
    (l.toNat / 16) (fPath f.hdr))))))).gen.toNat ∧ winGen (tget 0 (partOf s (ePart (entryOf s (pathKey (l.toNat / 16) (fPath f.hdr))))).windows
    (eWindow (entryOf s (pathKey (l.toNat / 16) (fPath f.hdr))))) ≠ 0 ∧
    (wReduce (tget 0 (partOf s (ePart (entryOf s (pathKey (l.toNat / 16) (fPath f.hdr))))).windows (eWindow (entryOf s (pathKey (l.toNat / 16) (fPath
    f.hdr))))) = true → fEpoch f.hdr = wEpoch (tget 0 (partOf s (ePart (entryOf s (pathKey (l.toNat / 16) (fPath f.hdr))))).windows (eWindow (entryOf
    s (pathKey (l.toNat / 16) (fPath f.hdr))))) ∧ wDiscard (tget 0 (partOf s (ePart (entryOf s (pathKey (l.toNat / 16) (fPath f.hdr))))).windows
    (eWindow (entryOf s (pathKey (l.toNat / 16) (fPath f.hdr))))) = false) ∧ fFirst f.hdr = true ∧
    windowHolds s (ePart (entryOf s (pathKey (l.toNat / 16) (fPath f.hdr)))) (eWindow (entryOf s (pathKey (l.toNat / 16) (fPath f.hdr)))) (tget 0
    (partOf s (ePart (entryOf s (pathKey (l.toNat / 16) (fPath f.hdr))))).windows (eWindow (entryOf s (pathKey (l.toNat / 16) (fPath f.hdr)))))
    f.place (tileVa s (ePart (entryOf s (pathKey (l.toNat / 16) (fPath f.hdr)))) (eWindow (entryOf s (pathKey (l.toNat / 16) (fPath f.hdr)))) (tget 0
    (partOf s (ePart (entryOf s (pathKey (l.toNat / 16) (fPath f.hdr))))).windows (eWindow (entryOf s (pathKey (l.toNat / 16) (fPath f.hdr))))) f) 0
    (fLength f.hdr) = false) ∧
    (∃ (s : State) (l : BitVec 5) (f : Frame) (cls : Nat), Arrives s l.toNat f 0x01 cls ∧ cls < 2 ∧ fSeq f.hdr = (linkOf s l.toNat).rxSeq.toNat ∧
    eValid (entryOf s (pathKey (l.toNat / 16) (fPath f.hdr))) = true ∧ eRole (entryOf s (pathKey (l.toNat / 16) (fPath f.hdr))) = 2 ∧
    (pathOf s (pathKey (l.toNat / 16) (fPath f.hdr))).phase = 3 ∧ (∀ x ∈ s.paths.held, x.2.1 ≠ (pathKey (l.toNat / 16) (fPath f.hdr))) ∧
    (rxOf s (pathKey (l.toNat / 16) (fPath f.hdr)) (fTransfer f.hdr)).fail = none ∧
    (rxOf s (pathKey (l.toNat / 16) (fPath f.hdr)) (fTransfer f.hdr)).add = none ∧
    fPart f.hdr = (ePart (entryOf s (pathKey (l.toNat / 16) (fPath f.hdr)))) ∧
    fCtx f.hdr = eSendCtx (entryOf s (pathKey (l.toNat / 16) (fPath f.hdr))) ∧
    fGen f.hdr = eSendGen (entryOf s (pathKey (l.toNat / 16) (fPath f.hdr))) ∧
    ctxLive s (winCtx (tget 0 (partOf s (ePart (entryOf s (pathKey (l.toNat / 16) (fPath f.hdr))))).windows (eWindow (entryOf s (pathKey (l.toNat /
    16) (fPath f.hdr)))))) (ePart (entryOf s (pathKey (l.toNat / 16) (fPath f.hdr)))) = true ∧
    winGen (tget 0 (partOf s (ePart (entryOf s (pathKey (l.toNat / 16) (fPath f.hdr))))).windows (eWindow (entryOf s (pathKey (l.toNat / 16) (fPath
    f.hdr))))) = (ctxOf s (winCtx (tget 0 (partOf s (ePart (entryOf s (pathKey (l.toNat / 16) (fPath f.hdr))))).windows (eWindow (entryOf s (pathKey
    (l.toNat / 16) (fPath f.hdr))))))).gen.toNat ∧ winGen (tget 0 (partOf s (ePart (entryOf s (pathKey (l.toNat / 16) (fPath f.hdr))))).windows
    (eWindow (entryOf s (pathKey (l.toNat / 16) (fPath f.hdr))))) ≠ 0 ∧
    (wReduce (tget 0 (partOf s (ePart (entryOf s (pathKey (l.toNat / 16) (fPath f.hdr))))).windows (eWindow (entryOf s (pathKey (l.toNat / 16) (fPath
    f.hdr))))) = true → fEpoch f.hdr = wEpoch (tget 0 (partOf s (ePart (entryOf s (pathKey (l.toNat / 16) (fPath f.hdr))))).windows (eWindow (entryOf
    s (pathKey (l.toNat / 16) (fPath f.hdr))))) ∧ wDiscard (tget 0 (partOf s (ePart (entryOf s (pathKey (l.toNat / 16) (fPath f.hdr))))).windows
    (eWindow (entryOf s (pathKey (l.toNat / 16) (fPath f.hdr))))) = false) ∧ fFirst f.hdr = true ∧
    windowHolds s (ePart (entryOf s (pathKey (l.toNat / 16) (fPath f.hdr)))) (eWindow (entryOf s (pathKey (l.toNat / 16) (fPath f.hdr)))) (tget 0
    (partOf s (ePart (entryOf s (pathKey (l.toNat / 16) (fPath f.hdr))))).windows (eWindow (entryOf s (pathKey (l.toNat / 16) (fPath f.hdr)))))
    f.place (tileVa s (ePart (entryOf s (pathKey (l.toNat / 16) (fPath f.hdr)))) (eWindow (entryOf s (pathKey (l.toNat / 16) (fPath f.hdr)))) (tget 0
    (partOf s (ePart (entryOf s (pathKey (l.toNat / 16) (fPath f.hdr))))).windows (eWindow (entryOf s (pathKey (l.toNat / 16) (fPath f.hdr))))) f) 0
    (fLength f.hdr) = true) ∧
    (∃ (s : State) (l : BitVec 5) (f : Frame) (cls : Nat) (b : Bytes) (plain : Bytes) (h : Hdr) (va : Nat) (pa : Nat), Arrives s l.toNat f 0x01 cls ∧
    cls < 2 ∧ fSeq f.hdr = (linkOf s l.toNat).rxSeq.toNat ∧ eValid (entryOf s (pathKey (l.toNat / 16) (fPath f.hdr))) = true ∧
    eRole (entryOf s (pathKey (l.toNat / 16) (fPath f.hdr))) = 2 ∧ (pathOf s (pathKey (l.toNat / 16) (fPath f.hdr))).phase = 3 ∧ (∀ x ∈ s.paths.held,
    x.2.1 ≠ (pathKey (l.toNat / 16) (fPath f.hdr))) ∧ (rxOf s (pathKey (l.toNat / 16) (fPath f.hdr)) (fTransfer f.hdr)).fail = none ∧
    (rxOf s (pathKey (l.toNat / 16) (fPath f.hdr)) (fTransfer f.hdr)).add = none ∧
    fPart f.hdr = (ePart (entryOf s (pathKey (l.toNat / 16) (fPath f.hdr)))) ∧
    fCtx f.hdr = eSendCtx (entryOf s (pathKey (l.toNat / 16) (fPath f.hdr))) ∧
    fGen f.hdr = eSendGen (entryOf s (pathKey (l.toNat / 16) (fPath f.hdr))) ∧
    ctxLive s (winCtx (tget 0 (partOf s (ePart (entryOf s (pathKey (l.toNat / 16) (fPath f.hdr))))).windows (eWindow (entryOf s (pathKey (l.toNat /
    16) (fPath f.hdr)))))) (ePart (entryOf s (pathKey (l.toNat / 16) (fPath f.hdr)))) = true ∧
    winGen (tget 0 (partOf s (ePart (entryOf s (pathKey (l.toNat / 16) (fPath f.hdr))))).windows (eWindow (entryOf s (pathKey (l.toNat / 16) (fPath
    f.hdr))))) = (ctxOf s (winCtx (tget 0 (partOf s (ePart (entryOf s (pathKey (l.toNat / 16) (fPath f.hdr))))).windows (eWindow (entryOf s (pathKey
    (l.toNat / 16) (fPath f.hdr))))))).gen.toNat ∧ winGen (tget 0 (partOf s (ePart (entryOf s (pathKey (l.toNat / 16) (fPath f.hdr))))).windows
    (eWindow (entryOf s (pathKey (l.toNat / 16) (fPath f.hdr))))) ≠ 0 ∧
    (wReduce (tget 0 (partOf s (ePart (entryOf s (pathKey (l.toNat / 16) (fPath f.hdr))))).windows (eWindow (entryOf s (pathKey (l.toNat / 16) (fPath
    f.hdr))))) = true → fEpoch f.hdr = wEpoch (tget 0 (partOf s (ePart (entryOf s (pathKey (l.toNat / 16) (fPath f.hdr))))).windows (eWindow (entryOf
    s (pathKey (l.toNat / 16) (fPath f.hdr))))) ∧ wDiscard (tget 0 (partOf s (ePart (entryOf s (pathKey (l.toNat / 16) (fPath f.hdr))))).windows
    (eWindow (entryOf s (pathKey (l.toNat / 16) (fPath f.hdr))))) = false) ∧ fFirst f.hdr = true ∧
    windowHolds s (ePart (entryOf s (pathKey (l.toNat / 16) (fPath f.hdr)))) (eWindow (entryOf s (pathKey (l.toNat / 16) (fPath f.hdr)))) (tget 0
    (partOf s (ePart (entryOf s (pathKey (l.toNat / 16) (fPath f.hdr))))).windows (eWindow (entryOf s (pathKey (l.toNat / 16) (fPath f.hdr)))))
    f.place (tileVa s (ePart (entryOf s (pathKey (l.toNat / 16) (fPath f.hdr)))) (eWindow (entryOf s (pathKey (l.toNat / 16) (fPath f.hdr)))) (tget 0
    (partOf s (ePart (entryOf s (pathKey (l.toNat / 16) (fPath f.hdr))))).windows (eWindow (entryOf s (pathKey (l.toNat / 16) (fPath f.hdr))))) f) 0
    (fLength f.hdr) = true ∧ plain = padTo (fLength f.hdr) b ∧ h = BitVec.ofNat 512 (natLE (plain.take 64)) ∧
    va = tileVa s (ePart (entryOf s (pathKey (l.toNat / 16) (fPath f.hdr)))) (eWindow (entryOf s (pathKey (l.toNat / 16) (fPath f.hdr)))) (tget 0
    (partOf s (ePart (entryOf s (pathKey (l.toNat / 16) (fPath f.hdr))))).windows (eWindow (entryOf s (pathKey (l.toNat / 16) (fPath f.hdr))))) f ∧
    pa = translate s (winCtx (tget 0 (partOf s (ePart (entryOf s (pathKey (l.toNat / 16) (fPath f.hdr))))).windows (eWindow (entryOf s (pathKey
    (l.toNat / 16) (fPath f.hdr)))))) va ∧ wReduce (tget 0 (partOf s (ePart (entryOf s (pathKey (l.toNat / 16) (fPath f.hdr))))).windows (eWindow
    (entryOf s (pathKey (l.toNat / 16) (fPath f.hdr))))) = false ∧
    mirrorWin s (ePart (entryOf s (pathKey (l.toNat / 16) (fPath f.hdr)))) (eWindow (entryOf s (pathKey (l.toNat / 16) (fPath f.hdr)))) = none ∧
    hdrCheckUse none carriedFormat h = none ∧ accessCheck s (winCtx (tget 0 (partOf s (ePart (entryOf s (pathKey (l.toNat / 16) (fPath
    f.hdr))))).windows (eWindow (entryOf s (pathKey (l.toNat / 16) (fPath f.hdr)))))) [rWRITE] va (fLength f.hdr) = .ok ∧ 64 ≤ fLength f.hdr ∧
    fLength f.hdr % 64 = 0 ∧ HbmSlot s (winCtx (tget 0 (partOf s (ePart (entryOf s (pathKey (l.toNat / 16) (fPath f.hdr))))).windows (eWindow
    (entryOf s (pathKey (l.toNat / 16) (fPath f.hdr)))))) va (fLength f.hdr) ∧ Memory.wf s.mem = true ∧ fLength f.hdr < footprint (hPayload h) ∧
    fLast f.hdr = false) ∧
    (∃ (s : State) (l : BitVec 5) (f : Frame) (cls : Nat) (b : Bytes) (plain : Bytes) (h : Hdr) (va : Nat) (pa : Nat), Arrives s l.toNat f 0x01 cls ∧
    cls < 2 ∧ fSeq f.hdr = (linkOf s l.toNat).rxSeq.toNat ∧ eValid (entryOf s (pathKey (l.toNat / 16) (fPath f.hdr))) = true ∧
    eRole (entryOf s (pathKey (l.toNat / 16) (fPath f.hdr))) = 2 ∧ (pathOf s (pathKey (l.toNat / 16) (fPath f.hdr))).phase = 3 ∧ (∀ x ∈ s.paths.held,
    x.2.1 ≠ (pathKey (l.toNat / 16) (fPath f.hdr))) ∧ (rxOf s (pathKey (l.toNat / 16) (fPath f.hdr)) (fTransfer f.hdr)).fail = none ∧
    (rxOf s (pathKey (l.toNat / 16) (fPath f.hdr)) (fTransfer f.hdr)).add = none ∧
    fPart f.hdr = (ePart (entryOf s (pathKey (l.toNat / 16) (fPath f.hdr)))) ∧
    fCtx f.hdr = eSendCtx (entryOf s (pathKey (l.toNat / 16) (fPath f.hdr))) ∧
    fGen f.hdr = eSendGen (entryOf s (pathKey (l.toNat / 16) (fPath f.hdr))) ∧
    ctxLive s (winCtx (tget 0 (partOf s (ePart (entryOf s (pathKey (l.toNat / 16) (fPath f.hdr))))).windows (eWindow (entryOf s (pathKey (l.toNat /
    16) (fPath f.hdr)))))) (ePart (entryOf s (pathKey (l.toNat / 16) (fPath f.hdr)))) = true ∧
    winGen (tget 0 (partOf s (ePart (entryOf s (pathKey (l.toNat / 16) (fPath f.hdr))))).windows (eWindow (entryOf s (pathKey (l.toNat / 16) (fPath
    f.hdr))))) = (ctxOf s (winCtx (tget 0 (partOf s (ePart (entryOf s (pathKey (l.toNat / 16) (fPath f.hdr))))).windows (eWindow (entryOf s (pathKey
    (l.toNat / 16) (fPath f.hdr))))))).gen.toNat ∧ winGen (tget 0 (partOf s (ePart (entryOf s (pathKey (l.toNat / 16) (fPath f.hdr))))).windows
    (eWindow (entryOf s (pathKey (l.toNat / 16) (fPath f.hdr))))) ≠ 0 ∧
    (wReduce (tget 0 (partOf s (ePart (entryOf s (pathKey (l.toNat / 16) (fPath f.hdr))))).windows (eWindow (entryOf s (pathKey (l.toNat / 16) (fPath
    f.hdr))))) = true → fEpoch f.hdr = wEpoch (tget 0 (partOf s (ePart (entryOf s (pathKey (l.toNat / 16) (fPath f.hdr))))).windows (eWindow (entryOf
    s (pathKey (l.toNat / 16) (fPath f.hdr))))) ∧ wDiscard (tget 0 (partOf s (ePart (entryOf s (pathKey (l.toNat / 16) (fPath f.hdr))))).windows
    (eWindow (entryOf s (pathKey (l.toNat / 16) (fPath f.hdr))))) = false) ∧ fFirst f.hdr = true ∧
    windowHolds s (ePart (entryOf s (pathKey (l.toNat / 16) (fPath f.hdr)))) (eWindow (entryOf s (pathKey (l.toNat / 16) (fPath f.hdr)))) (tget 0
    (partOf s (ePart (entryOf s (pathKey (l.toNat / 16) (fPath f.hdr))))).windows (eWindow (entryOf s (pathKey (l.toNat / 16) (fPath f.hdr)))))
    f.place (tileVa s (ePart (entryOf s (pathKey (l.toNat / 16) (fPath f.hdr)))) (eWindow (entryOf s (pathKey (l.toNat / 16) (fPath f.hdr)))) (tget 0
    (partOf s (ePart (entryOf s (pathKey (l.toNat / 16) (fPath f.hdr))))).windows (eWindow (entryOf s (pathKey (l.toNat / 16) (fPath f.hdr))))) f) 0
    (fLength f.hdr) = true ∧ plain = padTo (fLength f.hdr) b ∧ h = BitVec.ofNat 512 (natLE (plain.take 64)) ∧
    va = tileVa s (ePart (entryOf s (pathKey (l.toNat / 16) (fPath f.hdr)))) (eWindow (entryOf s (pathKey (l.toNat / 16) (fPath f.hdr)))) (tget 0
    (partOf s (ePart (entryOf s (pathKey (l.toNat / 16) (fPath f.hdr))))).windows (eWindow (entryOf s (pathKey (l.toNat / 16) (fPath f.hdr))))) f ∧
    pa = translate s (winCtx (tget 0 (partOf s (ePart (entryOf s (pathKey (l.toNat / 16) (fPath f.hdr))))).windows (eWindow (entryOf s (pathKey
    (l.toNat / 16) (fPath f.hdr)))))) va ∧ wReduce (tget 0 (partOf s (ePart (entryOf s (pathKey (l.toNat / 16) (fPath f.hdr))))).windows (eWindow
    (entryOf s (pathKey (l.toNat / 16) (fPath f.hdr))))) = false ∧
    mirrorWin s (ePart (entryOf s (pathKey (l.toNat / 16) (fPath f.hdr)))) (eWindow (entryOf s (pathKey (l.toNat / 16) (fPath f.hdr)))) = none ∧
    hdrCheckUse none carriedFormat h = none ∧ accessCheck s (winCtx (tget 0 (partOf s (ePart (entryOf s (pathKey (l.toNat / 16) (fPath
    f.hdr))))).windows (eWindow (entryOf s (pathKey (l.toNat / 16) (fPath f.hdr)))))) [rWRITE] va (fLength f.hdr) = .ok ∧ 64 ≤ fLength f.hdr ∧
    fLength f.hdr % 64 = 0 ∧ HbmSlot s (winCtx (tget 0 (partOf s (ePart (entryOf s (pathKey (l.toNat / 16) (fPath f.hdr))))).windows (eWindow
    (entryOf s (pathKey (l.toNat / 16) (fPath f.hdr)))))) va (fLength f.hdr) ∧ Memory.wf s.mem = true ∧ footprint (hPayload h) = fLength f.hdr ∧
    fLast f.hdr = true ∧ wNotify (tget 0 (partOf s (ePart (entryOf s (pathKey (l.toNat / 16) (fPath f.hdr))))).windows (eWindow (entryOf s (pathKey
    (l.toNat / 16) (fPath f.hdr))))) = 0) ∧
    (∃ (i : BitVec 5 → Frame → Instr) (ty : Nat) (st : Frame → Status) (s : State) (l : BitVec 5) (f : Frame) (key : Nat) (x : Transfer) (run :
    MovRun), ((i, ty, st) ∈ [((Instr.delivered, 0x30, fun f => if fLate f.hdr then .late else .ok) : (BitVec 5 → Frame → Instr) × Nat × (Frame →
    Status)), (Instr.refused, 0x31, fun f => statusOf (be f.payload 0 2))]) ∧ Arrives s l.toNat f ty 2 ∧
    backEntry s l.toNat (fPath f.hdr) = some key ∧ eRole (entryOf s key) = 0 ∧ (partOf s (ePart (entryOf s key))).charter = none ∧
    (pathOf s key).flight.find? (fun y => y.1 == fTransfer f.hdr) = some (fTransfer f.hdr, x) ∧ x.mirror = none ∧
    (coreOf s x.core).ctx = some (eSendCtx (entryOf s key)) ∧ (moverOf s x.core x.mover).run = some run) :=
  ⟨⟨sUp linkReset, 3, sealF (sUp linkReset) 3 (fr 1 0 (pf 1 1) [1, 2]), 0, ⟨by decide, hop_seal (by decide), by decide, by decide⟩, by decide,
    by decide, by decide⟩,
  ⟨sPath 1 openPath, 3, sealF (sPath 1 openPath) 3 (fr 1 0 (pf 1 0) [1, 2]), 0, ⟨by decide, hop_seal (by decide), by decide, by decide⟩,
    by and_intros <;> decide⟩,
  ⟨sPath 1 openPath, 3, sealF (sPath 1 openPath) 3 (fr 1 0 (pf 1 1) [1, 2]), 0, ⟨by decide, hop_seal (by decide), by decide, by decide⟩,
    by and_intros <;> decide⟩,
  ⟨sPath 1 openPath, 3, sealF (sPath 1 openPath) 3 (fr 1 1 (pf 1 1) [1, 2]), 1, ⟨by decide, hop_seal (by decide), by decide, by decide⟩,
    by and_intros <;> decide⟩,
  ⟨{ sPath 2 openPath with paths := { (sPath 2 openPath).paths with held := [(3, 5, fr 1 0 (pf 1 1) [1])] } }, 3,
    sealF ({ sPath 2 openPath with paths := { (sPath 2 openPath).paths with held := [(3, 5, fr 1 0 (pf 1 1) [1])] } }) 3 (fr 1 0 (pf 1 1) [1, 2]), 0,
    ⟨by decide, hop_seal (by decide), by decide, by decide⟩, by and_intros <;> decide⟩,
  ⟨sPath 2 openPath, 3, sealF (sPath 2 openPath) 3 (fr 1 0 (pf 2 1) [1, 2]), 0, ⟨by decide, hop_seal (by decide), by decide, by decide⟩,
    by and_intros <;> decide⟩,
  ⟨withWindow 3 4 (sPath 2 openPath), 3, sealF (withWindow 3 4 (sPath 2 openPath)) 3 (fr 1 0 (pf 1 1) [1, 2]), 0, ⟨by decide, hop_seal (by decide),
    by decide, by decide⟩, by and_intros <;> decide⟩,
  ⟨withWindow 1 0 (sPath 2 openPath), 3, sealF (withWindow 1 0 (sPath 2 openPath)) 3 (fr 1 0 (pf 1 1) [1, 2]), 0, ⟨by decide, hop_seal (by decide),
    by decide, by decide⟩, by and_intros <;> decide⟩,
  ⟨withWindow 1 (2 ^ 28 + (2 ^ 28 - 1)) (sPath 2 openPath), 3,
    sealF (withWindow 1 (2 ^ 28 + (2 ^ 28 - 1)) (sPath 2 openPath)) 3 (fr 1 0 (pf 1 1) []), 0, ⟨by decide, hop_seal (by decide), by decide,
    by decide⟩, by and_intros <;> decide⟩,
  ⟨withPathOn 2 openPath (modPart 2 (fun q => { q with windows := [(1, win1)] }) sMem), 3,
    sealF (withPathOn 2 openPath (modPart 2 (fun q => { q with windows := [(1, win1)] }) sMem)) 3 (fr 1 0 (pf 1 1 + 0) (List.replicate 64 7)), 0,
    hBytes (denseTile 0x0A), hBytes (denseTile 0x0A), denseTile 0x0A, 0x40, 0x200040,
    by and_intros <;> first | decide | exact hop_seal (by decide) | exact no_snapshot _ _ (by decide) | exact span_all (by decide)⟩,
  ⟨withPathOn 2 openPath (modPart 2 (fun q => { q with windows := [(1, win1)] }) sMem), 3,
    sealF (withPathOn 2 openPath (modPart 2 (fun q => { q with windows := [(1, win1)] }) sMem)) 3 (fr 1 0 (pf 1 1 + 2 ^ 244) (List.replicate 64 7)),
    0, hBytes (rowTile 1 0x0A 0 0 true), hBytes (rowTile 1 0x0A 0 0 true), rowTile 1 0x0A 0 0 true, 0x40, 0x200040,
    by and_intros <;> first | decide | exact hop_seal (by decide) | exact no_snapshot _ _ (by decide) | exact span_all (by decide)⟩,
  ⟨Instr.delivered, 0x30, (fun f => if fLate f.hdr then .late else .ok), sSent, 3, sealF (sSent) 3 (fr 0x30 2 (pf 1 1) []), 5,
    { core := 31, mover := 1, bytes := 64 }, { desc := mdesc 0x66 0 1 }, by simp, ⟨by decide, hop_seal (by decide), by decide, by decide⟩,
    by and_intros <;> decide⟩⟩
theorem test_HostPortFrames :
    (∃ (s : State) (mode : Byte), s.host.up = false ∧ (fwRuns s = true ∨ s.boot.phase = .hostBoot) ∧ bit s.pkg.refclk 2 = true ∧
    modeAllowed s mode.toNat = true) ∧
    (∃ (s : State), s.host.up = true) ∧
    (∃ (s : State) (prios : Byte) (ns : Nat), hostUp s = true) ∧
    (∃ (s : State), s.pkg.supply = .on) ∧
    (∃ (s : State) (b : Bytes), hostUp s = true) ∧
    (∃ (s : State), fwRuns s = true ∧ hostUp s = true ∧ lldpEn s = true) ∧
    (∃ (s : State) (b : Bytes), fwRuns s = true ∧ hostUp s = true ∧ ipv4Present s = true ∧ 28 ≤ b.length ∧ slice b 0 8 = [0, 1, 8, 0, 6, 4, 0, 1] ∧
    slice b 24 4 = ipv4Addr s) ∧
    (∃ (s : State) (b : Bytes), fwRuns s = true ∧ hostUp s = true ∧ slice b 24 4 ≠ ipv4Addr s) ∧
    (∃ (s : State) (b : Bytes), fwRuns s = true ∧ hostUp s = true ∧ 24 ≤ b.length ∧ b.head? = some 135 ∧ slice b 8 16 ∈ hostV6 s) ∧
    (∃ (s : State) (b : Bytes), fwRuns s = true ∧ hostUp s = true ∧ 8 ≤ b.length ∧ (be b 0 1 = 8 ∨ be b 0 1 = 128)) ∧
    (∃ (s : State) (b : Bytes), fwRuns s = true ∧ hostUp s = true ∧ 8 ≤ b.length ∧ (be b 0 1 = 8 ∨ be b 0 1 = 128)) :=
  ⟨⟨{ sEth [1] with host := hostReset }, 1, by decide⟩,
  ⟨sEth [], by decide⟩,
  ⟨sEth [], 0xA, 500, by decide⟩,
  ⟨sOn, by decide⟩,
  ⟨sEth [], [1, 2], by decide⟩,
  ⟨sEth (List.replicate 17 0 ++ [1, 0, 1, 10, 0, 0, 9]), by decide⟩,
  ⟨sEth (List.replicate 17 0 ++ [1, 0, 1, 10, 0, 0, 9]), [0, 1, 8, 0, 6, 4, 0, 1, 2, 2, 2, 2, 2, 2, 10, 0, 0, 1, 0, 0, 0, 0, 0, 0, 10, 0, 0, 9],
    by decide⟩,
  ⟨sEth (List.replicate 17 0 ++ [1, 0, 1, 10, 0, 0, 9]), [], by decide⟩,
  ⟨sEth [], [135, 0, 0, 0, 0, 0, 0, 0] ++ linkLocal (macOf 0x02 sOn), by decide⟩,
  ⟨sEth [], [8, 0, 0x12, 0x34, 1, 2, 3, 4, 9], by decide⟩,
  ⟨sEth [], [128, 0, 0xFF, 0xFF, 1, 2, 3, 4, 9], by decide⟩⟩
theorem test_PrecisionTime :
    (∃ (s : State) (h : PtpHdr) (rank : Nat), fwRuns s = true ∧ hostUp s = true ∧ ptpSource s ≠ 3 ∧ h.domain.toNat = ptpDomain s) ∧
    (∃ (s : State) (h : PtpHdr) (r : Nat) (i : Nat) (t2 : Nat), fwRuns s = true ∧ hostUp s = true ∧ ptpSource s ≠ 3 ∧ h.domain.toNat = ptpDomain s ∧
    s.time.master = some (r, i) ∧ h.source = i) ∧
    (∃ (s : State) (h : PtpHdr) (r : Nat) (i : Nat) (t2 : Nat), fwRuns s = true ∧ hostUp s = true ∧ ptpSource s ≠ 3 ∧ h.domain.toNat = ptpDomain s ∧
    s.time.master = some (r, i) ∧ h.source ≠ i) ∧
    (∃ (s : State) (h : PtpHdr) (r : Nat) (t1 : Nat), fwRuns s = true ∧ hostUp s = true ∧ ptpSource s ≠ 3 ∧ h.domain.toNat = ptpDomain s ∧
    s.time.master = some (r, h.source) ∧ h.seq = s.time.syncSeq ∧ (s.time.ptp = .acquiring ∨ s.time.ptp = .locked)) ∧
    (∃ (s : State) (m : PtpResp) (r : Nat) (t1 : Nat) (t2 : Nat), fwRuns s = true ∧ hostUp s = true ∧ ptpSource s ≠ 3 ∧
    m.h.domain.toNat = ptpDomain s ∧ s.time.master = some (r, m.h.source) ∧ s.time.reqT3 ≠ 0 ∧ s.time.pair = some (t1, t2)) ∧
    (∃ (s : State) (h : PtpHdr) (a : Nat), ptpSource s = 3 ∨ h.domain.toNat ≠ ptpDomain s) ∧
    (∃ (s : State) (h : PtpHdr) (a : Nat), ptpSource s = 3 ∨ h.domain.toNat ≠ ptpDomain s) ∧
    (∃ (s : State) (n : Nat) (q : Nat) (rank : Nat) (m : PtpRelay) (h : PtpHdr), (sessOf s n).port = .host ∧
    refusedDatagram .host n m.head s = none ∧ q = m.head.seq.getD ((sessOf s n).rxSeq + 1) ∧ seqsOpen (sessOf s n) q q = true ∧ q < 2 ^ 48 - 2 ^ 20 ∧
    (∀ u ∈ (sessOf s n).unacked, ackCovers m.acks.ackSeq m.acks.sack u.seq = false) ∧ m.msg = .announce h rank ∧ h.domain.toNat = ptpDomain s) ∧
    (∃ (s : State) (n : Nat) (q : Nat) (rank : Nat) (m : PtpRelay) (h : PtpHdr), (sessOf s n).port = .host ∧
    refusedDatagram .host n m.head s = none ∧ q = m.head.seq.getD ((sessOf s n).rxSeq + 1) ∧ seqsOpen (sessOf s n) q q = true ∧ q < 2 ^ 48 - 2 ^ 20 ∧
    (∀ u ∈ (sessOf s n).unacked, ackCovers m.acks.ackSeq m.acks.sack u.seq = false) ∧ m.msg = .announce h rank ∧ h.domain.toNat = ptpDomain s) ∧
    (∃ (s : State), fwRuns s = true ∧ hostUp s = true ∧ s.time.master ≠ none ∧ (s.time.ptp = .acquiring ∨ s.time.ptp = .locked) ∧ ptpSource s ≠ 3 ∧
    classPaused s 0 = false) ∧
    (∃ (s : State), fwRuns s = true ∧ hostUp s = true ∧ s.time.master ≠ none ∧ (s.time.ptp = .acquiring ∨ s.time.ptp = .locked) ∧ ptpSource s ≠ 3 ∧
    classPaused s 0 = true) ∧
    (∃ (s : State) (n : Nat), fwRuns s = true ∧ hostUp s = true ∧ s.time.master ≠ none ∧ (s.time.ptp = .acquiring ∨ s.time.ptp = .locked) ∧
    ptpSource s = 3 ∧ s.time.relay = some n ∧ SendsNow s n 8) ∧
    (∃ (s : State), s.time.ptp = .acquiring ∨ s.time.ptp = .locked) ∧
    (∃ (s : State), s.time.master ≠ none) ∧
    (∃ (s : State), s.time.master = none) :=
  ⟨⟨ptpAt master1, ⟨0, 6, 1⟩, 3, by decide⟩,
  ⟨ptpAt master1, ⟨0, 7, 5⟩, 3, 7, 9, by decide⟩,
  ⟨ptpAt master1, ⟨0, 9, 5⟩, 3, 7, 9, by decide⟩,
  ⟨ptpAt master1, ⟨0, 7, 4⟩, 3, 90, by decide⟩,
  ⟨ptpAt master1, { h := ⟨0, 7, 0⟩, t4 := 200 }, 3, 100, 150, by decide⟩,
  ⟨sEth [0, 3], ⟨0, 7, 4⟩, 1, by decide⟩,
  ⟨sEth [0, 0], ⟨9, 7, 4⟩, 1, by decide⟩,
  ⟨sHost, 0, 1, 3, { msg := .announce ⟨0, 6, 0⟩ 3 }, ⟨0, 6, 0⟩, by decide⟩,
  ⟨withCfg (oneSection 8 [0, 3]) sHost, 0, 1, 3, { msg := .announce ⟨0, 6, 0⟩ 3 }, ⟨0, 6, 0⟩, by decide⟩,
  ⟨ptpAt master1, by decide⟩,
  ⟨paused (ptpAt master1), by decide⟩,
  ⟨{ withCfg (oneSection 8 [0, 3]) sHost with time := { master1 with relay := some 0 } }, 0, by decide⟩,
  ⟨ptpAt master1, by decide⟩,
  ⟨ptpAt master1, by decide⟩,
  ⟨sEth [], by decide⟩⟩
theorem test_SessionOpening :
    (∃ (s : State) (port : Port) (peer : Nat) (b : Bytes) (st : Status), portOpen s port = true ∧ firstFailure (helloChecks s port b) = some st) ∧
    (∃ (s : State) (port : Port) (peer : Nat) (b : Bytes), portOpen s port = false ∧ bootHalted s = true ∧ port = .mgmt) ∧
    (∃ (s : State) (port : Port) (peer : Nat) (b : Bytes), portOpen s port = false ∧ (bootHalted s = false ∨ port = .host)) ∧
    (∃ (s : State) (port : Port) (peer : Nat) (b : Bytes), portOpen s port = false ∧ (bootHalted s = false ∨ port = .host)) ∧
    (∃ (s : State) (port : Port) (peer : Nat) (b : Bytes) (role : Role) (n : Nat), portOpen s port = true ∧
    firstFailure (helloChecks s port b) = none ∧ reportWait s = none ∧ helloRole port b = some role ∧ freeSession s port = some n) ∧
    (∃ (s : State) (n : Nat) (b : Bytes), (sessOf s n).phase = .half ∧ portOpen s (sessOf s n).port = true ∧ roleFull s (sessOf s n).role = false) ∧
    (∃ (s : State) (n : Nat), (sessOf s n).phase = .half) ∧
    (∃ (s : State) (n : Nat), (sessOf s n).phase = .opened) ∧
    (∃ (s : State) (port : Port) (peer : Nat) (b : Bytes), (portOpen s port = true ∨ (bootHalted s = true ∧ port = .mgmt)) ∧ b.head? = some 5 ∧
    b.length = 65 ∧ reportWait s = none) ∧
    (∃ (s : State) (port : Port) (peer : Nat) (b : Bytes), (portOpen s port = true ∨ (bootHalted s = true ∧ port = .mgmt)) ∧ b.head? = some 5 ∧
    b.length = 65 ∧ reportWait s = none) ∧
    (∃ (s : State) (n : Nat), (sessOf s n).phase = .opened) :=
  ⟨⟨sMgmt, .mgmt, 7, [1], .badDescriptor, by decide⟩,
  ⟨inBoot .halted, .mgmt, 7, [1], by decide⟩,
  ⟨sReady, .mgmt, 7, [1], by decide⟩,
  ⟨inBoot .halted, .host, 7, [1], by decide⟩,
  ⟨sMgmt, .mgmt, 7, helloTitle, .titleholder, 128, by decide⟩,
  ⟨setSess sMgmt 128 halfOpen, 128, 3 :: List.replicate 132 1, by decide⟩,
  ⟨setSess sMgmt 128 halfOpen, 128, by decide⟩,
  ⟨sHost, 0, by decide⟩,
  ⟨sMgmt, .mgmt, 7, 5 :: List.replicate 64 1, Or.inl (by decide), by decide⟩,
  ⟨inBoot .halted, .mgmt, 7, 5 :: List.replicate 64 1, Or.inr (by decide), by decide⟩,
  ⟨sHost, 0, by decide⟩⟩
theorem test_SessionTraffic :
    (∃ (s : State) (n : Nat) (a : Nat) (m : KhtAck), refusedDatagram (sessOf s n).port n m.head s = none ∧ m.head.seq.getD 0 = 0 ∧
    (sessOf s n).txHold = [] ∧ (∀ p < 16, (partOf s p).snap.state ≠ .copying) ∧ (∀ u ∈ (sessOf s n).unacked, u.what = .plain)) ∧
    (∃ (s : State) (n : Nat) (a : Nat) (m : KhtAck) (u : TxRec) (q : Nat) (e : Event), refusedDatagram (sessOf s n).port n m.head s = none ∧
    m.head.seq.getD 0 = 0 ∧ (sessOf s n).txHold = [] ∧ (∀ p < 16, (partOf s p).snap.state ≠ .copying) ∧ (sessOf s n).unacked = [u] ∧
    u.what = .event q e.qseq.toNat ∧ q < 18 ∧ ackCovers a m.sack u.seq = true ∧ (queueOf s q).items = [(e, true, [n])] ∧ (queueOf s q).lost = 0 ∧
    (queueOf s q).final = none) ∧
    (∃ (s : State) (n : Nat) (a : Nat) (m : KhtAck), portOpen s (sessOf s n).port = true ∧
    (m.head.seq.getD 0 ≠ 0 ∨ headBad m.head = true ∨ (sessOf s n).phase ≠ .opened)) ∧
    (∃ (s : State) (n : Nat) (a : Nat) (m : KhtAck), portOpen s (sessOf s n).port = true ∧
    (m.head.seq.getD 0 ≠ 0 ∨ headBad m.head = true ∨ (sessOf s n).phase ≠ .opened)) ∧
    (∃ (s : State) (n : Nat) (a : Nat) (m : KhtAck), portOpen s (sessOf s n).port = true ∧
    (m.head.seq.getD 0 ≠ 0 ∨ headBad m.head = true ∨ (sessOf s n).phase ≠ .opened)) ∧
    (∃ (s : State) (n : Nat) (a : Nat) (m : KhtAck), portOpen s (sessOf s n).port = true ∧ m.head.seq.getD 0 = 0 ∧ headBad m.head = false ∧
    (sessOf s n).phase = .opened ∧ m.head.peer.getD (sessOf s n).peer = (sessOf s n).peer ∧ m.head.tagBad = true) ∧
    (∃ (s : State) (n : Nat), (sessOf s n).phase = .opened ∧ ctrlPaused s n = false ∧ portOpen s (sessOf s n).port = true) ∧
    (∃ (s : State) (n : Nat), (sessOf s n).phase = .opened ∧ (ctrlPaused s n = true ∨ portOpen s (sessOf s n).port = false)) ∧
    (∃ (s : State) (n : Nat), (sessOf s n).phase = .opened ∧ (ctrlPaused s n = true ∨ portOpen s (sessOf s n).port = false)) ∧
    (∃ (s : State) (n : Nat) (u : TxRec) (rest : List TxRec), (sessOf s n).phase = .opened ∧ (sessOf s n).unacked = u :: rest ∧
    (whatPaused s n u.what = true ∨ portOpen s (sessOf s n).port = false)) ∧
    (∃ (s : State) (n : Nat) (u : TxRec) (rest : List TxRec), (sessOf s n).phase = .opened ∧ (sessOf s n).unacked = u :: rest ∧
    whatPaused s n u.what = false ∧ portOpen s (sessOf s n).port = true) ∧
    (∃ (s : State) (n : Nat) (u : TxRec) (rest : List TxRec), (sessOf s n).phase = .opened ∧ (sessOf s n).unacked = u :: rest ∧
    whatPaused s n u.what = false ∧ portOpen s (sessOf s n).port = true) ∧
    (∃ (s : State) (n : Nat) (tag : W16) (op : W16), SendsNow s n 32 ∧ (sessOf s n).busy.find? (fun b => b.1 == tag) = some (tag, op)) ∧
    (∃ (s : State) (n : Nat) (tag : W16), tag ∉ (sessOf s n).busy.map (·.1)) ∧
    (∃ (s : State) (q : Nat) (n : Nat) (e : Event) (b : Bool) (l : List Nat), q < 18 ∧ portsUp s = true ∧ receivers s q = [n] ∧
    (queueOf s q).final = none ∧ (queueOf s q).items.find? (fun x => !x.2.1) = some (e, b, l) ∧ SendsNow s n (eventHeader e ++ e.body).length) ∧
    (∃ (s : State) (q : Nat) (n : Nat) (e : Event), q < 18 ∧ portsUp s = true ∧ receivers s q = [n] ∧ (queueOf s q).final = some e ∧
    (queueOf s q).finalTo = none ∧ SendsNow s n (eventHeader e ++ e.body).length) :=
  ⟨⟨modSess 0 (fun q => { q with unacked := [{ seq := 3, retries := 0 }, { seq := 5 }] }) sHost, 0, 3, { sack := 0 }, by decide⟩,
  ⟨withQueue 2 { items := [(event1, true, [0])] } (modSess 0 (fun q => { q with unacked := [{ seq := 3, what := .event 2 1 }] }) sHost), 0, 3,
    { sack := 0 }, { seq := 3, what := .event 2 1 }, 2, event1, by decide⟩,
  ⟨sHost, 0, 3, { sack := 0, head := { seq := some 4 } }, by decide⟩,
  ⟨sHost, 0, 3, { sack := 0, head := { version := 2 } }, by decide⟩,
  ⟨sHost, 5, 3, { sack := 0 }, by decide⟩,
  ⟨sHost, 0, 3, { sack := 0, head := { tagBad := true } }, by decide⟩,
  ⟨sHost, 0, by decide⟩,
  ⟨paused sHost, 0, by decide⟩,
  ⟨{ sHost with host := hostReset }, 0, by decide⟩,
  ⟨paused (modSess 0 (fun q => { q with unacked := [{ seq := 3, retries := 0 }, { seq := 5 }] }) sHost), 0, { seq := 3, retries := 0 },
    [{ seq := 5 }], by decide⟩,
  ⟨modSess 0 (fun q => { q with unacked := [{ seq := 3, retries := 14 }, { seq := 5 }] }) sHost, 0, { seq := 3, retries := 14 }, [{ seq := 5 }],
    by decide⟩,
  ⟨modSess 0 (fun q => { q with unacked := [{ seq := 3, retries := 15 }, { seq := 5 }] }) sHost, 0, { seq := 3, retries := 15 }, [{ seq := 5 }],
    by decide⟩,
  ⟨modSess 0 (fun q => { q with busy := [(9, 0x0101)] }) sHost, 0, 9, 0x0101, by decide⟩,
  ⟨sHost, 0, 9, by decide⟩,
  ⟨withQueue 2 { items := [(event1, false, [])] } sHost, 2, 1, event1, false, [], by decide⟩,
  ⟨withQueue 2 { final := some event1 } sHost, 2, 1, event1, by decide⟩⟩
theorem test_TenantTables :
    (∃ (s : State) (r : Req) (body : Bytes), Served s r .t ∧ HasLength r body 18 ∧ Usable s r ∧ (be body 0 2) < 1024 ∧
    fld (BitVec.ofNat 128 (be body 2 16) : BitVec 128) 35 1 = 0 ∧ bit (BitVec.ofNat 128 (be body 2 16) : BitVec 128) 0 = true ∧
    AllPass (regionChecks s (r.ctx.toNat) r.part.toNat (be body 0 2) (BitVec.ofNat 128 (be body 2 16) : BitVec 128)) ∧
    regGranules (BitVec.ofNat 128 (be body 2 16) : BitVec 128) ≠ 0 ∧ entryNamed s (r.ctx.toNat) (be body 0 2) = false) ∧
    (∃ (s : State) (r : Req) (body : Bytes), Served s r .t ∧ HasLength r body 18 ∧ Usable s r ∧ (be body 0 2) < 1024 ∧
    fld (BitVec.ofNat 128 (be body 2 16) : BitVec 128) 35 1 = 0 ∧ bit (BitVec.ofNat 128 (be body 2 16) : BitVec 128) 0 = true ∧
    regGranules (BitVec.ofNat 128 (be body 2 16) : BitVec 128) = 0) ∧
    (∃ (s : State) (r : Req) (body : Bytes), Served s r .t ∧ HasLength r body 18 ∧ Usable s r ∧ (be body 0 2) < 1024 ∧
    fld (BitVec.ofNat 128 (be body 2 16) : BitVec 128) 35 1 = 0 ∧ bit (BitVec.ofNat 128 (be body 2 16) : BitVec 128) 0 = false ∧
    entryNamed s (r.ctx.toNat) (be body 0 2) = false) ∧
    (∃ (s : State) (r : Req) (body : Bytes), Served s r .t ∧ HasLength r body 18 ∧ Usable s r ∧ (be body 0 2) < 1024 ∧
    fld (BitVec.ofNat 128 (be body 2 16) : BitVec 128) 35 1 = 0 ∧ entryNamed s (r.ctx.toNat) (be body 0 2) = true ∧
    bit (BitVec.ofNat 128 (be body 2 16) : BitVec 128) 0 = false) ∧
    (∃ (s : State) (r : Req) (body : Bytes), Served s r .t ∧ HasLength r body 2 ∧ Usable s r ∧ be body 0 2 < 1024 ∧
    entryNamed s r.ctx.toNat (be body 0 2) = false) ∧
    (∃ (s : State) (r : Req) (body : Bytes), Served s r .t ∧ HasLength r body 33 ∧
    ctxLive s (winCtx (BitVec.ofNat 256 (be body 1 32) : RecvWindow)) (r.part.toNat) = true ∧
    (ctxOf s (winCtx (BitVec.ofNat 256 (be body 1 32) : RecvWindow))).gen.toNat = winGen (BitVec.ofNat 256 (be body 1 32) : RecvWindow) ∧
    ctxUsual (ctxOf s (winCtx (BitVec.ofNat 256 (be body 1 32) : RecvWindow))).state = none ∧ ((be body 0 1) < 62 ∨ ((be body 0 1) < 64 ∧
    (partOf s (r.part.toNat)).charter = none)) ∧ fld (BitVec.ofNat 256 (be body 1 32) : RecvWindow) 79 0 = 0 ∧
    fld (BitVec.ofNat 256 (be body 1 32) : RecvWindow) 162 161 < 2 ∧ wVBase (BitVec.ofNat 256 (be body 1 32) : RecvWindow) % 64 = 0 ∧
    (wNotify (BitVec.ofNat 256 (be body 1 32) : RecvWindow) = 0 ∨ (wNotify (BitVec.ofNat 256 (be body 1 32) : RecvWindow) % 64 = 0 ∧
    accessCheck s (winCtx (BitVec.ofNat 256 (be body 1 32) : RecvWindow)) [rATOMIC] (wNotify (BitVec.ofNat 256 (be body 1 32) : RecvWindow)) 64 =
    .ok)) ∧ fld (BitVec.ofNat 256 (be body 1 32) : RecvWindow) 207 179 ≠ 0 ∧
    fld (BitVec.ofNat 256 (be body 1 32) : RecvWindow) 207 179 ≠ 2 ^ 29 - 1 ∧
    isAlias (wVBase (BitVec.ofNat 256 (be body 1 32) : RecvWindow)) = false ∧
    accessCheck s (winCtx (BitVec.ofNat 256 (be body 1 32) : RecvWindow)) [if wReduce (BitVec.ofNat 256 (be body 1 32) : RecvWindow) then rATOMIC
    else rWRITE] (wVBase (BitVec.ofNat 256 (be body 1 32) : RecvWindow)) (wSize (BitVec.ofNat 256 (be body 1 32) : RecvWindow)) = .ok) ∧
    (∃ (s : State) (r : Req) (body : Bytes), Served s r .t ∧ HasLength r body 65 ∧
    AllPass (windowChecks s r.part.toNat (BitVec.ofNat 512 (be body 1 64))) ∧ be body 0 1 < 64 ∧ (be body 0 1 = 63 → ∀ c ∈ ctxsOf s r.part.toNat,
    (ctxOf s c).dumpRec = [])) ∧
    (∃ (s : State) (r : Req) (body : Bytes), Served s r .t ∧ HasLength r body 1 ∧ be body 0 1 < 64) ∧
    (∃ (s : State) (r : Req) (body : Bytes) (path : Nat), Served s r .t ∧ HasLength r body 12 ∧ Usable s r ∧ (be body 0 1) ≤ 1 ∧ (be body 9 1) < 32 ∧
    be body 10 1 ≤ 3 ∧ rValid (resvOf s (r.part.toNat) (be body 11 1)) = false ∧ freePath s (be body 0 1) = some path ∧ (freeSlot s).isSome = true ∧
    linkClosed s (be body 9 1) (r.part.toNat) (mirrorPathFree s (r.part.toNat) (be body 9 1) (pathKey (be body 0 1) path)) = false ∧
    linkUp s (be body 9 1) = true) ∧
    (∃ (s : State) (r : Req) (body : Bytes), Served s r .t ∧ HasLength r body 3 ∧ be body 0 1 ≤ 1 ∧ be body 1 2 ≠ 0 ∧ be body 1 2 < 4096 ∧
    eValid (entryOf s (pathKey (be body 0 1) (be body 1 2))) = true ∧
    (eRole (entryOf s (pathKey (be body 0 1) (be body 1 2))) = 0 ∨ eRole (entryOf s (pathKey (be body 0 1) (be body 1 2))) = 2) ∧
    ePart (entryOf s (pathKey (be body 0 1) (be body 1 2))) = r.part.toNat) :=
  ⟨⟨sTen, rTen 18, bytesBE 2 3 ++ bytesBE 16 (region1).toNat, by decide⟩,
  ⟨sTen, rTen 18, bytesBE 2 3 ++ bytesBE 16 ((region1 - 2 ^ 55 : BitVec 128)).toNat, by decide⟩,
  ⟨sTen, rTen 18, bytesBE 2 3 ++ bytesBE 16 ((0 : BitVec 128)).toNat, by decide⟩,
  ⟨sNamed, rTen 18, bytesBE 2 3 ++ bytesBE 16 ((0 : BitVec 128)).toNat, by decide⟩,
  ⟨sTen, rTen 2, [0, 3], by decide⟩,
  ⟨sTen, rTen 33, 4 :: bytesBE 32 win1.toNat, by decide⟩,
  ⟨sOpen, rTen 65, 5 :: bytesBE 64 (bulk1 1).toNat, by decide⟩,
  ⟨withBw (bulk1 1) sOpen, rTen 1, [5], by decide⟩,
  ⟨withLink 3 upLink sTen, rTen 12, [0] ++ bytesBE 8 77 ++ [3, 1, 1], 1, by decide⟩,
  ⟨withPathOn 0 openPath sTen, rTen 3, [0, 0, 5], by decide⟩⟩
theorem test_AdmissionDeferral :
    (∃ (s : State) (t : Nat) (p : Nat) (j : Nat) (c : Nat), depthOf (resvOf s p j) < c * 10000000) ∧
    (∃ (s : State) (u : State) (t : Nat) (p : Nat) (j : Nat) (c : Nat) (e : Nat), admitAt t p j c s = (.deferred e, u) ∧
    0 < fillRate s (resvOf s p j)) ∧
    (∃ (s : State) (u : State) (t : Nat) (p : Nat) (j : Nat) (c : Nat), admitAt t p j c s = (.accepted, u)) :=
  ⟨⟨sResv 0, 7, 0, 0, 2000, by decide⟩,
  ⟨sResv 0, (admitAt 7 0 0 1000 (sResv 0)).2, 7, 0, 0, 1000, 327, by decide⟩,
  ⟨sResv 10000000000, (admitAt 7 0 0 1000 (sResv 10000000000)).2, 7, 0, 0, 1000, by decide⟩⟩
theorem test_BulkTransfers :
    (∃ (i : Req → Bytes → Instr) (op : Nat) (dir : Bool) (s : State) (r : Req) (body : Bytes), (i, op, dir) ∈ [(Instr.bulkInOpen, 0x0232, false),
    (Instr.bulkOutOpen, 0x0233, true)] ∧ Served s r .t ∧ HasLength r body 11 ∧
    AllPass (openChecks s r.sess (r.part.toNat) dir (be body 0 4) (be body 4 1) (be body 5 3) (be body 8 3)) ∧ (be body 8 3) = 0) ∧
    (∃ (i : Req → Bytes → Instr) (op : Nat) (dir : Bool) (s : State) (r : Req) (body : Bytes), (i, op, dir) ∈ [(Instr.bulkInOpen, 0x0232, false),
    (Instr.bulkOutOpen, 0x0233, true)] ∧ Served s r .t ∧ HasLength r body 11 ∧
    AllPass (openChecks s r.sess (r.part.toNat) dir (be body 0 4) (be body 4 1) (be body 5 3) (be body 8 3)) ∧ (be body 8 3) = 0) ∧
    (∃ (i : Req → Bytes → Instr) (op : Nat) (dir : Bool) (s : State) (r : Req) (body : Bytes), (i, op, dir) ∈ [(Instr.bulkInOpen, 0x0232, false),
    (Instr.bulkOutOpen, 0x0233, true)] ∧ Served s r .t ∧ HasLength r body 11 ∧
    AllPass (openChecks s r.sess (r.part.toNat) dir (be body 0 4) (be body 4 1) (be body 5 3) (be body 8 3)) ∧ (be body 8 3) ≠ 0 ∧
    (∀ k ∈ namedSlots (be body 5 3) (be body 8 3), zotBlocks s (bwCtx (tget 0 (sessOf s r.sess).wins (be body 4 1))) (bwSlotVa (tget 0 (sessOf s
    r.sess).wins (be body 4 1)) k) (bwSlot (tget 0 (sessOf s r.sess).wins (be body 4 1))) = none)) ∧
    (∃ (i : Req → Bytes → Instr) (op : Nat) (dir : Bool) (s : State) (r : Req) (body : Bytes), (i, op, dir) ∈ [(Instr.bulkInOpen, 0x0232, false),
    (Instr.bulkOutOpen, 0x0233, true)] ∧ Served s r .t ∧ HasLength r body 11 ∧
    AllPass (openChecks s r.sess (r.part.toNat) dir (be body 0 4) (be body 4 1) (be body 5 3) (be body 8 3)) ∧ (be body 8 3) ≠ 0 ∧
    (∀ k ∈ namedSlots (be body 5 3) (be body 8 3), zotBlocks s (bwCtx (tget 0 (sessOf s r.sess).wins (be body 4 1))) (bwSlotVa (tget 0 (sessOf s
    r.sess).wins (be body 4 1)) k) (bwSlot (tget 0 (sessOf s r.sess).wins (be body 4 1))) = none)) ∧
    (∃ (s : State) (n : Nat) (q : Nat) (h : BulkHead) (cipher : Bytes) (tag : BitVec 128), portOpen s (sessOf s n).port = false) ∧
    (∃ (s : State) (n : Nat) (q : Nat) (h : BulkHead) (cipher : Bytes) (tag : BitVec 128), (sessOf s n).port = .host ∧
    refusedDatagram .host n h.head s = none ∧ seqsOpen (sessOf s n) q q = false) ∧
    (∃ (s : State) (n : Nat) (q : Nat) (h : BulkHead) (cipher : Bytes) (tag : BitVec 128), (sessOf s n).port = .host ∧
    refusedDatagram .host n h.head s = none ∧ seqsOpen (sessOf s n) q q = true) ∧
    (∃ (s : State) (n : Nat) (q : Nat) (h : BulkHead) (cipher : Bytes) (tag : BitVec 128) (chunk : Bytes) (sub : BitVec 256),
    (sessOf s n).port = .host ∧ refusedDatagram .host n h.head s = none ∧ seqsOpen (sessOf s n) q q = true ∧ q < 2 ^ 47 ∧
    (∀ x ∈ (sessOf s n).unacked, ackCovers h.acks.ackSeq h.acks.sack x.seq = false) ∧ subWindow sub ≠ 0xC0 ∧ chunkFits s n sub chunk.length = none) ∧
    (∃ (s : State) (n : Nat) (q : Nat) (h : BulkHead) (cipher : Bytes) (tag : BitVec 128) (chunk : Bytes) (sub : BitVec 256) (key : Nat) (b : Bulk),
    (sessOf s n).port = .host ∧ refusedDatagram .host n h.head s = none ∧ seqsOpen (sessOf s n) q q = true ∧ q < 2 ^ 47 ∧
    (∀ x ∈ (sessOf s n).unacked, ackCovers h.acks.ackSeq h.acks.sack x.seq = false) ∧ subWindow sub ≠ 0xC0 ∧
    chunkFits s n sub chunk.length = some (key, b) ∧ bulkAccess s b.copy (bwSlotVa b.copy (subSlot sub)) (footprint (bwTile s b.copy b.epoch (subSlot
    sub)).payload) ≠ .ok) ∧
    (∃ (s : State) (n : Nat) (q : Nat) (h : BulkHead) (cipher : Bytes) (tag : BitVec 128) (chunk : Bytes) (sub : BitVec 256) (key : Nat) (b : Bulk),
    (sessOf s n).port = .host ∧ refusedDatagram .host n h.head s = none ∧ seqsOpen (sessOf s n) q q = true ∧ q < 2 ^ 47 ∧
    (∀ x ∈ (sessOf s n).unacked, ackCovers h.acks.ackSeq h.acks.sack x.seq = false) ∧ subWindow sub ≠ 0xC0 ∧
    chunkFits s n sub chunk.length = some (key, b) ∧ bulkAccess s b.copy (bwSlotVa b.copy (subSlot sub)) (footprint (bwTile s b.copy b.epoch (subSlot
    sub)).payload) = .ok ∧ HbmSlot s (bwCtx b.copy) (bwSlotVa b.copy (subSlot sub)) (footprint (bwTile s b.copy b.epoch (subSlot sub)).payload) ∧
    poisonV s (bwCtx b.copy) (bwSlotVa b.copy (subSlot sub)) (footprint (bwTile s b.copy b.epoch (subSlot sub)).payload) = false ∧
    Memory.wf s.mem = true ∧ b.push = none ∧ (∀ g ∈ s.hbm.groups, g.2.trig = none ∧ g.2.waiting = []) ∧
    (∀ k < (footprint (bwTile s b.copy b.epoch (subSlot sub)).payload), zotAt s (bwCtx b.copy) ((bwSlotVa b.copy (subSlot sub)) + k) = false) ∧
    takenOf b (subSlot sub) + chunk.length < (bwTile s b.copy b.epoch (subSlot sub)).payload) ∧
    (∃ (s : State) (n : Nat) (q : Nat) (h : BulkHead) (cipher : Bytes) (tag : BitVec 128) (chunk : Bytes) (sub : BitVec 256) (key : Nat) (b : Bulk),
    (sessOf s n).port = .host ∧ refusedDatagram .host n h.head s = none ∧ seqsOpen (sessOf s n) q q = true ∧ q < 2 ^ 47 ∧
    (∀ x ∈ (sessOf s n).unacked, ackCovers h.acks.ackSeq h.acks.sack x.seq = false) ∧ subWindow sub ≠ 0xC0 ∧
    chunkFits s n sub chunk.length = some (key, b) ∧ bulkAccess s b.copy (bwSlotVa b.copy (subSlot sub)) (footprint (bwTile s b.copy b.epoch (subSlot
    sub)).payload) = .ok ∧ HbmSlot s (bwCtx b.copy) (bwSlotVa b.copy (subSlot sub)) (footprint (bwTile s b.copy b.epoch (subSlot sub)).payload) ∧
    poisonV s (bwCtx b.copy) (bwSlotVa b.copy (subSlot sub)) (footprint (bwTile s b.copy b.epoch (subSlot sub)).payload) = false ∧
    Memory.wf s.mem = true ∧ b.push = none ∧ (∀ g ∈ s.hbm.groups, g.2.trig = none ∧ g.2.waiting = []) ∧
    (∀ k < (footprint (bwTile s b.copy b.epoch (subSlot sub)).payload), zotAt s (bwCtx b.copy) ((bwSlotVa b.copy (subSlot sub)) + k) = false) ∧
    (bwTile s b.copy b.epoch (subSlot sub)).payload ≤ takenOf b (subSlot sub) + chunk.length) ∧
    (∃ (s : State) (key : Nat) (b : Bulk), s.bulk.find? (fun e => e.1 == key) = some (key, b) ∧ b.out = true ∧ b.sentAll = false ∧ b.slot < b.count ∧
    hostUp s = true ∧ (sessOf s b.sess).phase = .opened ∧ portOpen s (sessOf s b.sess).port = true ∧ outPaused s b = false ∧
    (sessOf s b.sess).unacked.length < 1024 ∧ (sessOf s b.sess).txSeq < 2 ^ 47) :=
  ⟨⟨Instr.bulkInOpen, 0x0232, false, withBw (bulk1 1) sOpen, rTen 11, openBody 0 0, by simp, by decide⟩,
  ⟨Instr.bulkOutOpen, 0x0233, true, withBw (bulk1 2) (outTiles sOpen), rTen 11, openBody 1 0, by simp, by decide⟩,
  ⟨Instr.bulkInOpen, 0x0232, false, withBw (bulk1 1) sOpen, rTen 11, openBody 0 2, by simp, by decide⟩,
  ⟨Instr.bulkOutOpen, 0x0233, true, withBw (bulk1 2) (outTiles sOpen), rTen 11, openBody 0 2, by simp, by decide⟩,
  ⟨{ sTen with host := hostReset }, 1, 1, {}, [1], 0, by decide⟩,
  ⟨sTen, 1, 0, {}, [1], 0, by decide⟩,
  ⟨sTen, 1, 1, {}, [1], 0, by decide⟩,
  ⟨sTen, 1, 1, {}, [1], 0, [1], 0, by decide⟩,
  ⟨bulkIn [] sTen, 1, 1, {}, [1], 0, List.replicate 64 7, mkSub 9 5 0 0 64 false false, bulkKey 1 9, inBulk [], by decide⟩,
  ⟨bulkIn [] sOpen, 1, 1, {}, [1], 0, List.replicate 64 7, mkSub 9 5 0 0 64 false false, bulkKey 1 9, inBulk [],
    by and_intros <;> first | decide | exact no_copy _ _ 2 (by decide) (by decide) | exact span_all (by decide)⟩,
  ⟨bulkIn [(0, 0, 64)] sOpen, 1, 1, {}, [1], 0, List.replicate 64 7, mkSub 9 5 0 64 64 true true, bulkKey 1 9, inBulk [(0, 0, 64)],
    by and_intros <;> first | decide | exact no_copy _ _ 2 (by decide) (by decide) | exact span_all (by decide)⟩,
  ⟨sOut, bulkKey 1 9, { sess := 1, id := 9, window := 5, copy := bulk1 2, count := 2, out := true, srcs := [(0, 128), (0x80, 128)], ctx := 1 },
    by decide⟩⟩
theorem test_ContextLife :
    (∃ (s : State) (r : Req) (body : Bytes) (c : Nat) (l : List (Nat × Nat)), Served s r .t ∧ HasLength r body 3 ∧ (∀ i < 16,
    nbit (be body 0 2) i = true → nbit (pCores (active s) (r.part.toNat)) i = true) ∧ (be body 0 2) ≠ 0 ∧ be body 2 1 ≤ 32 ∧
    (partOf s (r.part.toNat)).state = .assigned ∧ (ctxsOf s (r.part.toNat)).length < pQuota (active s) (r.part.toNat) ∧ freeContext s = some c ∧
    placeArea s (r.part.toNat) (privateArea (be body 0 2) (be body 2 1)) = some l) ∧
    (∃ (s : State) (r : Req) (body : Bytes), Served s r .t ∧ HasLength r body 12 ∧ NamesContext s r ∧ (ctxOf s r.ctx.toNat).state = .creating ∧
    (be body 8 4) = 0) ∧
    (∃ (s : State) (r : Req) (body : Bytes), Served s r .t ∧ HasLength r body 12 ∧ NamesContext s r ∧ (ctxOf s r.ctx.toNat).state = .creating ∧
    (be body 8 4) ≠ 0 ∧ (be body 8 4) ≠ 0xFFFFFFFF ∧ isAlias (be body 0 8) = false ∧
    accessCheck s (r.ctx.toNat) [rREAD] (be body 0 8) (be body 8 4) = .ok ∧ poisonV s (r.ctx.toNat) (be body 0 8) (be body 8 4) = false ∧ (∀ ch,
    (partOf s r.part.toNat).charter = some ch → (partOf s r.part.toNat).state = .charter → digestBytes (Config.sha512 (vread s (r.ctx.toNat) (be body
    0 8) (be body 8 4))) = chProgram ch.doc) ∧ imgMalformed (ctxOf s (r.ctx.toNat)) (vread s (r.ctx.toNat) (be body 0 8) (be body 8 4)) = false ∧
    imgBadLength (vread s (r.ctx.toNat) (be body 0 8) (be body 8 4)) (be body 8 4) = false) ∧
    (∃ (s : State) (r : Req) (body : Bytes), Served s r .t ∧ HasLength r body 0 ∧ NamesContext s r ∧ (ctxOf s r.ctx.toNat).state = .creating ∧
    (ctxOf s r.ctx.toNat).loaded = true ∧ (ctxOf s r.ctx.toNat).saved = [] ∧ (partOf s r.part.toNat).charter = none ∧
    (partOf s r.part.toNat).state ≠ .resetting ∧ coresBusy s (r.ctx.toNat) = false) ∧
    (∃ (s : State) (r : Req) (body : Bytes), Served s r .t ∧ HasLength r body 0 ∧ NamesContext s r ∧ (ctxOf s r.ctx.toNat).state = .creating ∧
    (ctxOf s r.ctx.toNat).loaded = true ∧ (ctxOf s r.ctx.toNat).saved = [] ∧ (partOf s r.part.toNat).charter = none ∧
    (partOf s r.part.toNat).state ≠ .resetting ∧ coresBusy s (r.ctx.toNat) = true) ∧
    (∃ (s : State) (r : Req) (body : Bytes), Served s r .t ∧ HasLength r body 1 ∧ Usable s r ∧ be body 0 1 ≤ 1) ∧
    (∃ (s : State) (r : Req) (body : Bytes), Served s r .t ∧ HasLength r body 1 ∧ Usable s r ∧ be body 0 1 ≤ 1) ∧
    (∃ (s : State) (ctx : BitVec 8), (ctxOf s ctx.toNat).state = .fencing ∧ (ctxOf s ctx.toNat).saveReq = false ∧
    (ctxOf s ctx.toNat).killReq = none ∧ (partOf s (ctxOf s ctx.toNat).part.toNat).state = .assigned) ∧
    (∃ (s : State) (ctx : BitVec 8), (ctxOf s ctx.toNat).state = .fencing ∧ (ctxOf s ctx.toNat).saveReq = false ∧
    (ctxOf s ctx.toNat).killReq.isSome = true) ∧
    (∃ (s : State) (ctx : BitVec 8), (ctxOf s ctx.toNat).state ≠ .fencing) ∧
    (∃ (s : State) (ctx : BitVec 8), (ctxOf s ctx.toNat).state = .fencing ∧ (partOf s (ctxOf s ctx.toNat).part.toNat).state = .assigned) ∧
    (∃ (s : State) (part : BitVec 4), (partOf s part.toNat).state = .resetting ∧ (∃ c ∈ ctxsOf s part.toNat, (ctxOf s c).state = .fencing)) ∧
    (∃ (s : State) (part : BitVec 4), (partOf s part.toNat).state = .resetting ∧ (∀ c ∈ ctxsOf s part.toNat, (ctxOf s c).state ≠ .fencing)) ∧
    (∃ (s : State) (r : Req) (body : Bytes), Served s r .t ∧ HasLength r body 0 ∧ NamesContext s r ∧ (ctxOf s r.ctx.toNat).killReq = none ∧
    (ctxOf s (r.ctx.toNat)).state = .fenced) ∧
    (∃ (s : State) (r : Req) (body : Bytes), Served s r .t ∧ HasLength r body 0 ∧ NamesContext s r ∧ (ctxOf s r.ctx.toNat).killReq = none ∧
    ctxUsual (ctxOf s (r.ctx.toNat)).state = none) ∧
    (∃ (s : State) (ctx : BitVec 8), (ctxOf s ctx.toNat).state = .scrubbing ∧ (partOf s ((ctxOf s ctx.toNat).part.toNat)).state ≠ .resetting) ∧
    (∃ (s : State) (ctx : BitVec 8), (ctxOf s ctx.toNat).state = .tearing ∧ (partOf s ((ctxOf s ctx.toNat).part.toNat)).state ≠ .resetting) ∧
    (∃ (s : State) (ctx : BitVec 8), (ctxOf s ctx.toNat).state = .scrubbing ∧ (partOf s ((ctxOf s ctx.toNat).part.toNat)).state = .resetting ∧
    ctxsOf s ((ctxOf s ctx.toNat).part.toNat) = [ctx.toNat] ∧ (partOf s ((ctxOf s ctx.toNat).part.toNat)).relReq = false) ∧
    (∃ (s : State) (r : Req) (body : Bytes), Served s r .t ∧ HasLength r body 2 ∧ NamesContext s r ∧ ctxReads (ctxOf s r.ctx.toNat).state = none ∧
    be body 1 1 ≤ 1) ∧
    (∃ (s : State) (r : Req) (body : Bytes), Served s r .t ∧ HasLength r body 0 ∧ NamesContext s r ∧ ctxReads (ctxOf s r.ctx.toNat).state = none) :=
  ⟨⟨quota (sCtxIn .active), rTen 3, [0, 3, 1], 0, (placeArea (quota (sCtxIn .active)) 2 (privateArea 3 1)).getD [], by decide,
    by and_intros <;> decide⟩,
  ⟨sCtxIn .creating, rTen 12, bytesBE 8 0 ++ bytesBE 4 0, by decide⟩,
  ⟨sImg, rTen 12, bytesBE 8 0 ++ bytesBE 4 132, by decide⟩,
  ⟨modCtx 1 (fun k => { k with loaded := true }) (sCtxIn .creating), rTen 0, [], by decide⟩,
  ⟨setCore (setCtx (modCtx 1 (fun k => { k with loaded := true }) (sCtxIn .creating)) 9 { contextReset with state := .active, part := 2 }) 31
    { coreReset with ctx := some 9 }, rTen 0, [], by decide⟩,
  ⟨sCtxIn .active, rTen 1, [1], by decide⟩,
  ⟨sCtxIn .suspended, rTen 1, [0], by decide⟩,
  ⟨sCtxIn .fencing, 1, by decide⟩,
  ⟨modCtx 1 (fun k => { k with killReq := some (rTen 0) }) (sCtxIn .fencing), 1, by decide⟩,
  ⟨sCtxIn .active, 1, by decide⟩,
  ⟨sCtxIn .fencing, 1, by decide⟩,
  ⟨resetting (sCtxIn .fencing), 2, by decide⟩,
  ⟨resetting (sCtxIn .fenced), 2, by decide⟩,
  ⟨sCtxIn .fenced, rTen 0, [], by decide⟩,
  ⟨sCtxIn .active, rTen 0, [], by decide⟩,
  ⟨sCtxIn .scrubbing, 1, by decide⟩,
  ⟨sCtxIn .tearing, 1, by decide⟩,
  ⟨resetting (sCtxIn .scrubbing), 1, by decide⟩,
  ⟨sCtxIn .active, rTen 2, [3, 1], by decide⟩,
  ⟨modCtx 1 (fun k => { k with marks := [1, 2, 3] }) (sCtxIn .fenced), rTen 0, [], by decide⟩⟩
theorem test_SlicingAndDumps :
    (∃ (s : State) (core : BitVec 5) (c : Nat) (d : Nat), isReady s = true ∧ (coreOf s core.toNat).ctx = some c ∧ c < 256 ∧
    (ctxOf s c).state = .active ∧ (ctxOf s c).switching = false ∧ nextRival s c = some d) ∧
    (∃ (s : State) (core : BitVec 5) (c : Nat), (coreOf s core.toNat).ctx = some c ∧ nextRival s c = none) ∧
    (∃ (s : State) (ctx : BitVec 8), (ctxOf s ctx.toNat).state = .active ∧ (ctxOf s ctx.toNat).switching = true ∧ runningCores s ctx.toNat ≠ [] ∧
    (∀ i ∈ runningCores s ctx.toNat, coreSaved s i = true)) ∧
    (∃ (s : State) (ctx : BitVec 8), isReady s = true ∧ (ctxOf s ctx.toNat).state = .suspended ∧ (∀ i ∈ ctxCores (ctxOf s ctx.toNat),
    (coreOf s i).ctx = none) ∧ (ctxOf s ctx.toNat).incoming = true) ∧
    (∃ (s : State) (ctx : BitVec 8) (unit : Nat), isReady s = true ∧ (ctxOf s ctx.toNat).state = .active ∧ (unit / 256 % 256) < 32 ∧
    (coreOf s (unit / 256 % 256)).ctx = some ctx.toNat ∧ unitWorks s (unit / 256 % 256) (unit / 65536) (unit % 256) = true) ∧
    (∃ (s : State) (ctx : BitVec 8) (unit : Nat) (n : Nat) (marks : List Nat), (ctxOf s ctx.toNat).dump = some (n, marks) ∧
    dumpRuns (ctxOf s ctx.toNat) = true ∧ unit ∈ dumpUnits s ctx.toNat ∧ unit ∉ marks) ∧
    (∃ (s : State) (ctx : BitVec 8) (unit : Nat) (n : Nat) (marks : List Nat), (ctxOf s ctx.toNat).dump = some (n, marks) ∧
    dumpRuns (ctxOf s ctx.toNat) = true ∧ unit ∈ marks) ∧
    (∃ (s : State) (ctx : BitVec 8) (n : Nat) (marks : List Nat), (ctxOf s ctx.toNat).dump = some (n, marks) ∧ dumpRuns (ctxOf s ctx.toNat) = true ∧
    dumpSession s (ctxOf s ctx.toNat).part.toNat = none) ∧
    (∃ (s : State) (ctx : BitVec 8), fwRuns s = true ∧ (ctxOf s ctx.toNat).state ≠ .free) ∧
    (∃ (s : State) (r : Req) (body : Bytes), Served s r .tf ∧ HasLength r body 12 ∧ NamesContext s r ∧ ctxReads (ctxOf s r.ctx.toNat).state = none ∧
    (be body 0 1 = 1 ∨ be body 0 1 = 2) ∧ (be body 0 1 = 1 → (sessOf s r.sess).role ≠ .fabric) ∧ be body 1 3 = 0 ∧ be body 10 2 = 0 ∧
    be body 8 2 ≤ 2000) :=
  ⟨⟨rival (sCtxIn .active), 31, 1, 9, by decide⟩,
  ⟨sCtxIn .active, 31, 1, by decide⟩,
  ⟨rival (modCtx 1 (fun k => { k with switching := true }) (sCtxIn .active)), 1, by decide⟩,
  ⟨modCtx 9 (fun k => { k with incoming := true, pairs := 1 }) (rival (sCtxIn .active)), 9, by decide⟩,
  ⟨grainOn (sCtxIn .active), 1, 4 * 65536 + 31 * 256, by decide⟩,
  ⟨modCtx 1 (fun k => { k with dump := some (3, [31 * 2 ^ 11 + 7 * 2 ^ 8]), dumps := 3 }) (sCtxIn .active), 1, 31 * 2 ^ 11 + 7 * 2 ^ 8 + 1, 3,
    [31 * 2 ^ 11 + 7 * 2 ^ 8], by decide⟩,
  ⟨modCtx 1 (fun k => { k with dump := some (3, [31 * 2 ^ 11 + 7 * 2 ^ 8]), dumps := 3 }) (sCtxIn .active), 1, 31 * 2 ^ 11 + 7 * 2 ^ 8, 3,
    [31 * 2 ^ 11 + 7 * 2 ^ 8], by decide⟩,
  ⟨modCtx 1 (fun k => { k with dump := some (3, [31 * 2 ^ 11 + 7 * 2 ^ 8]), dumps := 3 }) (sCtxIn .active), 1, 3, [31 * 2 ^ 11 + 7 * 2 ^ 8],
    by decide⟩,
  ⟨sCtxIn .active, 1, by decide⟩,
  ⟨sCtxIn .active, rTen 12, [1, 0, 0, 0, 0, 0, 0, 0, 0x07, 0xD0, 0, 0], by decide⟩⟩
theorem test_PartitionLife :
    (∃ (s : State) (r : Req) (body : Bytes), Served s r .f ∧ HasLength r body 65 ∧ (be body 0 1) < 16 ∧ pEnabled s (be body 0 1) = true ∧
    s.fuses.lifecycle ≠ .blank ∧ (partOf s (be body 0 1)).state = .unused ∧ (∀ e ∈ s.nvm.scrubPend, e.1 ≠ (be body 0 1))) ∧
    (∃ (s : State) (r : Req) (body : Bytes), Served s r .f ∧ HasLength r body 1 ∧ (be body 0 1) < 16 ∧ pEnabled s (be body 0 1) = true ∧
    (partOf s (be body 0 1)).state = .resetting ∧ (partOf s (be body 0 1)).relReq = false) ∧
    (∃ (s : State) (r : Req) (body : Bytes), Served s r .f ∧ HasLength r body 1 ∧ (be body 0 1) < 16 ∧ pEnabled s (be body 0 1) = true ∧
    (partOf s (be body 0 1)).state = .assigned ∧ (partOf s (be body 0 1)).relReq = false ∧ ctxsOf s (be body 0 1) = []) ∧
    (∃ (s : State) (r : Req) (body : Bytes), Served s r .f ∧ HasLength r body 1 ∧ (be body 0 1) < 16 ∧ pEnabled s (be body 0 1) = true ∧
    (partOf s (be body 0 1)).state = .unused) ∧
    (∃ (s : State) (part : BitVec 4), (partOf s part.toNat).state = .scrubbing ∧ (partOf s part.toNat).scrubPh = 0 ∧ (∃ c ∈ ctxsOf s part.toNat,
    (ctxOf s c).state = .fencing)) ∧
    (∃ (s : State) (part : BitVec 4), (partOf s part.toNat).state = .scrubbing ∧ (partOf s part.toNat).scrubPh = 0 ∧ (∀ c ∈ ctxsOf s part.toNat,
    (ctxOf s c).state ≠ .fencing)) ∧
    (∃ (s : State) (part : BitVec 4), (partOf s part.toNat).state = .scrubbing ∧ (partOf s part.toNat).scrubPh = 1) ∧
    (∃ (s : State) (part : BitVec 4), (partOf s part.toNat).state = .scrubbing ∧ (partOf s part.toNat).scrubPh = 2) ∧
    (∃ (s : State) (part : BitVec 4), isReady s = true ∧ (partOf s part.toNat).state ≠ .scrubbing ∧
    s.nvm.scrubPend.any (fun e => e.1 == part.toNat) = true) ∧
    (∃ (s : State) (r : Req) (body : Bytes), Served s r .f ∧ HasLength r body 14) :=
  ⟨⟨sTen, rFab 65, 2 :: List.replicate 64 7, by decide⟩,
  ⟨resetting sTen, rFab 1, [2], by decide⟩,
  ⟨{ modPart 2 (fun q => { q with state := .assigned }) sTen with ctxs := [] }, rFab 1, [2], by decide⟩,
  ⟨sTen, rFab 1, [2], by decide⟩,
  ⟨modPart 2 (fun q => { q with state := .scrubbing, scrubPh := 0 }) (sCtxIn .fencing), 2, by decide⟩,
  ⟨modPart 2 (fun q => { q with state := .scrubbing, scrubPh := 0 }) (sCtxIn .fenced), 2, by decide⟩,
  ⟨modPart 2 (fun q => { q with state := .scrubbing, scrubPh := 1 }) (sCtxIn .free), 2, by decide⟩,
  ⟨modPart 2 (fun q => { q with state := .scrubbing, scrubPh := 2 }) (sCtxIn .free), 2, by decide⟩,
  ⟨{ sTen with nvm := { sTen.nvm with scrubPend := [(2, 77)] } }, 2, by decide⟩,
  ⟨sTen, rFab 14, [2, 0, 0, 0, 0, 0, 0, 0, 0, 0, 0, 0, 0, 0], by decide⟩⟩
theorem test_CharterAndShares :
    (∃ (s : State) (r : Req) (body : Bytes), Served s r .t ∧ s.fuses.lifecycle ≠ .blank ∧ chDevices body ≤ 4096 ∧ be body 8 4 = chLength body ∧
    body.length = chLength body ∧ r.bodyLen.toNat = chLength body ∧ (partOf s (r.part.toNat)).state = .assigned ∧
    (partOf s (r.part.toNat)).charter = none ∧ ctxsOf s (r.part.toNat) = []) ∧
    (∃ (i : Req → Bytes → Instr) (kind : Nat) (len : Nat) (s : State) (r : Req) (body : Bytes), (i, kind, len) ∈ [(Instr.keyShareAttest, 1, 65),
    (Instr.keyShareShare, 2, 382), (Instr.keyShareRestoreAuth, 3, 201), (Instr.keyShareStatus, 4, 1)] ∧ Served s r .t ∧ HasLength r body len ∧
    be body 0 1 = kind ∧ (partOf s r.part.toNat).state = .resetting ∧ (kind = 2 → s.fuses.lifecycle ≠ .prodDebug ∧ be body 2 3 = 0) ∧
    (kind = 3 → be body 66 3 = 0)) ∧
    (∃ (s : State) (r : Req) (body : Bytes) (ch : Charter), Sharing s r body 1 65 ch ∧ reportWait s = none) ∧
    (∃ (s : State) (r : Req) (body : Bytes) (ch : Charter), Sharing s r body 2 382 ch ∧ ch.active = false ∧ s.fuses.lifecycle ≠ .prodDebug ∧
    be body 1 1 < chOwners ch.doc ∧ be body 2 3 = 0 ∧ nbit ch.present.toNat (be body 1 1) = false) ∧
    (∃ (s : State) (r : Req) (body : Bytes) (ch : Charter), Sharing s r body 3 201 ch ∧ ch.active = true ∧ be body 65 1 < chOwners ch.doc ∧
    be body 66 3 = 0) ∧
    (∃ (s : State) (r : Req) (body : Bytes) (ch : Charter), Sharing s r body 4 1 ch) :=
  ⟨⟨{ modPart 2 (fun q => { q with state := .assigned }) sTen with ctxs := [] }, rTen 0xA50,
    List.replicate 8 0 ++ bytesBE 4 0xA50 ++ List.replicate (0xA50 - 12) 0, by decide⟩,
  ⟨Instr.keyShareStatus, 4, 1, resetting sTen, rTen 1, [4], by simp, by decide⟩,
  ⟨sCh 1 {}, rTen 65, 1 :: List.replicate 64 7, ch1 1 1, by decide⟩,
  ⟨setPart sTen 2 { partOf sTen 2 with charter := some { ch1 1 1 with active := false }, state := .assigned }, rTen 382, [2, 0, 0, 0,
    0] ++ List.replicate 377 7, { ch1 1 1 with active := false }, by decide⟩,
  ⟨sCh 1 {}, rTen 201, 3 :: List.replicate 64 7 ++ [0, 0, 0, 0] ++ List.replicate 132 9, ch1 1 1, by decide⟩,
  ⟨sCh 1 {}, rTen 1, [4], ch1 1 1, by decide⟩⟩
theorem test_StepDecisions :
    (∃ (s : State) (r : Req) (body : Bytes) (p : Nat) (ch : Charter), UnderCharter s r body 24 p ch ∧ be body 1 2 < be body 3 2 ∧ be body 21 1 ≤ 1 ∧
    be body 22 2 < 4096 ∧ (be body 5 8 = 0 → be body 21 1 = 0 ∧ be body 22 2 = 0)) ∧
    (∃ (s : State) (r : Req) (body : Bytes) (p : Nat) (ch : Charter), UnderCharter s r body 5 p ch ∧ Deciding s p ∧
    (partOf s p).step.arrived = some (BitVec.ofNat 32 (be body 1 4)) ∧ s.cfg.armed = none ∧ chBanks ch.doc = false) ∧
    (∃ (s : State) (r : Req) (body : Bytes) (p : Nat) (ch : Charter), UnderCharter s r body 5 p ch ∧ Deciding s p ∧
    (partOf s p).step.arrived = some (BitVec.ofNat 32 (be body 1 4)) ∧ s.cfg.armed = none ∧ chBanks ch.doc = true ∧
    (partOf s p).step.banks = .arrived) ∧
    (∃ (s : State) (r : Req) (body : Bytes) (p : Nat) (ch : Charter), UnderCharter s r body 5 p ch ∧ Deciding s p ∧
    (partOf s p).step.arrived ≠ some (BitVec.ofNat 32 (be body 1 4))) ∧
    (∃ (s : State) (r : Req) (body : Bytes) (p : Nat) (ch : Charter) (a : W32), UnderCharter s r body 5 p ch ∧ Deciding s p ∧ chBanks ch.doc = true ∧
    (((partOf s p).step.arrived = some a ∧ a.toNat = be body 1 4) ∨ ((partOf s p).step.arrived = none ∧
    attempt s p (partOf s p).step (be body 1 4) = true))) ∧
    (∃ (s : State) (r : Req) (body : Bytes) (p : Nat) (ch : Charter) (c : W32), UnderCharter s r body 5 p ch ∧ Deciding s p ∧ chBanks ch.doc = true ∧
    (partOf s p).step.arrived = none ∧ (partOf s p).step.commit = some c ∧ be body 1 4 ≠ ctxEpoch s (bankCtx s p) ∧
    (c.toNat < ctxEpoch s (bankCtx s p) ∨ be body 1 4 ≠ c.toNat + 1)) ∧
    (∃ (s : State) (r : Req) (body : Bytes) (p : Nat) (ch : Charter), UnderCharter s r body 5 p ch ∧ Deciding s p ∧ chBanks ch.doc = true ∧
    (partOf s p).step.banks = .settled ∧ (partOf s p).step.commit = some (BitVec.ofNat 32 (be body 1 4))) ∧
    (∃ (s : State) (r : Req) (body : Bytes) (p : Nat) (ch : Charter), UnderCharter s r body 5 p ch ∧ Deciding s p ∧ chMirror ch.doc = true ∧
    (partOf s p).step.banks = .settled ∧ (partOf s p).step.commit = some (BitVec.ofNat 32 (be body 1 4)) ∧ (partOf s p).step.mirDone = true) ∧
    (∃ (s : State) (r : Req) (body : Bytes) (p : Nat) (ch : Charter), UnderCharter s r body 5 p ch ∧ Deciding s p ∧ chMirror ch.doc = true ∧
    (partOf s p).step.banks = .settled ∧ (partOf s p).step.commit = some (BitVec.ofNat 32 (be body 1 4)) ∧ (partOf s p).step.mirDone = false) ∧
    (∃ (s : State) (r : Req) (body : Bytes) (p : Nat) (ch : Charter), UnderCharter s r body 9 p ch ∧ chMirror ch.doc = true) ∧
    (∃ (s : State) (r : Req) (body : Bytes) (p : Nat) (b : Nat) (ch : Charter), UnderCharter s r body 16 p ch ∧ chMirror ch.doc = true ∧
    be body 13 1 ≤ 1 ∧ be body 14 2 ≠ 0 ∧ be body 14 2 < 4096 ∧ (partOf s p).step.joined = true ∧ (partOf s p).step.origin.toNat = be body 1 8 ∧
    mirrorHolds (partOf s p).step (be body 9 4) = some b ∧ (partOf s p).step.sendBack = none ∧
    eValid (entryOf s (pathKey (be body 13 1) (be body 14 2))) = true ∧ eRole (entryOf s (pathKey (be body 13 1) (be body 14 2))) = 0 ∧
    ePart (entryOf s (pathKey (be body 13 1) (be body 14 2))) = p ∧ (pathOf s (pathKey (be body 13 1) (be body 14 2))).phase = 3) ∧
    (∃ (s : State) (r : Req) (body : Bytes) (p : Nat) (ch : Charter), UnderCharter s r body 1 p ch ∧ Deciding s p) ∧
    (∃ (i : Req → Bytes → Instr) (op : Nat) (len : Nat) (s : State) (r : Req) (body : Bytes) (p : Nat) (ch : Charter), (i, op,
    len) ∈ [(Instr.stepCommit, 0x0111, 5), (Instr.stepRollback, 0x0112, 5), (Instr.stepUncommit, 0x0113, 5), (Instr.mirrorRelease, 0x0114, 5),
    (Instr.stepAbort, 0x0117, 1)] ∧ UnderCharter s r body len p ch ∧ (∃ c ∈ ctxsOf s p, (ctxOf s c).state = .fencing ∨ (ctxOf s c).state = .fenced)) ∧
    (∃ (i : Req → Bytes → Instr) (op : Nat) (s : State) (r : Req) (body : Bytes) (p : Nat) (ch : Charter), (i, op) ∈ [(Instr.stepRollback, 0x0112),
    (Instr.stepUncommit, 0x0113), (Instr.mirrorRelease, 0x0114)] ∧ UnderCharter s r body 5 p ch ∧ Deciding s p ∧ chBanks ch.doc = false ∧
    chMirror ch.doc = false) :=
  ⟨⟨sCh 3 {}, rFab 24, [2, 0, 0, 0, 2] ++ List.replicate 8 0 ++ List.replicate 8 9 ++ [0, 0, 0], 2, ch1 3 1, by decide⟩,
  ⟨grainOn (sCh 0 { arrived := some 7 }), rFab 5, [2, 0, 0, 0, 7], 2, ch1 0 1, by decide⟩,
  ⟨grainOn (sCh 1 { arrived := some 7, banks := .arrived, wrOk := false }), rFab 5, [2, 0, 0, 0, 7], 2, ch1 1 1, by decide⟩,
  ⟨sCh 1 {}, rFab 5, [2, 0, 0, 0, 7], 2, ch1 1 1, by decide⟩,
  ⟨grainOn (sCh 1 { arrived := some 7, banks := .arrived }), rFab 5, [2, 0, 0, 0, 7], 2, ch1 1 1, 7, by decide⟩,
  ⟨sCh 1 { commit := some 7 }, rFab 5, [2, 0, 0, 0, 7], 2, ch1 1 1, 7, by decide⟩,
  ⟨sCh 3 { banks := .settled, commit := some 7 }, rFab 5, [2, 0, 0, 0, 7], 2, ch1 3 1, by decide⟩,
  ⟨sCh 3 { banks := .settled, commit := some 7, mirDone := true }, rFab 5, [2, 0, 0, 0, 7], 2, ch1 3 1, by decide⟩,
  ⟨sCh 3 { banks := .settled, commit := some 7 }, rFab 5, [2, 0, 0, 0, 7], 2, ch1 3 1, by decide⟩,
  ⟨sCh 3 { heldA := some 7 }, rFab 9, [2, 0, 0, 0, 0, 0, 0, 0, 7], 2, ch1 3 1, by decide⟩,
  ⟨withPathOn 0 openPath (sCh 3 { joined := true, origin := 9, heldB := some 7 }), rFab 16, [2] ++ bytesBE 8 9 ++ [0, 0, 0, 7, 0, 0, 5], 2, 1,
    ch1 3 1, by decide⟩,
  ⟨grainOn (sCh 1 { arrived := some 7, banks := .arrived }), rFab 1, [2], 2, ch1 1 1, by decide⟩,
  ⟨Instr.stepAbort, 0x0117, 1, modCtx 1 (fun k => { k with state := .fenced }) (sCh 1 {}), rFab 1, [2], 2, ch1 1 1, by simp, by decide, ⟨1,
    by decide⟩⟩,
  ⟨Instr.stepRollback, 0x0112, sCh 0 {}, rFab 5, [2, 0, 0, 0, 7], 2, ch1 0 1, by simp, by decide⟩⟩
theorem test_CheckpointCopy :
    (∃ (s : State) (r : Req) (body : Bytes) (p : Nat) (ch : Charter), UnderCharter s r body (40 + 16 * (be body 36 1)) p ch ∧ chMode ch.doc ≠ 0 ∧
    (sessOf s (be body 28 4)).phase = .opened ∧ (sessOf s (be body 28 4)).role = .fabric ∧ be body 1 1 = 0 ∧ be body 6 2 = 0 ∧ be body 37 3 = 0 ∧
    be body 2 2 < be body 4 2 ∧ be body 4 2 ≤ 4096 ∧ (be body 36 1) ≤ 64 ∧ be body 32 4 ≠ 0xFFFFFFFF ∧ ((be body 36 1) = 0 → chBanks ch.doc = true) ∧
    (∀ x ∈ (rangesOf body 40 (be body 36 1)), crBase x < 2 ^ 48 ∧ (crWidth x = 1 ∨ crWidth x = 2 ∨ crWidth x = 4 ∨ crWidth x = 16) ∧ crSlot x ≠ 0 ∧
    x.2.1 ≠ 0 ∧ x.2.1 ≠ 0xFFFFFFFF ∧ sealedWith s (bankCtx s p) rREAD (crBase x) (crLen x) = true) ∧
    noneMeet ((rangesOf body 40 (be body 36 1)).map (fun x => (crBase x, crLen x))) = true ∧ (partOf s p).snap.state = .idle ∧ ctxsOf s p ≠ [] ∧
    (∀ c ∈ ctxsOf s p, (ctxOf s c).state ≠ .fencing ∧ (ctxOf s c).state ≠ .fenced) ∧
    (cutAtGate s p (be body 24 4) = true ∨ cutOnCommit s p ch (be body 36 1) (be body 24 4) = true) ∧ pushClaim s p = true ∧
    (placeArea s p (stagingBytes (be body 32 4) (if (be body 36 1) = 0 then committedRanges ch else (rangesOf body 40 (be body 36 1))))).isSome =
    true ∧ (∀ x ∈ (if (be body 36 1) = 0 then committedRanges ch else (rangesOf body 40 (be body 36 1))),
    zotBlocks s (bankCtx s p) (crBase x) (crLen x) = none)) ∧
    (∃ (s : State) (p : Nat) (e : Nat), cutAtGate s p e = true) ∧
    (∃ (s : State) (r : Req) (body : Bytes) (p : Nat) (ch : Charter), UnderCharter s r body (40 + 16 * be body 36 1) p ch ∧ chMode ch.doc ≠ 0 ∧
    CkptFormed s r body 0x0120 ∧ (∃ c ∈ ctxsOf s p, (ctxOf s c).state = .fencing ∨ (ctxOf s c).state = .fenced)) ∧
    (∃ (i : Req → Bytes → Instr) (op : Nat) (s : State) (r : Req) (body : Bytes), CkptOp i op ∧ Served s r .f ∧ be body 0 1 < 16 ∧
    pEnabled s (be body 0 1) = true ∧ CkptFormed s r body op ∧ activeCharter s (be body 0 1) = none) ∧
    (∃ (i : Req → Bytes → Instr) (op : Nat) (s : State) (r : Req) (body : Bytes), CkptOp i op ∧ Served s r .f ∧ be body 0 1 < 16 ∧
    pEnabled s (be body 0 1) = true ∧ CkptFormed s r body op ∧ activeCharter s (be body 0 1) = none) ∧
    (∃ (i : Req → Bytes → Instr) (op : Nat) (s : State) (r : Req) (body : Bytes), CkptOp i op ∧ Served s r .f ∧ be body 0 1 < 16 ∧
    pEnabled s (be body 0 1) = true ∧ CkptFormed s r body op ∧ activeCharter s (be body 0 1) = none) ∧
    (∃ (i : Req → Bytes → Instr) (op : Nat) (s : State) (r : Req) (body : Bytes), CkptOp i op ∧ Served s r .f ∧ be body 0 1 < 16 ∧
    pEnabled s (be body 0 1) = true ∧ CkptFormed s r body op ∧ activeCharter s (be body 0 1) = none) ∧
    (∃ (i : Req → Bytes → Instr) (op : Nat) (s : State) (r : Req) (body : Bytes), CkptOp i op ∧ Served s r .f ∧ be body 0 1 < 16 ∧
    pEnabled s (be body 0 1) = true ∧ CkptFormed s r body op ∧ activeCharter s (be body 0 1) = none) ∧
    (∃ (i : Req → Bytes → Instr) (op : Nat) (s : State) (r : Req) (body : Bytes), CkptOp i op ∧ Served s r .f ∧ be body 0 1 < 16 ∧
    pEnabled s (be body 0 1) = true ∧ CkptFormed s r body op ∧ activeCharter s (be body 0 1) = none) ∧
    (∃ (i : Req → Bytes → Instr) (op : Nat) (s : State) (r : Req) (body : Bytes) (ch : Charter), CkptOp i op ∧ Served s r .f ∧
    activeCharter s (be body 0 1) = some ch ∧ chMode ch.doc = 0) ∧
    (∃ (i : Req → Bytes → Instr) (op : Nat) (s : State) (r : Req) (body : Bytes) (ch : Charter), CkptOp i op ∧ Served s r .f ∧
    activeCharter s (be body 0 1) = some ch ∧ chMode ch.doc = 0) ∧
    (∃ (i : Req → Bytes → Instr) (op : Nat) (s : State) (r : Req) (body : Bytes) (ch : Charter), CkptOp i op ∧ Served s r .f ∧
    activeCharter s (be body 0 1) = some ch ∧ chMode ch.doc = 0) ∧
    (∃ (i : Req → Bytes → Instr) (op : Nat) (s : State) (r : Req) (body : Bytes) (ch : Charter), CkptOp i op ∧ Served s r .f ∧
    activeCharter s (be body 0 1) = some ch ∧ chMode ch.doc = 0) ∧
    (∃ (i : Req → Bytes → Instr) (op : Nat) (s : State) (r : Req) (body : Bytes) (ch : Charter), CkptOp i op ∧ Served s r .f ∧
    activeCharter s (be body 0 1) = some ch ∧ chMode ch.doc = 0) ∧
    (∃ (i : Req → Bytes → Instr) (op : Nat) (s : State) (r : Req) (body : Bytes) (ch : Charter), CkptOp i op ∧ Served s r .f ∧
    activeCharter s (be body 0 1) = some ch ∧ chMode ch.doc = 0) ∧
    (∃ (s : State) (part : BitVec 4) (ch : Charter) (i : Nat) (off : Nat) (len : Nat), ((partOf s (part.toNat)).snap).state = .copying ∧
    ((partOf s (part.toNat)).snap).sentAll = false ∧ activeCharter s (part.toNat) = some ch ∧
    (allChunks ((partOf s (part.toNat)).snap).ranges)[((partOf s (part.toNat)).snap).chunk]? = some (i, off, len) ∧
    chunkStatus s (part.toNat) ch ((partOf s (part.toNat)).snap) i (((partOf s (part.toNat)).snap).ranges.getD i (0, 0, 0, 0)) off len ≠ .ok) ∧
    (∃ (s : State) (part : BitVec 4) (ch : Charter) (i : Nat) (off : Nat) (len : Nat), ((partOf s (part.toNat)).snap).state = .copying ∧
    ((partOf s (part.toNat)).snap).sentAll = false ∧ activeCharter s (part.toNat) = some ch ∧
    (allChunks ((partOf s (part.toNat)).snap).ranges)[((partOf s (part.toNat)).snap).chunk]? = some (i, off, len) ∧
    chunkStatus s (part.toNat) ch ((partOf s (part.toNat)).snap) i (((partOf s (part.toNat)).snap).ranges.getD i (0, 0, 0, 0)) off len = .ok) ∧
    (∃ (s : State) (part : BitVec 4), (partOf s part.toNat).snap.state ≠ .copying) ∧
    (∃ (s : State) (part : BitVec 4) (ch : Charter), ((partOf s part.toNat).snap).state = .copying ∧ ((partOf s part.toNat).snap).sentAll = false ∧
    activeCharter s part.toNat = some ch ∧ (allChunks ((partOf s part.toNat).snap).ranges)[((partOf s part.toNat).snap).chunk]? = none) :=
  ⟨⟨sClaim { banks := .settled, commit := some 7 }, rFab 40, [2, 0, 0, 0, 0, 1, 0, 0] ++ List.replicate 16 5 ++ [0, 0, 0, 7, 0, 0, 0, 0, 0, 0, 0, 1,
    0, 0, 0, 0], 2, ch1 1 1, by decide, by and_intros <;> decide⟩,
  ⟨setCore (sCh 1 { arrived := some 7 }) 31 { coreOf (sCh 1 {}) 31 with grains := [(0, { g0 with started := true, waiting := .recv })] }, 2, 7,
    by decide⟩,
  ⟨modCtx 1 (fun k => { k with state := .fenced }) (sCh 1 {}), rFab 40, [2, 0, 0, 0, 0, 1, 0, 0] ++ List.replicate 16 5 ++ [0, 0, 0, 7, 0, 0, 0, 0,
    0, 0, 0, 1, 0, 0, 0, 0], 2, ch1 1 1, by decide, by decide, by refine ⟨?_, ?_, ?_, ?_, ?_⟩ <;> decide, ⟨1, by decide⟩⟩,
  ⟨Instr.ckptCut, 0x0120, modPart 2 (fun q => { q with state := .assigned }) sTen, rFab 40, [2, 0, 0, 0, 0, 1, 0, 0] ++ List.replicate 16 5 ++ [0, 0,
    0, 7, 0, 0, 0, 0, 0, 0, 0, 1, 0, 0, 0, 0], by simp [CkptOp], by decide, by decide, by decide, by refine ⟨?_, ?_, ?_, ?_, ?_⟩ <;> decide,
    by decide⟩,
  ⟨Instr.ckptStatus, 0x0121, modPart 2 (fun q => { q with state := .assigned }) sTen, rFab 1, [2], by simp [CkptOp], by decide, by decide, by decide,
    by refine ⟨?_, ?_, ?_, ?_, ?_⟩ <;> decide, by decide⟩,
  ⟨Instr.ckptStored, 0x0122, modPart 2 (fun q => { q with state := .assigned }) sTen, rFab 13, 2 :: List.replicate 12 0, by simp [CkptOp], by decide,
    by decide, by decide, by refine ⟨?_, ?_, ?_, ?_, ?_⟩ <;> decide, by decide⟩,
  ⟨Instr.ckptAbandon, 0x0123, modPart 2 (fun q => { q with state := .assigned }) sTen, rFab 1, [2], by simp [CkptOp], by decide, by decide,
    by decide, by refine ⟨?_, ?_, ?_, ?_, ?_⟩ <;> decide, by decide⟩,
  ⟨Instr.ckptManifestLoad, 0x0124, modPart 2 (fun q => { q with state := .assigned }) sTen, rFab 12, [2, 1] ++ List.replicate 10 0, by simp [CkptOp],
    by decide, by decide, by decide, by refine ⟨?_, ?_, ?_, ?_, ?_⟩ <;> decide, by decide⟩,
  ⟨Instr.ckptRestoreOpen, 0x0125, modPart 2 (fun q => { q with state := .assigned }) sTen, rFab 17, 2 :: List.replicate 16 0, by simp [CkptOp],
    by decide, by decide, by decide, by refine ⟨?_, ?_, ?_, ?_, ?_⟩ <;> decide, by decide⟩,
  ⟨Instr.ckptCut, 0x0120, underCh 1 0 {} sTen, rFab 40, [2, 0, 0, 0, 0, 1, 0, 0] ++ List.replicate 16 5 ++ [0, 0, 0, 7, 0, 0, 0, 0, 0, 0, 0, 1, 0, 0,
    0, 0], ch1 1 0, by simp [CkptOp], by decide⟩,
  ⟨Instr.ckptStatus, 0x0121, underCh 1 0 {} sTen, rFab 1, [2], ch1 1 0, by simp [CkptOp], by decide⟩,
  ⟨Instr.ckptStored, 0x0122, underCh 1 0 {} sTen, rFab 13, 2 :: List.replicate 12 0, ch1 1 0, by simp [CkptOp], by decide⟩,
  ⟨Instr.ckptAbandon, 0x0123, underCh 1 0 {} sTen, rFab 1, [2], ch1 1 0, by simp [CkptOp], by decide⟩,
  ⟨Instr.ckptManifestLoad, 0x0124, underCh 1 0 {} sTen, rFab 12, [2, 1] ++ List.replicate 10 0, ch1 1 0, by simp [CkptOp], by decide⟩,
  ⟨Instr.ckptRestoreOpen, 0x0125, underCh 1 0 {} sTen, rFab 17, 2 :: List.replicate 16 0, ch1 1 0, by simp [CkptOp], by decide⟩,
  ⟨{ copying with hbm := { copying.hbm with poison := [0x8000] } }, 2, ch1 1 1, 0, 0, 0x200000, by decide⟩,
  ⟨copying, 2, ch1 1 1, 0, 0, 0x200000, by decide⟩,
  ⟨sCh 1 {}, 2, by decide⟩,
  ⟨paused (modPart 2 (fun q => { q with snap := { q.snap with chunk := 9999 } }) copying), 2, ch1 1 1, by decide⟩⟩
theorem test_CheckpointEnd :
    (∃ (s : State) (r : Req) (body : Bytes) (p : Nat) (ch : Charter), UnderCharter s r body 1 p ch ∧ chMode ch.doc ≠ 0) ∧
    (∃ (s : State) (r : Req) (body : Bytes) (p : Nat) (ch : Charter), UnderCharter s r body 13 p ch ∧ chMode ch.doc ≠ 0 ∧
    (partOf s p).snap.state = .sent ∧ (partOf s p).snap.transfer = BitVec.ofNat 32 (be body 1 4) ∧ be body 5 8 = (partOf s p).snap.bytes.length) ∧
    (∃ (s : State) (r : Req) (body : Bytes) (p : Nat) (ch : Charter) (b : Bytes), UnderCharter s r body 13 p ch ∧ chMode ch.doc ≠ 0 ∧
    (partOf s p).snap.state = .idle ∧ (partOf s p).snap.record = some (BitVec.ofNat 32 (be body 1 4), b) ∧ be body 5 8 = be b 0x070 8) ∧
    (∃ (s : State) (r : Req) (body : Bytes) (p : Nat) (ch : Charter) (b : Bytes), UnderCharter s r body 13 p ch ∧ chMode ch.doc ≠ 0 ∧
    (partOf s p).snap.state = .idle ∧ (partOf s p).snap.record = some (BitVec.ofNat 32 (be body 1 4), b) ∧ be body 5 8 ≠ be b 0x070 8) ∧
    (∃ (s : State) (r : Req) (body : Bytes) (p : Nat) (ch : Charter), UnderCharter s r body 1 p ch ∧ chMode ch.doc ≠ 0 ∧
    (partOf s p).snap.state ≠ .idle) ∧
    (∃ (s : State) (r : Req) (body : Bytes) (p : Nat) (ch : Charter), Served s r .f ∧ 12 ≤ body.length ∧ r.bodyLen.toNat = body.length ∧
    be body 0 1 = p ∧ p < 16 ∧ pEnabled s p = true ∧ activeCharter s p = some ch ∧ chMode ch.doc ≠ 0 ∧ be body 2 2 = 0 ∧ body.length ≤ 65500 ∧
    be body 1 1 = 1 ∧ be body 4 8 = 0) ∧
    (∃ (s : State) (r : Req) (body : Bytes) (p : Nat) (ch : Charter), Served s r .f ∧ 12 ≤ body.length ∧ r.bodyLen.toNat = body.length ∧
    be body 0 1 = p ∧ p < 16 ∧ pEnabled s p = true ∧ activeCharter s p = some ch ∧ chMode ch.doc ≠ 0 ∧ be body 2 2 = 0 ∧ body.length ≤ 65500 ∧
    be body 1 1 = 0 ∧ be body 4 8 = 0) ∧
    (∃ (s : State) (r : Req) (body : Bytes) (p : Nat) (ch : Charter), Served s r .f ∧ 12 ≤ body.length ∧ r.bodyLen.toNat = body.length ∧
    be body 0 1 = p ∧ p < 16 ∧ pEnabled s p = true ∧ activeCharter s p = some ch ∧ chMode ch.doc ≠ 0 ∧ be body 2 2 = 0 ∧ body.length ≤ 65500 ∧
    be body 1 1 = 0 ∧ be body 4 8 ≠ 0 ∧ (partOf s p).rest.whole = false ∧ be body 4 8 = (partOf s p).rest.manifest.length ∧
    be body 4 8 + (body.length - 12) ≤ 1917040) ∧
    (∃ (s : State) (r : Req) (body : Bytes) (p : Nat) (ch : Charter), Served s r .f ∧ 12 ≤ body.length ∧ r.bodyLen.toNat = body.length ∧
    be body 0 1 = p ∧ p < 16 ∧ pEnabled s p = true ∧ activeCharter s p = some ch ∧ chMode ch.doc ≠ 0 ∧ be body 2 2 = 0 ∧ body.length ≤ 65500 ∧
    be body 1 1 = 0 ∧ be body 4 8 ≠ 0 ∧ be body 4 8 ≠ (partOf s p).rest.manifest.length ∧ be body 4 8 + (body.length - 12) ≤ 1917040) ∧
    (∃ (s : State) (r : Req) (body : Bytes) (p : Nat) (ch : Charter), UnderCharter s r body 17 p ch ∧ chMode ch.doc ≠ 0 ∧ be body 4 1 = 0 ∧
    nbit (be body 5 4) 31 = false ∧ be body 1 1 = 0 ∧ chBanks ch.doc = false ∧ be body 2 2 < mnCount ((partOf s p).rest).manifest ∧ ctxsOf s p ≠ [] ∧
    (ctxOf s (bankCtx s p)).state = .creating ∧ (ctxOf s (bankCtx s p)).loaded = true ∧ ((partOf s p).rest).isOpen = false ∧ (∀ x ∈ s.bulk,
    x.1 ≠ bulkKey r.sess (be body 5 4)) ∧ ((partOf s p).rest).whole = true ∧
    chQuorum ch.doc ≤ authCount ch (Config.sha512 ((partOf s p).rest).manifest)) ∧
    (∃ (s : State) (r : Req) (body : Bytes) (p : Nat) (ch : Charter), UnderCharter s r body 17 p ch ∧ chMode ch.doc ≠ 0 ∧ be body 4 1 = 0 ∧
    nbit (be body 5 4) 31 = false ∧ be body 1 1 = 0 ∧ chBanks ch.doc = false ∧ be body 2 2 < mnCount ((partOf s p).rest).manifest ∧ ctxsOf s p ≠ [] ∧
    (ctxOf s (bankCtx s p)).state = .creating ∧ (ctxOf s (bankCtx s p)).loaded = true ∧ ((partOf s p).rest).isOpen = false ∧ (∀ x ∈ s.bulk,
    x.1 ≠ bulkKey r.sess (be body 5 4)) ∧ (((partOf s p).rest).whole = false ∨ authCount ch (Config.sha512 ((partOf s p).rest).manifest) < chQuorum
    ch.doc)) :=
  ⟨⟨copying, rFab 1, [2], 2, ch1 1 1, by decide⟩,
  ⟨modSnap (fun n => { n with state := .sent, transfer := 9, bytes := [1, 2, 3], sentAll := true }) (sCh 1 {}), rFab 13, [2, 0, 0, 0,
    9] ++ bytesBE 8 3, 2, ch1 1 1, by decide⟩,
  ⟨modSnap (fun z => { z with record := some (9, List.replicate 0x70 0 ++ bytesBE 8 3) }) (sCh 1 {}), rFab 13, [2, 0, 0, 0, 9] ++ bytesBE 8 3, 2,
    ch1 1 1, List.replicate 0x70 0 ++ bytesBE 8 3, by decide⟩,
  ⟨modSnap (fun z => { z with record := some (9, List.replicate 0x70 0 ++ bytesBE 8 3) }) (sCh 1 {}), rFab 13, [2, 0, 0, 0, 9] ++ bytesBE 8 5, 2,
    ch1 1 1, List.replicate 0x70 0 ++ bytesBE 8 3, by decide⟩,
  ⟨modSnap (fun n => { n with state := .sent, transfer := 9, bytes := [1, 2, 3], sentAll := true }) (sCh 1 {}), rFab 1, [2], 2, ch1 1 1, by decide⟩,
  ⟨sCh 1 {}, rFab 14, [2, 1, 0, 0] ++ bytesBE 8 0 ++ [8, 9], 2, ch1 1 1, by decide⟩,
  ⟨sCh 1 {}, rFab 14, [2, 0, 0, 0] ++ bytesBE 8 0 ++ [8, 9], 2, ch1 1 1, by decide⟩,
  ⟨modRest (fun v => { v with manifest := [1, 2, 3] }) (sCh 1 {}), rFab 14, [2, 0, 0, 0] ++ bytesBE 8 3 ++ [8, 9], 2, ch1 1 1, by decide⟩,
  ⟨modRest (fun v => { v with manifest := [1, 2, 3] }) (sCh 1 {}), rFab 14, [2, 0, 0, 0] ++ bytesBE 8 4 ++ [8, 9], 2, ch1 1 1, by decide⟩,
  ⟨sRest true chAuth, rFab 17, [2, 0, 0, 0, 0] ++ bytesBE 4 9 ++ bytesBE 8 0, 2, chAuth,
    by and_intros <;> first | decide | exact rfl | exact le_of_eq_of_le (by decide) (auth_one _ _)⟩,
  ⟨sRest false (ch1 0 1), rFab 17, [2, 0, 0, 0, 0] ++ bytesBE 4 9 ++ bytesBE 8 0, 2, ch1 0 1,
    by and_intros <;> first | decide | exact Or.inl (by decide)⟩⟩
theorem test_StepRunsFrontCommand :
    (∃ (s : State) (c : Instr) (rest : List Instr), s.pending = c :: rest) ∧
    (∃ (s : State) (h : HeldReq) (rest : List HeldReq), s.pending = [] ∧ s.heldReqs = h :: rest ∧ h.seq ≤ (sessOf s h.sess).rxSeq ∧
    portOpen s (sessOf s h.sess).port = true) ∧
    (∃ (s : State), s.pending = [] ∧ (∀ h ∈ s.heldReqs, (sessOf s h.sess).rxSeq < h.seq ∨ portOpen s (sessOf s h.sess).port = false)) :=
  ⟨⟨sOne, .ppsInEdge 2000, [], by decide⟩,
  ⟨{ sHost with heldReqs := [⟨0, 0, .ckptStatus (rFab 1) [2]⟩] }, ⟨0, 0, .ckptStatus (rFab 1) [2]⟩, [], by decide⟩,
  ⟨sHost, by decide⟩⟩
theorem test_FusesNeverMoveBack :
    ∃ (s : State) (t : State), step s = .next t :=
  ⟨sOne, sOneDone, rfl⟩
theorem test_FuseInvariantKept :
    ∃ (s : State) (t : State), FuseInv s ∧ step s = .next t :=
  ⟨sOne, sOneDone, ⟨by decide, by decide⟩, rfl⟩
theorem test_MemoryStaysCanonical :
    ∃ (s : State) (t : State), Memory.wf s.mem = true ∧ step s = .next t :=
  ⟨sOne, sOneDone, by decide, rfl⟩
theorem test_RequestRules :
    (∃ (l : List Check) (st : Status), firstFailure l = some st) ∧
    (∃ (s : State) (r : Req) (op : Nat) (rt : Rights) (lenOk : Bool) (checks : List Check) (act : State → State) (st : Status),
    mailboxOpen s r = true ∧ firstFailure (headerChecks (taken s r) r op rt lenOk ++ checks) = some st ∧ (sessOf s r.sess).txSeq < 2 ^ 47) ∧
    (∃ (s : State) (r : Req) (op : Nat) (rt : Rights) (lenOk : Bool) (checks : List Check) (act : State → State), mailboxOpen s r = true ∧
    isReady s = false ∧ op ≠ 0x0001 ∧ (∀ k ∈ checks, 1 < k.order) ∧ (sessOf s r.sess).txSeq < 2 ^ 47) ∧
    (∃ (s : State) (r : Req) (op : Nat) (rt : Rights) (lenOk : Bool) (checks : List Check) (act : State → State), mailboxOpen s r = false ∧
    (bootHalted s && r.port == .mgmt) = false) ∧
    (∃ (i : Req → Bytes → Instr) (s : State) (r : Req) (body : Bytes), i ∈ mailboxRows ∧ (bootHalted s && r.port == .mgmt) = false ∧
    (sessOf s r.sess).turn = false ∧ portOpen s r.port = false) ∧
    (∃ (i : Req → Bytes → Instr) (s : State) (r : Req) (body : Bytes), i ∈ mailboxRows ∧ (bootHalted s && r.port == .mgmt) = false ∧
    (sessOf s r.sess).turn = false ∧ portOpen s r.port = true ∧
    (headBad r.head = true ∨ (sessOf s r.sess).phase ≠ .opened ∨ (sessOf s r.sess).port ≠ r.port ∨ r.head.peer.getD (sessOf s r.sess).peer ≠ (sessOf
    s r.sess).peer)) ∧
    (∃ (i : Req → Bytes → Instr) (s : State) (r : Req) (body : Bytes), i ∈ mailboxRows ∧ (bootHalted s && r.port == .mgmt) = false ∧
    (sessOf s r.sess).turn = false ∧ portOpen s r.port = true ∧ headBad r.head = false ∧ (sessOf s r.sess).phase = .opened ∧
    (sessOf s r.sess).port = r.port ∧ r.head.peer.getD (sessOf s r.sess).peer = (sessOf s r.sess).peer ∧ r.head.tagBad = true) ∧
    (∃ (i : Req → Bytes → Instr) (s : State) (r : Req) (body : Bytes), i ∈ mailboxRows ∧ (bootHalted s && r.port == .mgmt) = false ∧
    (sessOf s r.sess).turn = false ∧ portOpen s r.port = true ∧ headBad r.head = false ∧ (sessOf s r.sess).phase = .opened ∧
    (sessOf s r.sess).port = r.port ∧ r.head.peer.getD (sessOf s r.sess).peer = (sessOf s r.sess).peer ∧ r.head.tagBad = false ∧
    ((r.head.seq.getD ((sessOf s r.sess).rxSeq + 1)) ≤ (sessOf s r.sess).rxSeq ∨ (r.head.seq.getD ((sessOf s r.sess).rxSeq + 1)) ∈ (sessOf s
    r.sess).rxMap ∨ (sessOf s r.sess).rxSeq + 1024 < ((r.head.seq.getD ((sessOf s r.sess).rxSeq + 1)) + r.frags))) ∧
    (∃ (i : Req → Bytes → Instr) (s : State) (r : Req) (body : Bytes), i ∈ mailboxRows ∧ (bootHalted s && r.port == .mgmt) = false ∧
    (sessOf s r.sess).turn = false ∧ portOpen s r.port = true ∧ headBad r.head = false ∧ (sessOf s r.sess).phase = .opened ∧
    (sessOf s r.sess).port = r.port ∧ r.head.peer.getD (sessOf s r.sess).peer = (sessOf s r.sess).peer ∧ r.head.tagBad = false ∧
    seqsOpen (sessOf s r.sess) (r.head.seq.getD ((sessOf s r.sess).rxSeq + 1)) ((r.head.seq.getD ((sessOf s r.sess).rxSeq + 1)) + r.frags) = true ∧
    ((r.head.seq.getD ((sessOf s r.sess).rxSeq + 1)) + r.frags) < 2 ^ 47 ∧
    (r.head.seq.getD ((sessOf s r.sess).rxSeq + 1)) ≠ (sessOf s r.sess).rxSeq + 1 ∧ (∀ x ∈ (sessOf s r.sess).unacked,
    ackCovers r.acks.ackSeq r.acks.sack x.seq = false)) :=
  ⟨⟨[⟨5, true, .badDescriptor⟩, ⟨2, true, .denied⟩], .denied, by decide⟩,
  ⟨sHost, rFab 0, 0x0101, .f, true, [⟨5, true, .badDescriptor⟩, ⟨2, true, .denied⟩], id, .denied, by decide⟩,
  ⟨withSess .host .fabric 0 { inBoot .ports with host := { sOn.host with up := true } }, rFab 0, 0x0101, .f, true, [⟨5, true, .badDescriptor⟩, ⟨2,
    true, .denied⟩], id, by decide⟩,
  ⟨sReady, rFab 0, 0x0101, .f, true, [⟨5, true, .badDescriptor⟩, ⟨2, true, .denied⟩], id, by decide⟩,
  ⟨Instr.ckptStatus, sReady, rFab 1, [2], by simp [mailboxRows], by decide, by decide, by decide⟩,
  ⟨Instr.ckptStatus, sHost, rq .host 5 1, [2], by simp [mailboxRows], by and_intros <;> decide⟩,
  ⟨Instr.ckptStatus, sHost, { rFab 1 with head := { tagBad := true } }, [2], by simp [mailboxRows], by and_intros <;> decide⟩,
  ⟨Instr.ckptStatus, sHost, { rFab 1 with head := { seq := some 0 } }, [2], by simp [mailboxRows], by and_intros <;> decide⟩,
  ⟨Instr.ckptStatus, sHost, { rFab 1 with head := { seq := some 3 } }, [2], by simp [mailboxRows], by and_intros <;> decide⟩⟩
theorem test_NumberFormats :
    (∃ (f : Nat) (x : Nat), f ∈ ([1, 2, 3, 4, 5, 6, 7] : List Nat) ∧ x < 2 ^ fmtBits f ∧ isFinite (decodeFloat f x).1 = true) ∧
    (∃ (f : Nat) (x : Nat), f ∈ ([5, 6, 7] : List Nat) ∧ x < 2 ^ fmtBits f ∧ isInf (decodeFloat f x).1 = true) ∧
    (∃ (x : Nat), x < 2 ^ 32 ∧ isFinite (decode32 x).1 = true ∧ fp32Sub x = false) ∧
    (∃ (x : Nat), x < 2 ^ 32 ∧ fp32Sub x = true) ∧
    (∃ (f : Nat) (x : Nat) (zp : Nat), f ∈ ([0x08, 0x09] : List Nat) ∧ x < 2 ^ fmtBits f ∧ zp < 256) ∧
    (∃ (x : Nat), x < 2 ^ 32) ∧
    (∃ (f : Nat) (lo : Int) (hi : Int) (zp : Int) (neg : Bool) (num : Nat) (den : Nat) (exp : Int), (f, lo, hi) ∈ ([(0x08, -8, 7), (0x09, -128, 127),
    (0x0C, -2147483648, 2147483647)] : List (Nat × Int × Int)) ∧ den ≠ 0) ∧
    (∃ (f : Nat) (lo : Int) (hi : Int) (zp : Int) (neg : Bool) (num : Nat) (den : Nat) (exp : Int), (f, lo, hi) ∈ ([(0x08, -8, 7), (0x09, -128, 127),
    (0x0C, -2147483648, 2147483647)] : List (Nat × Int × Int)) ∧ den ≠ 0) :=
  ⟨⟨1, 1, by decide⟩,
  ⟨5, 124, by decide⟩,
  ⟨0x3F800000, by decide⟩,
  ⟨1, by decide⟩,
  ⟨0x08, 3, 0, by decide⟩,
  ⟨5, by decide⟩,
  ⟨0x08, -8, 7, 0, true, 5, 2, 0, by simp, by decide⟩,
  ⟨0x0C, -2147483648, 2147483647, 3, false, 1, 3, 40, by simp, by decide⟩⟩

end Sys2Proof.Tests
end

section
/-! PROOF. The package (chapters 1 and 2): what a device reset destroys and keeps, and the board's I2C port. -/

namespace Sys2Proof.Machine

/-! ## Bits -/

/-- A bit read after one was set or cleared. -/
theorem bit_setBit {w : Nat} (x : BitVec w) (i j : Nat) (b : Bool) :
    bit (setBit x i b) j = if j = i then b && decide (i < w) else bit x j := by
  have hx : x.getLsbD j = true → j < w := BitVec.lt_of_getLsbD
  cases b <;>
    simp only [bit, setBit, Bool.false_eq_true, if_true, if_false, BitVec.getLsbD_or, BitVec.getLsbD_and, BitVec.getLsbD_not,
      BitVec.getLsbD_ofNat, Nat.testBit_two_pow]
  case false =>
    by_cases h : j = i
    · subst h; simp
    · simpa [h, Ne.symm h] using hx
  case true =>
    by_cases h : j = i
    · subst h; simpa using hx
    · simp [h, Ne.symm h]

/-- A word is zero exactly where none of its bits is set. -/
theorem ne_zero_iff_bit {w : Nat} (x : BitVec w) : x ≠ 0 ↔ ∃ i < w, bit x i = true := by
  refine ⟨fun h => Classical.byContradiction fun hn => ?_, fun ⟨i, _, hb⟩ hx => by simp [hx, bit] at hb⟩
  refine h (BitVec.eq_of_getLsbD_eq fun i hi => ?_)
  simpa [bit] using fun hb => hn ⟨i, hi, hb⟩

/-! ## Events, the ledger and the cores: what an operation changes -/

theorem postMgmt_frame (code : Nat) (body : Bytes) (s : State) :
    ∃ q, postMgmt code body s = { s with mgmt := { s.mgmt with queue := q } } := by
  simp only [postMgmt, postTo, setQueue]
  split <;> exact ⟨_, rfl⟩

theorem saturate_frame (b : Nat) (s : State) :
    ∃ g q, saturate b s = { s with ledger := g, mgmt := { s.mgmt with queue := q } } := by
  simp only [saturate]
  split
  · exact ⟨_, _, rfl⟩
  · obtain ⟨q, e⟩ := postMgmt_frame 0x0073 [BitVec.ofNat 8 b] { s with ledger := { s.ledger with
      saturated := setBit s.ledger.saturated b true, satPosted := setBit s.ledger.satPosted b true } }
    exact ⟨_, q, e⟩

theorem ledgerAdd_frame (n k : Nat) (s : State) :
    ∃ g q, ledgerAdd n k s = { s with ledger := g, mgmt := { s.mgmt with queue := q } } := by
  simp only [ledgerAdd]
  split
  · obtain ⟨g, q, e⟩ := saturate_frame n { s with ledger := { s.ledger with
      counters := tset s.ledger.counters n (satAdd (ledgerWidth n) (tget 0 s.ledger.counters n) k).1 } }
    exact ⟨g, q, e⟩
  · exact ⟨_, _, rfl⟩

@[simp] theorem ledgerAdd_pkg (n k : Nat) (s : State) : (ledgerAdd n k s).pkg = s.pkg := by
  obtain ⟨g, q, e⟩ := ledgerAdd_frame n k s
  rw [e]

theorem foldl_setCore_frame (f : Nat → Core → Core) (l : List Nat) :
    ∀ s : State, ∃ cs, l.foldl (fun s c => setCore s c (f c (coreOf s c))) s = { s with cores := cs } := by
  induction l with
  | nil => exact fun s => ⟨_, rfl⟩
  | cons c l ih =>
    intro s
    obtain ⟨cs, e⟩ := ih (setCore s c (f c (coreOf s c)))
    exact ⟨cs, e⟩

@[simp] theorem eachCore_pkg (f : Nat → Core → Core) (s : State) : (eachCore f s).pkg = s.pkg := by
  obtain ⟨cs, e⟩ := foldl_setCore_frame f (List.range 32) s
  rw [eachCore, e]

/-! ## ALERT_CAUSE (R41, R42) -/

/-- A cause sets its own bit and clears none; only the event of a rising bit goes out beside it. -/
theorem alertSet_spec (i : Nat) (s : State) (hi : i < 16) :
    ∃ v q, alertSet i s = { s with pkg := { s.pkg with alertCause := v }, mgmt := { s.mgmt with queue := q } } ∧
      ∀ j, bit v j = (bit s.pkg.alertCause j || j == i) := by
  simp only [alertSet]
  split
  · next h => exact ⟨_, _, rfl, fun j => by by_cases hj : j = i <;> simp [hj, h]⟩
  · obtain ⟨q, e⟩ := postMgmt_frame 0x0070 (bytesBE 2 (setBit s.pkg.alertCause i true).toNat)
      { s with pkg := { s.pkg with alertCause := setBit s.pkg.alertCause i true } }
    exact ⟨_, q, e, fun j => by rw [bit_setBit]; by_cases hj : j = i <;> simp [hj, hi]⟩

theorem bit_alertSet (i j : Nat) (s : State) (hi : i < 16) :
    bit (alertSet i s).pkg.alertCause j = (bit s.pkg.alertCause j || j == i) := by
  obtain ⟨v, q, e, hv⟩ := alertSet_spec i s hi
  rw [e]
  exact hv j

/-- The bits of ALERT_CAUSE after a W1C write. -/
theorem bit_alertClear (mask fresh : W16) (s : State) (i : Nat) (hi : i < 16) :
    bit (alertClear mask fresh s).pkg.alertCause i = (bit s.pkg.alertCause i && (!bit mask i || bit fresh i)) := by
  simp [alertClear, bit, hi, Bool.and_or_distrib_left]

/-! ## Sending on a session (R303, R311) -/

/-- What sending at most k datagrams on session n changes, far from the end of its sequence numbers: the session table and
what has left the device; SEQ advances by at most k. -/
def SentAtMost (n k : Nat) (s t : State) : Prop :=
  (∃ q o, t = { s with sess := q, out := o }) ∧ (sessOf t n).txSeq ≤ (sessOf s n).txSeq + k

theorem SentAtMost.trans {n j k : Nat} {s t u : State} (h : SentAtMost n j s t) (h' : SentAtMost n k t u) :
    SentAtMost n (j + k) s u := by
  obtain ⟨⟨q, o, rfl⟩, hj⟩ := h
  obtain ⟨⟨q', o', rfl⟩, hk⟩ := h'
  exact ⟨⟨q', o', rfl⟩, by omega⟩

theorem sendDgram_sentAtMost (n : Nat) (d : Dgram) (s : State) (h : (sessOf s n).txSeq + 1 < 2 ^ 48 - 1) :
    SentAtMost n 1 s (sendDgram n d s) := by
  simp only [sendDgram]
  split
  · exact ⟨⟨_, _, rfl⟩, Nat.le_succ _⟩
  · split
    · exact ⟨⟨_, _, rfl⟩, by simp⟩
    · rw [if_neg (Nat.not_le.2 h)]
      exact ⟨⟨_, _, rfl⟩, Nat.le_of_eq (congrArg Session.txSeq (sessOf_setSess_self s n _))⟩

theorem foldl_sendDgram_sentAtMost (n : Nat) (l : List Dgram) : ∀ s : State, (sessOf s n).txSeq + l.length < 2 ^ 48 - 1 →
    SentAtMost n l.length s (l.foldl (fun s d => sendDgram n d s) s) := by
  induction l with
  | nil => exact fun s _ => ⟨⟨_, _, rfl⟩, Nat.le_refl _⟩
  | cons d l ih =>
    intro s h
    rw [List.length_cons] at h ⊢
    have hd := sendDgram_sentAtMost n d s (by omega)
    have hb := hd.2
    rw [Nat.add_comm]
    exact hd.trans (ih _ (by omega))

theorem length_fragments_le (m f : Nat) : ∀ b : Bytes, (fragments m f b).length ≤ f + 1 := by
  induction f with
  | zero => exact fun b => Nat.le_refl _
  | succ f ih =>
    intro b
    rw [fragments]
    split
    · simp
    · simpa using ih (b.drop m)

/-- A message of b bytes is at most b + 1 datagrams. -/
theorem length_datagramsOf_le (s : State) (n : Nat) (w : TxWhat) (e : Emit) (kind : Nat) (b : Bytes)
    (h : messageOf e = some (kind, b)) : (datagramsOf s n w e).length ≤ b.length + 1 := by
  simp only [datagramsOf, h, List.length_mapIdx]
  split
  · simp
  · exact length_fragments_le _ _ b

theorem sendDatagram_sentAtMost (n : Nat) (w : TxWhat) (e : Emit) (s : State)
    (h : (sessOf s n).txSeq + (datagramsOf s n w e).length < 2 ^ 48 - 2 ^ 20) :
    SentAtMost n (datagramsOf s n w e).length s (sendDatagram n w e s) := by
  have hs := foldl_sendDgram_sentAtMost n (datagramsOf s n w e) s (by omega)
  have hw : ¬ 2 ^ 48 - 2 ^ 20 ≤ (sessOf (sendOn n w e s) n).txSeq := Nat.not_le.2 (Nat.lt_of_le_of_lt hs.2 h)
  rwa [sendDatagram, warnSeq, if_neg fun hc => hw hc.2]

@[simp] theorem length_bytesLE (k : Nat) : ∀ n, (bytesLE k n).length = k := by
  induction k with
  | zero => exact fun _ => rfl
  | succ k ih => exact fun n => by simp [bytesLE, ih]

@[simp] theorem length_bytesBE (k n : Nat) : (bytesBE k n).length = k := by simp [bytesBE]

@[simp] theorem length_messageHeader (op tag status ctx gen part len earliest : Nat) :
    (messageHeader op tag status ctx gen part len earliest).length = 32 := by simp [messageHeader]

/-- A response far from the end of the session's sequence numbers changes the session table and what has left the device only. -/
theorem respondAt_frame (r : Req) (op : Nat) (st : Status) (earliest : Nat) (body : Bytes) (s : State)
    (h : (sessOf s r.sess).txSeq + (body.length + 33) < 2 ^ 48 - 2 ^ 20) :
    ∃ q o, respondAt r op st earliest body s = { s with sess := q, out := o } := by
  have hl := length_datagramsOf_le s r.sess .plain
    (.response r.port r.sess (BitVec.ofNat 16 (op + 0x8000)) r.tag st r.ctx r.gen r.part earliest body) _ _ rfl
  rw [List.length_append, length_messageHeader] at hl
  exact (sendDatagram_sentAtMost r.sess .plain _ s (by omega)).1

/-! ## Device reset (R32, R57) -/

/-- With RESET_N low no boot ROM starts. -/
theorem tryBoot_of_resetN_low (s : State) (h : s.pkg.resetN = false) : tryBoot s = s := by simp [tryBoot, h]

/-- RESET_N held low destroys what R57 lists, and leaves the device stopped. -/
theorem exec_resetNAssert_of_on (s : State) (ns : Nat) (hon : s.pkg.supply = .on) (hns : 2000 ≤ ns) :
    exec (.resetNAssert ns) s = .next (wipe (setPkg s { s.pkg with resetN := false })) := by
  have ht : inTrip s = false := by simp [inTrip, hon]
  have hn : ¬ (decide (ns < 2000) || inTrip s) = true := by simp [ht, hns]
  show execResetNAssert ns s = _
  simp only [execResetNAssert, if_neg hn, deviceReset, setPkg_pkg, hon, beq_self_eq_true, if_true]
  rw [tryBoot_of_resetN_low _ rfl]

theorem exec_resetNAssert_of_short (s : State) (ns : Nat) (hns : ns < 2000) : exec (.resetNAssert ns) s = .next s := by
  show execResetNAssert ns s = _
  rw [execResetNAssert, if_pos (by simp [hns])]

@[simp] theorem wipe_lifecycle (s : State) :
    (wipe s).fuses.lifecycle = if s.fuses.lifecycle = .prodDebug then .prod else s.fuses.lifecycle := by
  simp [wipe]

/-- Settles O2: a reset leaves the wiped state (R57), whose tables are empty and read as their reset values; a short pulse leaves
the state as it is. -/
theorem deviceResetDestroysAndKeeps : Obligations.DeviceResetDestroysAndKeeps := by
  refine ⟨fun s ns hon hns => ⟨_, exec_resetNAssert_of_on s ns hon hns, ?_⟩, exec_resetNAssert_of_short⟩
  exact ⟨rfl, fun _ => ⟨rfl, rfl⟩, rfl, rfl, rfl, fun _ => ⟨rfl, rfl⟩, fun _ => rfl, fun _ => rfl, fun _ => rfl, rfl, rfl,
    rfl, rfl, hon, rfl, rfl, rfl, rfl, wipe_lifecycle _, rfl, rfl, rfl⟩

/-! ## The board's port (R41, R42) -/

theorem exec_alertCauseWrite_of_on (mask fresh : W16) (s : State) (h : i2cOn s = true) :
    exec (.alertCauseWrite mask fresh) s = .next (alertClear mask fresh s) := by
  show execAlertCauseWrite mask fresh s = _
  rw [execAlertCauseWrite, if_pos h]

theorem supply_of_i2cOn {s : State} (h : i2cOn s = true) : s.pkg.supply = .on := by
  simp only [i2cOn, Bool.and_eq_true, beq_iff_eq] at h
  exact h.1

/-- A cause that is set under a condition. -/
theorem bit_alertSet_if (c : Prop) [Decidable c] (i j : Nat) (s : State) (hi : i < 16) :
    bit (if c then alertSet i s else s).pkg.alertCause j = (bit s.pkg.alertCause j || decide c && j == i) := by
  split
  · next h => simp [bit_alertSet i j s hi, h]
  · next h => simp [h]

/-- The bits that a sample finds its causes for. -/
theorem bit_alertAgain (s : State) (j : Nat) :
    bit (alertAgain s).pkg.alertCause j = (bit s.pkg.alertCause j || decide (s.pkg.vinMv < 11400) && j == 2 ||
      decide (s.pkg.vinMv > 12600) && j == 3 || s.pkg.clkLost != 0 && j == 6 || decide (s.pkg.regFaults > 0) && j == 7 ||
      (s.pkg.curBound && s.pkg.curLimiting) && j == 1) := by
  simp only [alertAgain, bit_alertSet_if, Nat.reduceLT, Bool.decide_eq_true]

/-- A power sample that ends in no trip and no power failure comes, at the new VIN and the old causes, to the causes that it
still finds, and to the ledger behind them. -/
theorem execPowerSample_within (mv ma : Nat) (s : State) (hon : s.pkg.supply = .on) (hmv : mv ≤ 13200) (hma : ma ≤ 345000)
    (huv : 10800 ≤ mv ∨ s.pkg.underVolt < 49) :
    ∃ u, execPowerSample mv ma s = .next (ledgerSample (mv * ma) (alertAgain u)) ∧ u.pkg.vinMv = mv ∧
      u.pkg.alertCause = s.pkg.alertCause := by
  have huv' : ¬ (if mv < 10800 then s.pkg.underVolt + 1 else 0) ≥ 50 := by split <;> omega
  simp only [execPowerSample]
  rw [if_neg (by omega), if_neg (by simp [hon]), if_neg (by simp [Nat.not_lt.2 hmv, Nat.not_lt.2 hma]), if_neg huv', if_neg (by simp [hon])]
  exact ⟨_, rfl, by simp [intoWins], by simp [intoWins]⟩

@[simp] theorem ledgerSample_alertCause (p : Nat) (s : State) : (ledgerSample p s).pkg.alertCause = s.pkg.alertCause := by
  simp [ledgerSample]

/-- A limit's alert is counted where its bit was clear, and its bit is 1 in any case. -/
theorem bit_alertSet_counted (i n : Nat) (s : State) (hi : i < 16) :
    bit (if bit s.pkg.alertCause i then s else alertSet i (ledgerAdd n 1 s)).pkg.alertCause i = true := by
  split
  · assumption
  · simp [bit_alertSet i i _ hi]

/-- A die's sample from its warning limit up and below its trip temperature sets DIE_HOT (R38). -/
theorem execTempSample_die_alert (i : BitVec 7) (x : Int) (s : State) (hon : s.pkg.supply = .on) (hi : i.toNat < 60)
    (hx : x < 120 * 16) (hw : (if i.toNat < 48 then 100 * 16 else 105 * 16) ≤ x) :
    ∃ t, execTempSample i x s = .next t ∧ bit t.pkg.alertCause 4 = true := by
  have htrip : ¬ tripTemp i.toNat ≤ x := by simp only [tripTemp, hi, if_true]; omega
  unfold execTempSample
  extract_lets +onlyGivenNames j p hot s₁ s₂ old s₃ warn u
  have hs : s₃.pkg.supply = .on := hon
  have hu : bit u.pkg.alertCause 4 = true := by
    simp only [u, warn, j, ge_iff_le, hw, if_true]
    exact bit_alertSet_counted 4 6 s₃ (by decide)
  have hr : ¬ (decide (j ≥ 72) || s.pkg.supply == .off || s.pkg.supply == .tripped && !inTrip s) = true := by
    have hj : ¬ j ≥ 72 := by omega
    simp [hon, hj]
  clear_value u s₃
  rw [if_neg hr, if_neg (by simp [hot, j, htrip]), if_neg (by simp [hs]), if_pos hi]
  dsimp only
  split
  · split
    · exact ⟨_, rfl, by rw [eachCore_pkg]; exact hu⟩
    · split
      · exact ⟨_, rfl, hu⟩
      · exact ⟨_, rfl, hu⟩
  · exact ⟨_, rfl, hu⟩

/-- A stack's sample from its alert limit up and below its trip temperature sets HBM_HOT (R38). -/
theorem execTempSample_stack_alert (i : BitVec 7) (x : Int) (s : State) (hon : s.pkg.supply = .on) (hi : 60 ≤ i.toNat)
    (hi' : i.toNat < 72) (hx : x < 105 * 16) (hw : 95 * 16 ≤ x) :
    ∃ t, execTempSample i x s = .next t ∧ bit t.pkg.alertCause 5 = true := by
  have htrip : ¬ tripTemp i.toNat ≤ x := by simp only [tripTemp, Nat.not_lt.2 hi, if_false]; omega
  simp only [execTempSample]
  rw [if_neg (by simp [hon, hi']), if_neg (by simp [htrip]), if_neg (by simp [intoWins, hon]), if_neg (Nat.not_lt.2 hi), if_pos hw]
  exact ⟨_, rfl, bit_alertSet_counted 5 7 _ (by decide)⟩

/-- CUR_LIMIT_ALERT while the limit binds sets CUR_LIMIT (R36). -/
theorem execCurLimitAlert_alert (s : State) (hon : s.pkg.supply = .on) (hc : s.pkg.curLimiting = true) :
    ∃ t, execCurLimitAlert s = .next t ∧ bit t.pkg.alertCause 1 = true := by
  simp only [execCurLimitAlert, hon, hc, beq_self_eq_true, Bool.and_self, if_true]
  exact ⟨_, rfl, by simp [bit_alertSet]⟩

/-! ## STATUS (R41) -/

theorem bit_ofNat {w i : Nat} (n : Nat) (hi : i < w) : bit (BitVec.ofNat w n) i = n.testBit i := by
  rw [bit, BitVec.getLsbD_ofNat, decide_eq_true hi, Bool.true_and]

/-- The fields of a word of the layout of STATUS do not meet: each reads as it was added. -/
theorem statusFields_div (a b c d e n : Nat) (ha : a ≤ 1) (hb : b ≤ 1) (hc : c ≤ 1) (hd : d ≤ 1) (he : e ≤ 1) (hn : n < 16) :
    ∀ i < 16, (a * 0x8000 + b * 0x4000 + c * 0x2000 + d * 0x1000 + e * 0x0800 + n * 128) / 2 ^ i % 2 =
      [0, 0, 0, 0, 0, 0, 0, n / 2 ^ 0 % 2, n / 2 ^ 1 % 2, n / 2 ^ 2 % 2, n / 2 ^ 3 % 2, e, d, c, b, a].getD i 0 := by
  simp only [Nat.forall_lt_succ_right, Nat.not_lt_zero, false_implies, implies_true, true_and, List.getD_cons_zero,
    List.getD_cons_succ]
  and_intros <;> omega

/-- The bits of a word of the layout of STATUS, lowest first. -/
def statusBits (a b c d e : Bool) (r : BitVec 4) : List Bool :=
  [false, false, false, false, false, false, false, bit r 0, bit r 1, bit r 2, bit r 3, e, d, c, b, a]

theorem testBit_statusFields (a b c d e : Bool) (r : BitVec 4) : ∀ i < 16,
    ((if a then 0x8000 else 0) + (if b then 0x4000 else 0) + (if c then 0x2000 else 0) + (if d then 0x1000 else 0) +
      (if e then 0x0800 else 0) + r.toNat * 128).testBit i = (statusBits a b c d e r).getD i false := by
  have hk : ∀ (x : Bool) (k : Nat), (if x = true then k else 0) = x.toNat * k := fun x k => by cases x <;> simp
  have ht : ∀ x : Bool, decide (x.toNat = 1) = x := by decide
  have hr : ∀ k, bit r k = decide (r.toNat / 2 ^ k % 2 = 1) := fun k => by
    rw [bit, ← BitVec.testBit_toNat, Nat.testBit_eq_decide_div_mod_eq]
  intro i hi
  have hd := statusFields_div a.toNat b.toNat c.toNat d.toNat e.toNat r.toNat (Bool.toNat_le a) (Bool.toNat_le b)
    (Bool.toNat_le c) (Bool.toNat_le d) (Bool.toNat_le e) r.isLt i hi
  simp only [hk, Nat.testBit_eq_decide_div_mod_eq, hd, statusBits, hr]
  clear hd
  revert i
  simp only [Nat.forall_lt_succ_right, Nat.not_lt_zero, false_implies, implies_true, List.getD_cons_zero,
    List.getD_cons_succ, ht, Nat.zero_ne_one, decide_false, and_self]

theorem bit_statusReg (s : State) (i : Nat) (hi : i < 16) :
    bit (statusReg s) i = (statusBits (isReady s) s.pkg.pwrLimiting s.pkg.curLimiting (s.pkg.throttled != 0)
      (s.pkg.hotStacks != 0) s.pkg.refclk).getD i false := by
  rw [statusReg, bit_ofNat _ hi, testBit_statusFields _ _ _ _ _ _ _ hi]

/-! ## ALERT_CLEAR (R42, R403) -/

theorem mgmtReq_of_mgmt (r : Req) (op : Nat) (act : State → State) (s : State) (hp : r.port = .mgmt) :
    mgmtReq r op act s = .next (act s) := by
  rw [mgmtReq, if_pos (by simp [hp])]

/-- Receiving a request in its turn leaves its session's SEQ as it is. -/
theorem taken_frame (s : State) (r : Req) (h : InTurn s r) :
    ∃ q o, taken s r = { s with sess := q, out := o } ∧ (sessOf (taken s r) r.sess).txSeq = (sessOf s r.sess).txSeq := by
  obtain ⟨a, l, k, o, e⟩ := taken_spec s r h
  exact ⟨_, _, e, by rw [e, sessOf, tget_tset_self]⟩

/-- ALERT_CLEAR clears as the write through the I2C port does, and answers. -/
theorem exec_alertClear_served (s : State) (r : Req) (body : Bytes) (h : Served s r .o) (hp : r.port = .mgmt)
    (hl : HasLength r body 2) :
    ∃ q o, exec (.alertClear r body) s =
      .next { alertClear (BitVec.ofNat 16 (be body 0 2)) r.recurs s with sess := q, out := o } := by
  have hlen : lenIs r body 2 = true := by simp [lenIs, hl.1, hl.2]
  have hseq : (sessOf s r.sess).txSeq < 2 ^ 47 := by
    obtain ⟨⟨_, _, _, _, _, _, _, _, _, _, _, _, _, hseq⟩, _⟩ := h
    exact hseq
  obtain ⟨q, o, ht, hq⟩ := taken_frame s r h.1.1
  obtain ⟨q', o', hr⟩ := respondAt_frame r 0x0305 .ok 0
    (bytesBE 2 (alertClear (BitVec.ofNat 16 (be body 0 2)) r.recurs (taken s r)).pkg.alertCause.toNat)
    (alertClear (BitVec.ofNat 16 (be body 0 2)) r.recurs (taken s r))
    (by rw [length_bytesBE]; change (sessOf (taken s r) r.sess).txSeq + _ < _; rw [hq]; omega)
  refine ⟨q', o', ?_⟩
  show execAlertClear r body s = _
  rw [execAlertClear, arrives_admitted _ r .o s _ h.1, mgmtReq_of_mgmt _ _ _ _ hp,
    request_served s r 0x0305 .o _ [] _ h hlen (fun _ hc => absurd hc List.not_mem_nil)]
  simp only [respond, hr]
  rw [ht]
  rfl

/-- A write to a register other than ALERT_CAUSE is refused (R41). -/
theorem exec_i2cWriteOther_of_on (off : Byte) (v : W16) (s : State) (h : i2cOn s = true) (ho : off ≠ 0x04) :
    exec (.i2cWriteOther off v) s = .next (emit s .i2cNack) := by
  show execI2cWriteOther off v s = _
  rw [execI2cWriteOther, if_pos (by rw [h, bne_iff_ne.2 ho]; rfl)]

theorem i2cReg_beyond (s : State) (off : Nat) (h : 0x12 < off) : i2cReg s off = none := by
  simp only [i2cReg]
  split
  case h_11 => rfl
  all_goals omega

/-- ALERT_N is low exactly while a cause is set, where no trip has latched it. -/
theorem alertLow_iff (s : State) (hv : s.pkg.supply ≠ .off) (hl : s.pkg.alertLatch = false) :
    alertLow s = true ↔ ∃ i < 16, bit s.pkg.alertCause i = true := by
  rw [← ne_zero_iff_bit]
  simp [alertLow, hv, hl]

/-- Settles O10: both write paths come to `alertClear`, and a sample that finds a cause ends with its bit set. -/
theorem boardPort : Obligations.BoardPort := by
  refine ⟨⟨?i2cClear, ?mgmtClear, ?unpowered, alertLow_iff, ?vinAgain, ?tempAgain, ?currentAgain⟩, fun s off v h ho => exec_i2cWriteOther_of_on off v s h ho,
    fun s => ⟨rfl, rfl, rfl, rfl, rfl⟩, i2cReg_beyond, ?status⟩
  case i2cClear =>
    intro s mask fresh i hon hi
    exact ⟨_, exec_alertCauseWrite_of_on mask fresh s hon, rfl, bit_alertClear mask fresh s i hi⟩
  case mgmtClear =>
    intro s r body i h hp hl hi
    obtain ⟨q, o, e⟩ := exec_alertClear_served s r body h hp hl
    have hb := bit_alertClear (BitVec.ofNat 16 (be body 0 2)) r.recurs s i hi
    rw [bit_ofNat _ hi] at hb
    exact ⟨_, e, hb, rfl, rfl, rfl⟩
  case unpowered => exact fun s h => by simp [alertLow, h]
  case vinAgain =>
    intro s mask fresh mv ma hon hmv hma huv
    obtain ⟨u, e, hvin, -⟩ := execPowerSample_within mv ma (alertClear mask fresh s) (supply_of_i2cOn hon) (by omega) hma huv
    refine ⟨_, _, exec_alertCauseWrite_of_on mask fresh s hon, e, ?_⟩
    rw [ledgerSample_alertCause, bit_alertAgain, hvin]
    rcases hmv with h | ⟨h, -⟩
    · simp [h]
    · simp [h, show ¬ mv < 11400 by omega]
  case tempAgain =>
    intro s mask fresh i x hon h
    have hs := supply_of_i2cOn hon
    have key : ∃ t, execTempSample i x (alertClear mask fresh s) = .next t ∧
        bit t.pkg.alertCause (if i.toNat < 60 then 4 else 5) = true := by
      rcases Nat.lt_or_ge i.toNat 60 with hi | hi
      · rw [if_pos hi]
        exact execTempSample_die_alert i x _ hs hi (by omega) (by split <;> omega)
      · rw [if_neg (Nat.not_lt.2 hi)]
        exact execTempSample_stack_alert i x _ hs hi (by omega) (by omega) (by omega)
    obtain ⟨t, e, hb⟩ := key
    exact ⟨_, t, exec_alertCauseWrite_of_on mask fresh s hon, e, hb⟩
  case currentAgain =>
    intro s mask fresh hon hc
    obtain ⟨t, e, hb⟩ := execCurLimitAlert_alert (alertClear mask fresh s) (supply_of_i2cOn hon) hc
    exact ⟨_, t, exec_alertCauseWrite_of_on mask fresh s hon, e, hb⟩
  case status =>
    intro s
    refine ⟨bit_statusReg s 15 (by decide), bit_statusReg s 14 (by decide), bit_statusReg s 13 (by decide),
      bit_statusReg s 12 (by decide), bit_statusReg s 11 (by decide), ?clocks, ?reserved⟩
    case clocks =>
      exact fun
        | 0, _ => bit_statusReg s 7 (by decide)
        | 1, _ => bit_statusReg s 8 (by decide)
        | 2, _ => bit_statusReg s 9 (by decide)
        | 3, _ => bit_statusReg s 10 (by decide)
    case reserved =>
      intro i hi
      rw [bit_statusReg s i (by omega)]
      match i, hi with
      | 0, _ | 1, _ | 2, _ | 3, _ | 4, _ | 5, _ | 6, _ => rfl

end Sys2Proof.Machine
end

section
/-! PROOF. The start of the boot ROM (chapter 2): the image source by BOOTSEL, the checks of a flash slot, and MR0 on the way. -/

namespace Sys2Proof.Machine

/-! ## Measurement: an extend changes the registers alone (R60) -/

/-- The measurement registers after an extend. -/
def mrsExtended (n : Nat) (ty : W32) (data : Bytes) (m : Measure) : Measure :=
  if tget 0 m.count n = 0xFFFFFFFF then m else
  { mr := tset m.mr n (mrNext (tget 0 m.mr n) ty.toNat data), count := tset m.count n (tget 0 m.count n + 1),
    log := m.log ++ [⟨n, ty, data⟩] }

theorem mrExtend_eq (n : Nat) (ty : W32) (data : Bytes) (s : State) :
    mrExtend n ty data s = { s with mrs := mrsExtended n ty data s.mrs } := by
  simp only [mrExtend, mrsExtended]
  split <;> rfl

/-- The register n of m holds x after k extends, and k is below the count limit. -/
def MrHolds (m : Measure) (n : Nat) (x : Digest) (k : Nat) : Prop :=
  tget 0 m.mr n = x ∧ tget 0 m.count n = k ∧ k < 0xFFFFFFFF

theorem MrHolds.extend {m : Measure} {n : Nat} {x : Digest} {k : Nat} (h : MrHolds m n x k) (ty : W32) (data : Bytes)
    (hk : k + 1 < 0xFFFFFFFF) : MrHolds (mrsExtended n ty data m) n (mrNext x ty.toNat data) (k + 1) := by
  obtain ⟨rfl, rfl, hlt⟩ := h
  rw [mrsExtended, if_neg (Nat.ne_of_lt hlt)]
  exact ⟨tget_tset_self _ _ _ _, tget_tset_self _ _ _ _, hk⟩

/-! ## The checks of a flash slot (R54) -/

/-- The two states agree in all that the check of a flash slot reads. -/
structure SameSlots (s t : State) : Prop where
  flash  : t.nvm.flash = s.nvm.flash
  fuses  : t.fuses = s.fuses
  coRule : t.boot.coRule = s.boot.coRule
  coKey  : t.boot.coKey = s.boot.coKey

theorem srcRead_of_sameSlots {s t : State} (h : SameSlots s t) {a : Nat} (ha : a < 2) (off len : Nat) :
    srcRead t a off len = srcRead s a off len := by
  have ha' : a ≠ 2 := Nat.ne_of_lt ha
  simp only [srcRead, srcByte, if_neg ha', h.flash]

theorem manifestOf_of_sameSlots {s t : State} (h : SameSlots s t) {a : Nat} (ha : a < 2) : manifestOf t a = manifestOf s a :=
  srcRead_of_sameSlots h ha 0x200 1576

theorem slotCheck_of_sameSlots {s t : State} (h : SameSlots s t) {a : Nat} (ha : a < 2) (e : Bool) :
    slotCheck t a e = slotCheck s a e := by
  simp only [slotCheck, manifestOf_of_sameSlots h ha, srcRead_of_sameSlots h ha, h.fuses, h.coRule, h.coKey]

theorem slotCheck_unreadable (s : State) (a : Nat) : slotCheck s a true = 0x07 := rfl

theorem slotCheck_malformed (s : State) (a : Nat) (h : mfWellFormed (manifestOf s a) = false) : slotCheck s a false = 0x01 := by
  simp [slotCheck, h]

theorem slotCheck_revoked (s : State) (a : Nat) (hw : mfWellFormed (manifestOf s a) = true)
    (hr : bit s.fuses.revoked (mfKeyIndex (manifestOf s a)) = true) : slotCheck s a false = 0x02 := by
  simp [slotCheck, hw, hr]

/-- A slot whose security version rolls back fails at the sixth check or before it. -/
theorem slotCheck_rollback (s : State) (a : Nat) (h : mfSvn (manifestOf s a) < s.fuses.svn) :
    slotCheck s a false ≠ 0 ∧ slotCheck s a false ≤ 0x05 := by
  simp only [slotCheck, if_pos h, Bool.false_eq_true, if_false]
  repeat' split
  all_goals decide

/-- A rollback is found by the security version's check where the vendor's key and signature pass and no co-signing is asked for. -/
theorem slotCheck_rollback_order (s : State) (a : Nat) (hw : mfWellFormed (manifestOf s a) = true)
    (hr : bit s.fuses.revoked (mfKeyIndex (manifestOf s a)) = false) (hrule : s.boot.coRule = false)
    (hco : mfCosign (manifestOf s a) = false) (hsvn : mfSvn (manifestOf s a) < s.fuses.svn) :
    slotCheck s a false =
      if Config.sha512 (srcRead s a 0 133) ≠ tget 0 s.fuses.vendorKeys (mfKeyIndex (manifestOf s a)) then 0x02
      else if Config.ecdsaVerify (srcRead s a 0 133) (slice (manifestOf s a) 0 0x520) (slice (manifestOf s a) 0x520 132) = true
        then 0x05 else 0x03 := by
  simp only [slotCheck, hw, hr, hrule, hco, if_pos hsvn, Bool.not_true, Bool.false_eq_true, if_false, Bool.or_false,
    Bool.false_and, bne_iff_ne]
  split
  · rfl
  · cases Config.ecdsaVerify (srcRead s a 0 133) (slice (manifestOf s a) 0 0x520) (slice (manifestOf s a) 0x520 132) <;> rfl

/-! ## A well-formed manifest (R53) -/

theorem mem_comps (m : Bytes) (h : mfCount m ≤ 16) (i : Nat) : i ∈ comps m ↔ i < mfCount m := by
  rw [comps, natMin, if_pos h, List.mem_range]

/-- What the check of the manifest says of the header, of each component, of each two and of one among all. -/
theorem mfWellFormed_spec (m : Bytes) (h : mfWellFormed m = true) :
    mfNum m 0 4 = 0x4B5A464D ∧ mfNum m 4 2 = 1 ∧ 1 ≤ mfCount m ∧ mfCount m ≤ 16 ∧ mfSvn m ≤ 64 ∧ mfLength m ≤ 0x04000000 ∧
    (∀ i ∈ comps m, 1 ≤ compType m i ∧ compType m i ≤ 5 ∧ 0x1000 ≤ compOff m i ∧ compOff m i + compLen m i ≤ mfLength m) ∧
    (∀ i ∈ comps m, ∀ j ∈ comps m, i = j ∨ compType m i ≠ compType m j ∧
      (compOff m i + compLen m i ≤ compOff m j ∨ compOff m j + compLen m j ≤ compOff m i)) ∧
    (∃ i ∈ comps m, compType m i = 1) := by
  simp only [mfWellFormed, Bool.and_eq_true, Bool.or_eq_true, decide_eq_true_eq, beq_iff_eq, bne_iff_ne, List.all_eq_true,
    List.any_eq_true] at h
  obtain ⟨⟨⟨⟨⟨⟨⟨⟨⟨⟨⟨⟨⟨hmagic, hformat⟩, hone⟩, hmax⟩, hsvn⟩, hlen⟩, -⟩, -⟩, -⟩, heach⟩, -⟩, htwo⟩, hboot⟩, -⟩ := h
  refine ⟨hmagic, hformat, hone, hmax, hsvn, hlen, fun i hi => ?_, htwo, hboot⟩
  obtain ⟨⟨⟨⟨⟨hlo, hhi⟩, -⟩, hoff⟩, -⟩, hend⟩ := heach i hi
  exact ⟨hlo, hhi, hoff, hend⟩

/-! ## The boot ROM up to its image source (R30, R46, R51) -/

/-- The state in which PWRGOOD and the pins have been taken, before the boot ROM starts. -/
def pwrgoodTaken (p : BootPins) (s : State) : State :=
  setPins p { s with pkg := { s.pkg with pwrgood := true, refclk := 0xF, clkLost := 0 } }

theorem exec_pwrgoodAssert_boots (s : State) (p : BootPins) (hon : s.pkg.supply = .on) (hr : s.pkg.resetN = true)
    (hst : s.boot.phase = .stopped) : exec (.pwrgoodAssert p) s = .next (bootRom (pwrgoodTaken p s)) := by
  have ht : inTrip s = false := by simp [inTrip, hon]
  show execPwrgoodAssert p s = _
  simp [execPwrgoodAssert, ht, tryBoot, setPins, pwrgoodTaken, hon, hr, hst]

/-- The source that the ROM measures, by BOOTSEL (R50, R66). -/
def romSource (sel : BitVec 2) : Byte := if sel = 0 then 0 else if sel = 1 then 1 else if sel = 2 then 2 else 0xFF

/-- The boot ROM has measured itself, the fuse summary and the source (R59), and has looked at no slot yet. -/
def romBegun (src : Byte) (s : State) : State :=
  { s with
    pkg := { s.pkg with xspiResetN := true },
    boot := { bootReset with romRuns := s.boot.romRuns + 1, secondLifeWait := s.boot.secondLifeWait,
                             coRule := s.nvm.title.cosign, coKey := s.nvm.title.cosignKey },
    mrs := mrsExtended 0 3 [src] (mrsExtended 0 2 (Config.fuseSummary s.fuses) (mrsExtended 0 1 Config.romIdentity s.mrs)) }

theorem bootRom_eq (s : State) : bootRom s =
    if s.pkg.bootsel = 3 then bootHalt (romBegun (romSource s.pkg.bootsel) s)
    else if s.pkg.bootsel = 2 then
      setBoot (romBegun (romSource s.pkg.bootsel) s) { (romBegun (romSource s.pkg.bootsel) s).boot with phase := .hostBoot }
    else bootFlash s.pkg.bootsel.toNat s.pkg.xspiErrA s.pkg.xspiErrB (romBegun (romSource s.pkg.bootsel) s) := by
  simp only [bootRom, mrExtend_eq]
  rfl

theorem romSource_of_flash : ∀ sel : BitVec 2, sel.toNat < 2 → romSource sel = BitVec.ofNat 8 sel.toNat := by decide

theorem bootRom_flash (s : State) (h : s.pkg.bootsel.toNat < 2) :
    bootRom s = bootFlash s.pkg.bootsel.toNat s.pkg.xspiErrA s.pkg.xspiErrB (romBegun (BitVec.ofNat 8 s.pkg.bootsel.toNat) s) := by
  rw [bootRom_eq, if_neg (by bv_omega), if_neg (by bv_omega), romSource_of_flash _ h]

theorem bootRom_hostPort (s : State) (h : s.pkg.bootsel = 2) :
    bootRom s = setBoot (romBegun 2 s) { (romBegun 2 s).boot with phase := .hostBoot } := by
  rw [bootRom_eq, h]
  rfl

theorem bootRom_none (s : State) (h : s.pkg.bootsel = 3) : bootRom s = bootHalt (romBegun 0xFF s) := by
  rw [bootRom_eq, h]
  rfl

/-- MR0 as the ROM comes to the image source. -/
theorem romBegun_mr0 (p : BootPins) (s : State) (src : Nat) (h : tget 0 s.mrs.count 0 = 0) :
    MrHolds (romBegun (BitVec.ofNat 8 src) (pwrgoodTaken p s)).mrs 0 (romMeasured s src) 3 := by
  have h0 : MrHolds s.mrs 0 (tget 0 s.mrs.mr 0) 0 := ⟨rfl, h, by decide⟩
  exact ((h0.extend 1 Config.romIdentity (by decide)).extend 2 (Config.fuseSummary s.fuses) (by decide)).extend 3
    [BitVec.ofNat 8 src] (by decide)

/-! ## A slot that fails, and BOOT_HALT (R51, R56) -/

/-- A slot that fails extends MR0 with its number and its cause, one byte each (log entry 14: the model's choice). -/
theorem slotFailure_mrs (a c : Nat) (s : State) :
    (slotFailure a c s).mrs = mrsExtended 0 4 [BitVec.ofNat 8 a, BitVec.ofNat 8 c] s.mrs := by
  rw [slotFailure, mrExtend_eq]

theorem slotFailure_sameSlots (a c : Nat) (s : State) : SameSlots s (slotFailure a c s) := by
  rw [slotFailure, mrExtend_eq]
  constructor <;> dsimp only <;> split <;> rfl

theorem slotFailure_manifest (a c : Nat) (s : State) : (slotFailure a c s).boot.manifest = s.boot.manifest := by
  rw [slotFailure, mrExtend_eq]
  dsimp only
  split <;> rfl

/-- The key store in BOOT_HALT: it has the identity key where a secret is fused. -/
def haltKeys (s : State) : Tbl Bytes :=
  if s.fuses.secret == none then s.keys else (setKey s slotIdentity (identityKey s)).keys

theorem bootHalt_eq (s : State) :
    bootHalt s = { s with
      keys := haltKeys s, boot := { s.boot with phase := .halted, source := 0xFF }, mgmt := { s.mgmt with up := true, mode := 2 },
      host := hostReset } := by
  simp only [bootHalt, haltKeys]
  split <;> rfl

theorem bootHalt_mrs (s : State) : (bootHalt s).mrs = s.mrs := by rw [bootHalt_eq]

theorem bootHalt_boot (s : State) : (bootHalt s).boot = { s.boot with phase := .halted, source := 0xFF } := by rw [bootHalt_eq]

/-- With no image source, what the flash holds plays no part. -/
theorem bootRom_none_flash (p : BootPins) (s : State) (fl : Mem) (h : p.sel = 3) :
    bootRom (pwrgoodTaken p { s with nvm := { s.nvm with flash := fl } }) =
      { bootRom (pwrgoodTaken p s) with nvm := { (bootRom (pwrgoodTaken p s)).nvm with flash := fl } } := by
  rw [bootRom_none _ h, bootRom_none _ h, bootHalt_eq, bootHalt_eq]
  rfl

/-! ## The selected slot, then the other (R51) -/

theorem bootFrom_manifest (src : Nat) (fallback : Bool) (s : State) :
    (bootFrom src fallback s).boot.manifest = manifestOf s src := by rw [bootFrom]

/-- The read error of the slot that is not selected. -/
theorem ite_otherSlot {a : Nat} (ha : a < 2) (errA errB : Bool) :
    (if 1 - a = 0 then errA else errB) = if a = 0 then errB else errA := by
  match a, ha with
  | 0, _ | 1, _ => rfl

theorem toNat_ofNat_slot {a : Nat} (ha : a < 2) : (BitVec.ofNat 8 a).toNat = a := by
  rw [BitVec.toNat_ofNat, Nat.mod_eq_of_lt (by omega)]

section
/-! The ROM stands at `u`, before it looks at a slot; `s` holds what the slots are checked against. -/
variable {s u : State} {a : Nat} {errA errB : Bool} {x : Digest} (ha : a < 2) (hs : SameSlots s u) (hx : MrHolds u.mrs 0 x 3)
include ha hs hx

theorem bootFlash_selected (h : slotCheck s a (if a = 0 then errA else errB) = 0) :
    let t := bootFlash a errA errB u
    t.boot.phase = .checked ∧ t.boot.source.toNat = a ∧ t.boot.fallback = false ∧ tget 0 t.mrs.count 0 = 3 ∧
      tget 0 t.mrs.mr 0 = x ∧ t.boot.manifest = manifestOf s a := by
  obtain ⟨hmr, hcount, -⟩ := hx
  have e : bootFlash a errA errB u = bootFrom a false u := by
    simp only [bootFlash, slotCheck_of_sameSlots hs ha, h, if_true]
  rw [e]
  exact ⟨rfl, toNat_ofNat_slot ha, rfl, hcount, hmr, (bootFrom_manifest _ _ _).trans (manifestOf_of_sameSlots hs ha)⟩

theorem bootFlash_fallback {c : Nat} (h : slotCheck s a (if a = 0 then errA else errB) = c) (hc : c ≠ 0)
    (h' : slotCheck s (1 - a) (if a = 0 then errB else errA) = 0) :
    let t := bootFlash a errA errB u
    t.boot.phase = .checked ∧ t.boot.source.toNat = 1 - a ∧ t.boot.fallback = true ∧ tget 0 t.mrs.count 0 = 4 ∧
      tget 0 t.mrs.mr 0 = mrNext x 4 [BitVec.ofNat 8 a, BitVec.ofNat 8 c] ∧ t.boot.manifest = manifestOf s (1 - a) := by
  have hb : 1 - a < 2 := by omega
  have hs' := slotFailure_sameSlots a c u
  obtain ⟨hmr, hcount, -⟩ := hx.extend 4 [BitVec.ofNat 8 a, BitVec.ofNat 8 c] (by decide)
  rw [← slotFailure_mrs] at hmr hcount
  have e : bootFlash a errA errB u = bootFrom (1 - a) true (slotFailure a c u) := by
    simp only [bootFlash, slotCheck_of_sameSlots hs ha, h, if_neg hc, ite_otherSlot ha, slotCheck_of_sameSlots hs' hb,
      slotCheck_of_sameSlots hs hb, h', if_true]
  have hm : (bootFrom (1 - a) true (slotFailure a c u)).boot.manifest = manifestOf s (1 - a) := by
    rw [bootFrom_manifest, manifestOf_of_sameSlots hs' hb, manifestOf_of_sameSlots hs hb]
  rw [e]
  exact ⟨rfl, toNat_ofNat_slot hb, rfl, hcount, hmr, hm⟩

theorem bootFlash_halts {c c' : Nat} (h : slotCheck s a (if a = 0 then errA else errB) = c) (hc : c ≠ 0)
    (h' : slotCheck s (1 - a) (if a = 0 then errB else errA) = c') (hc' : c' ≠ 0) :
    let t := bootFlash a errA errB u
    t.boot.phase = .halted ∧ t.boot.source = 0xFF ∧ tget 0 t.mrs.count 0 = 5 ∧
      tget 0 t.mrs.mr 0 = mrNext (mrNext x 4 [BitVec.ofNat 8 a, BitVec.ofNat 8 c]) 4 [BitVec.ofNat 8 (1 - a), BitVec.ofNat 8 c'] ∧
      t.boot.manifest = u.boot.manifest := by
  have hb : 1 - a < 2 := by omega
  have hs' := slotFailure_sameSlots a c u
  obtain ⟨hmr, hcount, -⟩ := (hx.extend 4 [BitVec.ofNat 8 a, BitVec.ofNat 8 c] (by decide)).extend 4
    [BitVec.ofNat 8 (1 - a), BitVec.ofNat 8 c'] (by decide)
  rw [← slotFailure_mrs, ← slotFailure_mrs] at hmr hcount
  have e : bootFlash a errA errB u = bootHalt (slotFailure (1 - a) c' (slotFailure a c u)) := by
    simp only [bootFlash, slotCheck_of_sameSlots hs ha, h, if_neg hc, ite_otherSlot ha, slotCheck_of_sameSlots hs' hb,
      slotCheck_of_sameSlots hs hb, h', if_neg hc']
  intro t
  simp only [t, e, bootHalt_boot, bootHalt_mrs, true_and]
  exact ⟨hcount, hmr, (slotFailure_manifest _ _ _).trans (slotFailure_manifest _ _ _)⟩

end

/-- Settles O3: the ROM comes to its image source with MR0 extended three times and the slots' contents as sampled; each of the
three ends of a flash boot then extends MR0 once for each slot that failed. -/
theorem bootSlots : Obligations.BootSlots := by
  refine ⟨⟨?flash, ?noFlash⟩, slotCheck_unreadable, slotCheck_malformed, slotCheck_revoked, slotCheck_rollback,
    slotCheck_rollback_order, ?manifest⟩
  case flash =>
    intro s p hon hr hst hcount hsel
    refine ⟨_, exec_pwrgoodAssert_boots s p hon hr hst, ?_⟩
    have hslots : SameSlots (coSampled s) (romBegun (BitVec.ofNat 8 p.sel.toNat) (pwrgoodTaken p s)) := ⟨rfl, rfl, rfl, rfl⟩
    have hbegun := romBegun_mr0 p s p.sel.toNat hcount
    rw [bootRom_flash _ hsel]
    exact ⟨bootFlash_selected hsel hslots hbegun, bootFlash_fallback hsel hslots hbegun rfl,
      fun h h' => bootFlash_halts hsel hslots hbegun rfl h rfl h'⟩
  case noFlash =>
    intro s p hon hr hst hcount hsel
    refine ⟨_, exec_pwrgoodAssert_boots s p hon hr hst, ?_⟩
    obtain h | h : p.sel = 2 ∨ p.sel = 3 := by bv_omega
    · obtain ⟨hmr, hc, -⟩ := romBegun_mr0 p s 2 hcount
      rw [if_pos h, if_pos h, bootRom_hostPort _ h]
      exact ⟨rfl, hc, hmr, rfl, fun h3 => absurd (h.symm.trans h3) (by decide)⟩
    · obtain ⟨hmr, hc, -⟩ := romBegun_mr0 p s 0xFF hcount
      have h2 : ¬ p.sel = 2 := by rw [h]; decide
      have hflash := fun fl : Mem => (exec_pwrgoodAssert_boots { s with nvm := { s.nvm with flash := fl } } p hon hr hst).trans
        (congrArg Host.Outcome.next (bootRom_none_flash p s fl h))
      refine ⟨?_, ?_, ?_, ?_, fun _ => hflash⟩ <;> rw [bootRom_none _ h]
      · rw [bootHalt_boot, if_neg h2]
      · rw [bootHalt_mrs]; exact hc
      · rw [bootHalt_mrs, if_neg h2]; exact hmr
      · rw [bootHalt_boot]; rfl
  case manifest =>
    intro m h
    obtain ⟨hmagic, hformat, hone, hmax, hsvn, hlen, heach, htwo, i, hi, hboot⟩ := mfWellFormed_spec m h
    simp only [mem_comps m hmax] at heach htwo hi
    exact ⟨hmagic, hformat, hone, hmax, hsvn, hlen, heach, fun i j hi hj hij => (htwo i hi j hj).resolve_left hij, i, hi, hboot⟩

end Sys2Proof.Machine
end

section
/-! PROOF. Number formats (chapter 4): a floating-point code is steps of the last place counted from the format's smallest, and rounding
finds that count again; an integer code is what round half away from zero makes of its value. -/

namespace Sys2Proof.Machine

/-! ## Half away from zero (R114) -/

/-- A scaled value is a fraction of two naturals, of which `scaled` answers quotient, remainder and divisor. -/
theorem scaled_spec (n d : Nat) (e : Int) (hd : d ≠ 0) :
    ∃ n' d' : Nat, d' ≠ 0 ∧ scaled n d e = (n' / d', n' % d', d') ∧ (n : Rat) / d * 2 ^ e = (n' : Rat) / d' := by
  by_cases he : 0 ≤ e
  · obtain ⟨k, rfl⟩ := Int.eq_ofNat_of_zero_le he
    have hpow : (2 : Rat) ^ (k : Int) = 2 ^ k := rfl
    refine ⟨n * 2 ^ k, d, hd, by simp only [scaled, ge_iff_le, he, if_true, Int.toNat_natCast], ?_⟩
    push_cast
    grind
  · obtain ⟨k, rfl⟩ := Int.exists_eq_neg_ofNat (Int.le_of_lt (Int.not_le.mp he))
    have hpow : (2 : Rat) ^ (-(k : Int)) = (2 ^ k)⁻¹ := Rat.zpow_neg 2 k
    refine ⟨n, d * 2 ^ k, Nat.mul_ne_zero hd (Nat.ne_of_gt (Nat.two_pow_pos k)),
      by simp only [scaled, ge_iff_le, he, if_false, Int.neg_neg, Int.toNat_natCast], ?_⟩
    push_cast
    grind

theorem floor_div (n d : Nat) (hd : d ≠ 0) : ((n : Rat) / d).floor = ((n / d : Nat) : Int) := by
  have hpos : (0 : Rat) < d := Rat.natCast_pos.mpr (Nat.pos_of_ne_zero hd)
  have hlt : ∀ x : Int, ((n : Rat) / d).floor < x ↔ (n : Int) / d < x := fun x => by
    rw [Rat.floor_lt_iff, Rat.div_lt_iff hpos, Int.ediv_lt_iff_lt_mul (by omega), ← Rat.intCast_natCast, ← Rat.intCast_natCast,
      ← Rat.intCast_mul, Rat.intCast_lt_intCast]
  rw [Int.natCast_ediv]
  exact Int.le_antisymm (Int.lt_add_one_iff.mp ((hlt _).mpr (by omega))) (Int.lt_add_one_iff.mp ((hlt _).mp (by omega)))

/-- Adding a half and taking the floor counts one more exactly from half the divisor on. -/
theorem floor_add_half (n d : Nat) (hd : d ≠ 0) :
    ((n : Rat) / d + 1 / 2).floor = ((if 2 * (n % d) ≥ d then n / d + 1 else n / d : Nat) : Int) := by
  have hsum : (n : Rat) / d + 1 / 2 = ((2 * n + d : Nat) : Rat) / (2 * d : Nat) := by
    have hd' : (d : Rat) ≠ 0 := mt Rat.natCast_eq_zero_iff.mp hd
    push_cast
    grind
  have hdiv : (2 * n + d) / (2 * d) = n / d + (2 * (n % d) + d) / (2 * d) := by
    have hn : 2 * n + d = 2 * d * (n / d) + (2 * (n % d) + d) := by
      have hquot := Nat.div_add_mod n d
      rw [Nat.mul_assoc]
      omega
    rw [hn, Nat.mul_add_div (by omega)]
  have hmod := Nat.mod_lt n (Nat.pos_of_ne_zero hd)
  rw [hsum, floor_div _ _ (by omega), hdiv]
  split
  case isTrue h =>
    have hone : (2 * (n % d) + d) / (2 * d) = 1 := Nat.div_eq_of_lt_le (by omega) (by omega)
    rw [hone]
  case isFalse h =>
    have hzero : (2 * (n % d) + d) / (2 * d) = 0 := Nat.div_eq_of_lt (by omega)
    rw [hzero, Nat.add_zero]

theorem halfAway_of_nonneg {x : Rat} (hx : 0 ≤ x) : halfAway x = (x + 1 / 2).floor := by
  rw [halfAway, if_neg (Rat.not_lt.mpr hx)]

theorem halfAway_neg {x : Rat} (hx : 0 ≤ x) : halfAway (-x) = -(x + 1 / 2).floor := by
  obtain hlt | rfl := Rat.le_iff_lt_or_eq.mp hx
  · rw [halfAway, if_pos (by grind), Rat.neg_neg]
  · have hhalf : (0 : Rat) + 1 / 2 = ((1 : Nat) : Rat) / (2 : Nat) := Rat.zero_add _
    rw [Rat.neg_zero, halfAway_of_nonneg Rat.le_refl, hhalf, floor_div 1 2 (by decide)]
    rfl

/-- The model's integer rounding is the rational's. -/
theorem roundAway_fin (s : Bool) (n d : Nat) (e : Int) (hd : d ≠ 0) : roundAway (.fin s n d e) = halfAway (ratOf s n d e) := by
  obtain ⟨n', d', hd', hscaled, hval⟩ := scaled_spec n d e hd
  have hpos : (0 : Rat) < d' := Rat.natCast_pos.mpr (Nat.pos_of_ne_zero hd')
  have hnonneg : (0 : Rat) ≤ (n' : Rat) / d' := by
    rw [Rat.div_def]
    exact Rat.mul_nonneg Rat.natCast_nonneg (Rat.le_of_lt (Rat.inv_pos.mpr hpos))
  have hround : roundAway (.fin s n d e) = if s then -((n' : Rat) / d' + 1 / 2).floor else ((n' : Rat) / d' + 1 / 2).floor := by
    rw [floor_add_half n' d' hd']
    simp only [roundAway, hscaled]
  have hrat : ratOf s n d e = if s then -((n' : Rat) / d') else (n' : Rat) / d' := by
    rw [ratOf, Rat.mul_assoc, hval]
    cases s <;> grind
  rw [hround, hrat]
  cases s with
  | false => exact (halfAway_of_nonneg hnonneg).symm
  | true => exact (halfAway_neg hnonneg).symm

/-! ## Integer codes (R102, R114) -/

theorem roundAway_vint (i : Int) : roundAway (vint i) = i := by
  have h : roundAway (vint i) = if i < 0 then -(i.natAbs : Int) else i.natAbs := by simp [roundAway, vint, scaled, Nat.mod_one]
  rw [h]
  omega

theorem ofInt_signed {w x : Nat} (hx : x < 2 ^ w) : ofInt w (signed w x) = x := by
  rw [ofInt, signed, BitVec.ofInt_toInt, BitVec.toNat_ofNat, Nat.mod_eq_of_lt hx]

/-- A finite value's integer code, where the format's range is named. -/
theorem roundInt_fin {f : Nat} {lo hi : Int} (hr : intRange f = (lo, hi)) (zp : Int) (s : Bool) (n d : Nat) (e : Int) :
    roundInt f zp (.fin s n d e) =
      (let q := roundAway (.fin s n d e) + zp
       if q < lo then (ofInt (fmtBits f) lo, fSATURATE)
       else if hi < q then (ofInt (fmtBits f) hi, fSATURATE) else (ofInt (fmtBits f) q, 0)) := by
  simp only [roundInt, hr, gt_iff_lt]

/-- The range of an integer format is that of its two's complement. -/
theorem intRange_eq {f : Nat} (hf : fmtInt f = true) : intRange f = (-2 ^ (fmtBits f - 1), 2 ^ (fmtBits f - 1) - 1) := by
  simp only [fmtInt, Bool.or_eq_true, beq_iff_eq] at hf
  obtain (rfl | rfl) | rfl := hf <;> rfl

/-- An integer code less its zero point converts to itself: it stays in the range. -/
theorem roundInt_code {f x : Nat} (hf : fmtInt f = true) (zp : Int) (hx : x < 2 ^ fmtBits f) :
    roundInt f zp (vint (signed (fmtBits f) x - zp)) = (x, 0) := by
  have hlo : -2 ^ (fmtBits f - 1) ≤ signed (fmtBits f) x := BitVec.le_toInt _
  have hhi : signed (fmtBits f) x < 2 ^ (fmtBits f - 1) := BitVec.toInt_lt
  have hq : roundAway (vint (signed (fmtBits f) x - zp)) + zp = signed (fmtBits f) x := by rw [roundAway_vint]; omega
  rw [vint, roundInt_fin (intRange_eq hf), ← vint, hq]
  simp only
  rw [if_neg (Int.not_lt.mpr hlo), if_neg (by omega), ofInt_signed hx]

/-! ## Floating-point codes as counts of steps (R99, R101) -/

/-- A floating-point code is its sign bit and its magnitude. -/
theorem sign_add_magnitude {w x : Nat} (hx : x < 2 ^ (w + 1)) : (if nbit x w then 2 ^ w else 0) + x % 2 ^ w = x := by
  have hsplit : x = x % 2 ^ w + 2 ^ w * (x / 2 ^ w % 2) := by rw [← Nat.mod_pow_succ, Nat.mod_eq_of_lt hx]
  rw [nbit, Nat.testBit_eq_decide_div_mod_eq]
  obtain hbit | hbit := Nat.mod_two_eq_zero_or_one (x / 2 ^ w) <;> rw [hbit] at hsplit ⊢
  · rw [if_neg (by decide)]
    omega
  · rw [if_pos (by decide)]
    omega

/-- Magnitude code `x` of format `f` has the value of `n` steps, each `2^k` times the format's smallest step (R99): each doubling of the
step takes one binade of codes, and from the first doubling on `n` has its leading bit. -/
structure CodeSteps (f x k n : Nat) : Prop where
  code : x = k * 2 ^ fmtFrac f + n
  sig_lt : n < 2 ^ (fmtFrac f + 1)
  normal : k = 0 ∨ 2 ^ fmtFrac f ≤ n

theorem codeVal_steps (f x : Nat) : ∃ k n, CodeSteps f x k n ∧ ∀ s, codeVal f s x = .fin s n 1 (k + 1 - fmtBias f - fmtFrac f) := by
  have hx := Nat.div_add_mod x (2 ^ fmtFrac f)
  have hmod := Nat.mod_lt x (Nat.two_pow_pos (fmtFrac f))
  have htwo : 2 ^ (fmtFrac f + 1) = 2 * 2 ^ fmtFrac f := Nat.pow_succ'
  cases hef : x / 2 ^ fmtFrac f with
  | zero =>
    rw [hef] at hx
    exact ⟨0, x % 2 ^ fmtFrac f, ⟨by omega, by omega, .inl rfl⟩, fun s => by simp [codeVal, hef]⟩
  | succ k =>
    rw [hef, Nat.mul_succ, Nat.mul_comm] at hx
    refine ⟨k, 2 ^ fmtFrac f + x % 2 ^ fmtFrac f, ⟨by omega, by omega, .inr (by omega)⟩, fun s => ?_⟩
    simp [codeVal, hef]

/-- The order of two positive values with denominator 1: that of their numerators over the smaller exponent. -/
theorem vlt_fin_pos (n m : Nat) (e e' : Int) :
    vlt (.fin false n 1 e) (.fin false m 1 e') =
      (let l := if e ≤ e' then e else e'
       decide (n * 2 ^ (e - l).toNat < m * 2 ^ (e' - l).toNat)) := by
  have hl : (if e' ≤ e then e' else e) = if e ≤ e' then e else e' := by omega
  simp only [vlt, commonNum, hl, Bool.false_eq_true, if_false, decide_eq_decide]
  norm_cast
  simp only [Nat.mul_one]

/-- The larger code holds the larger value. -/
theorem vlt_codeVal_of_le {f x y : Nat} (h : x ≤ y) : vlt (codeVal f false y) (codeVal f false x) = false := by
  obtain ⟨k, n, hx, hvx⟩ := codeVal_steps f x
  obtain ⟨l, m, hy, hvy⟩ := codeVal_steps f y
  have htwo : 2 ^ (fmtFrac f + 1) = 2 * 2 ^ fmtFrac f := Nat.pow_succ'
  have hn := hx.sig_lt
  have hm := hy.sig_lt
  have hcode := hx.code ▸ hy.code ▸ h
  have hkl : k ≤ l := Nat.le_of_not_lt fun hlt => by
    have hn' := hx.normal.resolve_left (by omega)
    have : (l + 1) * 2 ^ fmtFrac f ≤ k * 2 ^ fmtFrac f := Nat.mul_le_mul_right _ (by omega)
    rw [Nat.succ_mul] at this
    omega
  obtain ⟨j, rfl⟩ := Nat.exists_eq_add_of_le hkl
  rw [hvx, hvy, vlt_fin_pos, decide_eq_false_iff_not, Nat.not_lt]
  have hl : (if ((k + j : Nat) : Int) + 1 - fmtBias f - fmtFrac f ≤ k + 1 - fmtBias f - fmtFrac f
      then ((k + j : Nat) : Int) + 1 - fmtBias f - fmtFrac f else k + 1 - fmtBias f - fmtFrac f) = k + 1 - fmtBias f - fmtFrac f := by omega
  have hj : (((k + j : Nat) : Int) + 1 - fmtBias f - fmtFrac f - (k + 1 - fmtBias f - fmtFrac f)).toNat = j := by omega
  rw [hl, hj, Int.sub_self, Int.toNat_zero, Nat.pow_zero, Nat.mul_one]
  cases j with
  | zero =>
    rw [Nat.add_zero] at hcode
    omega
  | succ j =>
    have hm' := hy.normal.resolve_left (by omega)
    calc n ≤ 2 ^ fmtFrac f * 2 := by omega
      _ ≤ m * 2 ^ (j + 1) := Nat.mul_le_mul hm' (by rw [Nat.pow_succ]; have := Nat.two_pow_pos j; omega)

/-! ## Rounding a value that the format holds (R112) -/

theorem ilog2_one (n : Nat) (hn : n ≠ 0) : ilog2 n 1 = n.log2 := by
  have hlog : Nat.log2 1 = 0 := rfl
  simp [ilog2, hlog, Nat.log2_self_le hn]

theorem scaled_one_zero (n : Nat) : scaled n 1 0 = (n, 0, 1) := by simp [scaled, Nat.mod_one]

/-- The exponent that rounding finds for a code's value: its binade's, no lower than the smallest normal's. -/
theorem CodeSteps.exponent {f x k n : Nat} (h : CodeSteps f x k n) (hn : n ≠ 0) :
    (if ilog2 n 1 + (k + 1 - fmtBias f - fmtFrac f) < 1 - (fmtBias f : Int) then 1 - (fmtBias f : Int)
      else ilog2 n 1 + (k + 1 - fmtBias f - fmtFrac f)) = k + 1 - fmtBias f := by
  have hlt : n.log2 < fmtFrac f + 1 := (Nat.log2_lt hn).mpr h.sig_lt
  rw [ilog2_one n hn]
  obtain hk | hsig := h.normal
  · omega
  · have hle : fmtFrac f ≤ n.log2 := (Nat.le_log2 hn).mpr hsig
    omega

/-- Steps counted from the format's smallest give the code again. -/
theorem CodeSteps.code_eq {f x k n : Nat} (h : CodeSteps f x k n) :
    (if n < 2 ^ fmtFrac f then n else if n ≥ 2 ^ (fmtFrac f + 1) then ((k : Int) + 1 - fmtBias f + 1 + fmtBias f).toNat * 2 ^ fmtFrac f
      else ((k : Int) + 1 - fmtBias f + fmtBias f).toNat * 2 ^ fmtFrac f + (n - 2 ^ fmtFrac f)) = x := by
  have hcode := h.code
  have hlt := h.sig_lt
  have hk : ((k : Int) + 1 - fmtBias f + fmtBias f).toNat = k + 1 := by omega
  split
  case isTrue hsub =>
    obtain rfl := h.normal.resolve_right (by omega)
    omega
  case isFalse hnormal =>
    rw [if_neg (by omega), hk, Nat.succ_mul]
    omega

theorem roundFloat_zero (f : Nat) (s : Bool) (d : Nat) (e : Int) :
    roundFloat f 0 0 (.fin s 0 d e) = (if s then 2 ^ (fmtBits f - 1) else 0, 0) := by
  simp only [roundFloat, if_true]

/-- A magnitude code rounds to itself under its sign, unless FP32 flushes it. -/
theorem roundFloat_codeVal {f x : Nat} (s : Bool) (hx : x ≤ maxCode f) (h32 : f = 0x0A → x = 0 ∨ 2 ^ 23 ≤ x) :
    roundFloat f 0 0 (codeVal f s x) = ((if s then 2 ^ (fmtBits f - 1) else 0) + x, 0) := by
  obtain ⟨k, n, hsteps, hval⟩ := codeVal_steps f x
  have hmax : vlt (codeVal f false (maxCode f)) (.fin false n 1 (k + 1 - fmtBias f - fmtFrac f)) = false :=
    hval false ▸ vlt_codeVal_of_le hx
  have hcode := hsteps.code
  rw [hval]
  by_cases hn : n = 0
  · have hk : k = 0 := hsteps.normal.resolve_right (by have := Nat.two_pow_pos (fmtFrac f); omega)
    rw [hn, roundFloat_zero, hcode, hn, hk]
    simp
  have hflush : ¬ (f = 0x0A ∧ x < 2 ^ 23) := by
    rintro ⟨hf, hlt⟩
    have : x ≠ 0 := by omega
    have := h32 hf
    omega
  have hnearest : nbit 0 1 = false := rfl
  have hup : (decide (2 * 0 > 1) || (2 * 0 == 1 && n % 2 == 1)) = false := rfl
  simp only [roundFloat, hn, if_false, hsteps.exponent hn, Int.sub_self, scaled_one_zero, hmax, hnearest, hup, Bool.false_eq_true,
    hsteps.code_eq, gt_iff_lt, Nat.not_lt.mpr hx, hflush, bne_self_eq_false, Bool.and_false, Bool.and_eq_true,
    decide_eq_true_eq]

/-! ## What a decoder answers (R100, R101) -/

/-- The layouts of R99: a sign over the exponent over the fraction, and the largest finite code below the codes of infinities and
NaNs. -/
theorem fmtFloat_layout {f : Nat} (hf : fmtFloat f = true) :
    fmtBits f = fmtExp f + fmtFrac f + 1 ∧
      (if fmtHasInf f then maxCode f + 1 = (2 ^ fmtExp f - 1) * 2 ^ fmtFrac f
       else if f = 0x04 then maxCode f + 2 = 2 ^ (fmtExp f + fmtFrac f) else maxCode f + 1 = 2 ^ (fmtExp f + fmtFrac f)) := by
  simp only [fmtFloat, Bool.or_eq_true, Bool.and_eq_true, decide_eq_true_eq, beq_iff_eq] at hf
  obtain ⟨hlo, hhi⟩ | rfl := hf
  · obtain rfl | rfl | rfl | rfl | rfl | rfl | rfl : f = 1 ∨ f = 2 ∨ f = 3 ∨ f = 4 ∨ f = 5 ∨ f = 6 ∨ f = 7 := by omega
    all_goals decide
  · decide

/-- A magnitude that is no NaN's and no infinity's is at most the largest finite one. -/
theorem le_maxCode {f mag : Nat} (hf : fmtFloat f = true) (hmag : mag < 2 ^ (fmtExp f + fmtFrac f)) (hnan : ¬ (f = 0x04 ∧ mag = 0x7F))
    (htop : ¬ (fmtHasInf f = true ∧ mag / 2 ^ fmtFrac f = 2 ^ fmtExp f - 1)) : mag ≤ maxCode f := by
  obtain ⟨-, hmax⟩ := fmtFloat_layout hf
  split at hmax
  case isTrue hinf =>
    have hef : mag / 2 ^ fmtFrac f < 2 ^ fmtExp f := Nat.div_lt_of_lt_mul (by rwa [Nat.mul_comm, ← Nat.pow_add])
    have hlt : mag / 2 ^ fmtFrac f < 2 ^ fmtExp f - 1 := Nat.lt_of_le_of_ne (Nat.le_pred_of_lt hef) fun h => htop ⟨hinf, h⟩
    rw [Nat.div_lt_iff_lt_mul (Nat.two_pow_pos _), ← hmax] at hlt
    exact Nat.lt_succ_iff.mp hlt
  case isFalse =>
    split at hmax
    case isTrue h4 =>
      have hne := fun h => hnan ⟨h4, h⟩
      subst h4
      simp only [fmtExp, fmtFrac, maxCode] at hmag ⊢
      omega
    case isFalse => omega

/-- A floating-point code holds a NaN, an infinity of its sign, or the finite value of a magnitude up to the largest. -/
theorem decodeFloat_cases {f : Nat} (hf : fmtFloat f = true) (x : Nat) :
    let s := nbit x (fmtBits f - 1)
    let mag := x % 2 ^ (fmtBits f - 1)
    (∃ c, (decodeFloat f x).1 = .nan c) ∨
      (decodeFloat f x).1 = .inf s ∧ fmtHasInf f = true ∧ mag = (2 ^ fmtExp f - 1) * 2 ^ fmtFrac f ∨
      (decodeFloat f x).1 = codeVal f s mag ∧ mag ≤ maxCode f := by
  intro s mag
  obtain ⟨hbits, -⟩ := fmtFloat_layout hf
  have hmag : mag < 2 ^ (fmtExp f + fmtFrac f) := by
    simp only [mag, hbits, Nat.add_sub_cancel]
    exact Nat.mod_lt _ (Nat.two_pow_pos _)
  have hval : (decodeFloat f x).1 =
      if f = 0x04 ∧ mag = 0x7F then .nan 0
      else if fmtHasInf f = true ∧ mag / 2 ^ fmtFrac f = 2 ^ fmtExp f - 1 then
        if mag % 2 ^ fmtFrac f = 0 then .inf s
        else .nan (BitVec.ofNat 9 (mag % 2 ^ fmtFrac f % 2 ^ natMin 9 (fmtFrac f - 1)))
      else codeVal f s mag := by
    simp only [decodeFloat, Bool.and_eq_true, decide_eq_true_eq, apply_ite Prod.fst, s, mag]
  rw [hval]
  by_cases hnan : f = 0x04 ∧ mag = 0x7F
  · exact .inl ⟨0, if_pos hnan⟩
  rw [if_neg hnan]
  by_cases htop : fmtHasInf f = true ∧ mag / 2 ^ fmtFrac f = 2 ^ fmtExp f - 1
  · rw [if_pos htop]
    by_cases hfr : mag % 2 ^ fmtFrac f = 0
    · refine .inr (.inl ⟨if_pos hfr, htop.1, ?_⟩)
      rw [← htop.2, Nat.div_mul_cancel (Nat.dvd_of_mod_eq_zero hfr)]
    · exact .inl ⟨_, if_neg hfr⟩
  · exact .inr (.inr ⟨if_neg htop, le_maxCode hf hmag hnan htop⟩)

/-- A finite value that a code holds is that of its magnitude. -/
theorem decodeFloat_finite {f x : Nat} (hf : fmtFloat f = true) (h : isFinite (decodeFloat f x).1 = true) :
    (decodeFloat f x).1 = codeVal f (nbit x (fmtBits f - 1)) (x % 2 ^ (fmtBits f - 1)) ∧ x % 2 ^ (fmtBits f - 1) ≤ maxCode f := by
  obtain ⟨c, hnan⟩ | ⟨hinf, -, -⟩ | hfin := decodeFloat_cases hf x
  · simp [hnan, isFinite] at h
  · simp [hinf, isFinite] at h
  · exact hfin

/-- A finite code converts to itself without a flag, unless FP32 flushes it. -/
theorem roundFloat_decodeFloat_finite {f x : Nat} (hf : fmtFloat f = true) (hx : x < 2 ^ fmtBits f)
    (h32 : f = 0x0A → x % 2 ^ 31 = 0 ∨ 2 ^ 23 ≤ x % 2 ^ 31) (h : isFinite (decodeFloat f x).1 = true) :
    roundFloat f 0 0 (decodeFloat f x).1 = (x, 0) := by
  obtain ⟨hbits, -⟩ := fmtFloat_layout hf
  obtain ⟨hval, hle⟩ := decodeFloat_finite hf h
  rw [hbits] at hx
  rw [hval, roundFloat_codeVal _ hle (by rintro rfl; exact h32 rfl), hbits, Nat.add_sub_cancel, sign_add_magnitude hx]

/-- An infinity's code converts to itself with INF. -/
theorem roundFloat_decodeFloat_inf {f x : Nat} (hf : fmtFloat f = true) (hx : x < 2 ^ fmtBits f)
    (h : isInf (decodeFloat f x).1 = true) : roundFloat f 0 0 (decodeFloat f x).1 = (x, fINF) := by
  obtain ⟨hbits, -⟩ := fmtFloat_layout hf
  rw [hbits] at hx
  obtain ⟨c, hnan⟩ | ⟨hinf, hhas, hmag⟩ | ⟨hval, -⟩ := decodeFloat_cases hf x
  · simp [hnan, isInf] at h
  · rw [hinf]
    simp only [roundFloat, hhas, if_true, ← hmag]
    rw [hbits, Nat.add_sub_cancel, sign_add_magnitude hx]
  · obtain ⟨k, n, -, hfin⟩ := codeVal_steps f (x % 2 ^ (fmtBits f - 1))
    simp [hval, hfin, isInf] at h

/-! ## FP32, rounded twice (R110) -/

/-- A significand of exactly n bits is not rounded. -/
theorem roundSigBy_exact {n a : Nat} (s : Bool) (e : Int) (ha : a ≠ 0) (hlog : a.log2 + 1 = n) :
    roundSigBy n none (.fin s a 1 e) = .fin s a 1 e := by
  have hk : ilog2 a 1 - ((n : Int) - 1) = 0 := by rw [ilog2_one a ha]; omega
  have hup : (decide (2 * 0 > 1) || (2 * 0 == 1 && a % 2 == 1)) = false := rfl
  simp only [roundSigBy, ha, if_false, hk, Int.neg_zero, scaled_one_zero, hup, Bool.false_eq_true, Int.zero_add]

/-- A value whose significand has 24 bits and whose unit is at least 2^-149 is not below FP32's smallest normal. -/
theorem not_vlt_minNormal {n : Nat} {e : Int} (hn : 2 ^ 23 ≤ n) (he : -149 ≤ e) :
    vlt (.fin false n 1 e) (.fin false 1 1 (-126)) = false := by
  rw [vlt_fin_pos, decide_eq_false_iff_not, Nat.not_lt, Nat.one_mul]
  exact Nat.le_trans (Nat.pow_le_pow_right (by decide) (by omega : _ ≤ 23))
    (Nat.le_trans hn (Nat.le_mul_of_pos_right n (Nat.two_pow_pos _)))

/-- FP32 rounding leaves zero and a normal code's value to the rounding of every format. -/
theorem round32_codeVal {x : Nat} (s : Bool) (hx : x ≤ maxCode 0x0A) (hnormal : x = 0 ∨ 2 ^ 23 ≤ x) :
    round32 (codeVal 0x0A s x) = roundFloat 0x0A 0 0 (codeVal 0x0A s x) := by
  obtain ⟨k, n, hsteps, hval⟩ := codeVal_steps 0x0A x
  have hcode := hsteps.code
  have hlt := hsteps.sig_lt
  have hbinade := hsteps.normal
  have hbig : vlt (codeVal 0x0A false (maxCode 0x0A)) (codeVal 0x0A false x) = false := vlt_codeVal_of_le hx
  rw [hval] at hbig ⊢
  simp only [fmtFrac, fmtBias] at hcode hlt hbinade hbig ⊢
  by_cases hn : n = 0
  · simp only [round32, round32Mode, hn, if_true]
  have hsig : 2 ^ 23 ≤ n := by omega
  have hlog : n.log2 + 1 = 24 := by
    have := (Nat.le_log2 hn).mpr hsig
    have := (Nat.log2_lt hn).mpr hlt
    omega
  have hmode : nbit 0 0 = false := rfl
  have hmode' : nbit 0 1 = false := rfl
  simp only [round32, round32Mode, hn, if_false, hbig, hmode, hmode', Bool.and_false, Bool.false_eq_true,
    roundSigBy_exact s _ hn hlog, vabs, not_vlt_minNormal hsig (e := (k : Int) + 1 - (127 : Nat) - (23 : Nat)) (by omega)]

/-! ## The obligation -/

/-- Settles O60: a finite floating-point code is a count of steps that rounding finds again, an integer code is its own value, and the
model's rounding to an integer is that of the rationals. -/
theorem numberFormats : Obligations.NumberFormats := by
  refine ⟨?finite, ?inf, ?fp32, ?flush, ?int, ?int32, ?round⟩
  case finite =>
    intro f x hf hx h
    have hfloat : fmtFloat f = true ∧ f ≠ 0x0A := by
      simp only [List.mem_cons, List.not_mem_nil, or_false] at hf
      obtain rfl | rfl | rfl | rfl | rfl | rfl | rfl := hf <;> decide
    exact roundFloat_decodeFloat_finite hfloat.1 hx (fun h32 => absurd h32 hfloat.2) h
  case inf =>
    intro f x hf hx h
    have hfloat : fmtFloat f = true := by
      simp only [List.mem_cons, List.not_mem_nil, or_false] at hf
      obtain rfl | rfl | rfl := hf <;> rfl
    exact roundFloat_decodeFloat_inf hfloat hx h
  case fp32 =>
    intro x hx h hsub
    have hdecode : decode32 x = decodeFloat 0x0A x := by simp [decode32, hsub]
    have hnormal : x % 2 ^ 31 = 0 ∨ 2 ^ 23 ≤ x % 2 ^ 31 := by
      simp only [fp32Sub, Bool.and_eq_false_iff, beq_eq_false_iff_ne, bne_eq_false_iff_eq] at hsub
      omega
    rw [hdecode] at h ⊢
    obtain ⟨hval, hle⟩ := decodeFloat_finite rfl h
    calc round32 (decodeFloat 0x0A x).1 = roundFloat 0x0A 0 0 (decodeFloat 0x0A x).1 := by
          rw [hval]
          exact round32_codeVal _ hle hnormal
      _ = (x, 0) := roundFloat_decodeFloat_finite rfl hx (fun _ => hnormal) h
  case flush =>
    intro x _ hsub
    rw [decode32, if_pos hsub]
  case int =>
    intro f x zp hf hx _
    have hint : fmtInt f = true ∧ decodeElem f zp x = (vint (signed (fmtBits f) x - signed 8 zp), 0) := by
      simp only [List.mem_cons, List.not_mem_nil, or_false] at hf
      obtain rfl | rfl := hf <;> exact ⟨rfl, rfl⟩
    rw [hint.2]
    exact roundInt_code hint.1 _ hx
  case int32 =>
    intro x hx
    have hdecode : decodeElem 0x0C 0 x = (vint (signed (fmtBits 0x0C) x - 0), 0) := by rw [Int.sub_zero]; rfl
    rw [hdecode]
    exact roundInt_code rfl 0 hx
  case round =>
    intro f lo hi hr zp s n d e hd
    have hrange : intRange f = (lo, hi) := by
      simp only [List.mem_cons, Prod.mk.injEq, List.not_mem_nil, or_false] at hr
      obtain ⟨rfl, rfl, rfl⟩ | ⟨rfl, rfl, rfl⟩ | ⟨rfl, rfl, rfl⟩ := hr <;> rfl
    rw [← roundAway_fin s n d e hd]
    exact roundInt_fin hrange zp s n d e

end Sys2Proof.Machine
end

section
/-! PROOF. Requests that are answered and refused (chapters 0 and 10): an answer on a session with room is the last thing that leaves the
device, and a request is refused with the code of its first failing check. -/

namespace Sys2Proof.Machine

/-! ## An answer that goes out at once (R303, R311) -/

/-- Session n sends k more datagrams at once, and stays far from the end of its sequence numbers. -/
structure CanSend (n k : Nat) (s : State) : Prop where
  phase : (sessOf s n).phase = .opened
  port : portOpen s (sessOf s n).port = true
  paused : ctrlPaused s n = false
  hold : (sessOf s n).txHold = []
  window : (sessOf s n).unacked.length + k ≤ 1024
  seq : (sessOf s n).txSeq + k < 2 ^ 48 - 2 ^ 20

theorem sendDgram_of_canSend {n k : Nat} {s : State} (d : Dgram) (h : CanSend n (k + 1) s) :
    CanSend n k (sendDgram n d s) ∧ ∃ x, (sendDgram n d s).out = s.out ++ x :: d.rec_.toList := by
  obtain ⟨hphase, hport, hpaused, hhold, hwindow, hseq⟩ := h
  have hroom : ¬ ((sessOf s n).unacked.length ≥ 1024 || !portOpen s (sessOf s n).port ||
      (d.kind != 3 && (ctrlPaused s n || !(sessOf s n).txHold.isEmpty))) = true := by
    simp [hport, hpaused, hhold]; omega
  simp only [sendDgram]
  rw [if_neg (by simp [hphase]), if_neg hroom, if_neg (by omega)]
  refine ⟨⟨?_, ?_, hpaused, ?_, ?_, ?_⟩, _, rfl⟩ <;> simp only [sessOf, setSess, tget_tset_self]
  · exact hphase
  · exact hport
  · exact hhold
  · rw [List.length_append]
    exact Nat.le_trans (Nat.le_of_eq (Nat.add_assoc _ 1 k)) (by rwa [Nat.add_comm 1 k])
  · simp only [sessOf] at hseq
    omega

theorem foldl_sendDgram_canSend {n j : Nat} (l : List Dgram) : ∀ {s : State}, CanSend n (l.length + j) s →
    CanSend n j (l.foldl (fun s d => sendDgram n d s) s) := by
  induction l with
  | nil => exact fun h => by simpa using h
  | cons d l ih =>
    intro s h
    rw [List.length_cons, Nat.add_right_comm] at h
    exact ih (sendDgram_of_canSend d h).1

theorem fragments_ne_nil (m f : Nat) (b : Bytes) : fragments m f b ≠ [] := by
  cases f with
  | zero => simp [fragments]
  | succ f =>
    rw [fragments]
    split <;> simp

/-- The last datagram of a message carries what it says. -/
theorem datagramsOf_last (s : State) (n : Nat) (w : TxWhat) (e : Emit) {kind : Nat} {b : Bytes} (h : messageOf e = some (kind, b)) :
    ∃ l d, datagramsOf s n w e = l ++ [d] ∧ d.rec_ = some e := by
  simp only [datagramsOf, h]
  generalize hf : (if payloadMax s (sessOf s n) = 0 then [b] else fragments (payloadMax s (sessOf s n)) b.length b) = fs
  have hne : fs ≠ [] := by
    rw [← hf]
    split
    · simp
    · exact fragments_ne_nil _ _ _
  obtain ⟨l, x, rfl⟩ : ∃ l x, fs = l ++ [x] := ⟨_, _, (List.dropLast_concat_getLast hne).symm⟩
  refine ⟨_, _, List.mapIdx_append, ?_⟩
  simp

theorem sendDatagram_eq_sendOn {n : Nat} {w : TxWhat} {e : Emit} {s : State}
    (h : (sessOf s n).txSeq + (datagramsOf s n w e).length < 2 ^ 48 - 2 ^ 20) : sendDatagram n w e s = sendOn n w e s := by
  have hs := (foldl_sendDgram_sentAtMost n (datagramsOf s n w e) s (by omega)).2
  rw [sendDatagram, warnSeq, if_neg]
  intro hc
  exact absurd hc.2 (Nat.not_le.2 (Nat.lt_of_le_of_lt hs h))

theorem sendDatagram_getLast {n : Nat} {w : TxWhat} {e : Emit} {s : State} {kind : Nat} {b : Bytes} (hm : messageOf e = some (kind, b))
    (h : CanSend n (datagramsOf s n w e).length s) : (sendDatagram n w e s).out.getLast? = some e := by
  obtain ⟨l, d, hd, hrec⟩ := datagramsOf_last s n w e hm
  rw [sendDatagram_eq_sendOn h.seq, sendOn, hd, List.foldl_append]
  rw [hd, List.length_append] at h
  obtain ⟨x, hx⟩ := (sendDgram_of_canSend d (foldl_sendDgram_canSend (j := 1) l h)).2
  simp only [List.foldl_cons, List.foldl_nil, hx, hrec, Option.toList_some]
  simp

/-- Session n sends from u as from s: the two differ where no answer looks, and in what the session has received. -/
structure SendsAlike (n : Nat) (s u : State) : Prop where
  rest : u = { s with mem := u.mem, hbm := u.hbm, ctxs := u.ctxs, parts := u.parts, sess := u.sess, out := u.out, free := u.free }
  sess : ∃ a l k, sessOf u n = { sessOf s n with rxSeq := a, rxMap := l, rxSince := k }

theorem SendsAlike.txSeq {n : Nat} {s u : State} (h : SendsAlike n s u) : (sessOf u n).txSeq = (sessOf s n).txSeq := by
  obtain ⟨a, l, k, e⟩ := h.sess
  rw [e]

theorem SendsAlike.datagramsOf {n : Nat} {s u : State} (h : SendsAlike n s u) (w : TxWhat) (e : Emit) :
    datagramsOf u n w e = datagramsOf s n w e := by
  obtain ⟨a, l, k, hs⟩ := h.sess
  simp only [Machine.datagramsOf, hs]
  rw [h.rest]
  rfl

theorem SendsAlike.canSend {n k : Nat} {s u : State} (h : SendsAlike n s u) (hs : CanSend n k s) : CanSend n k u := by
  obtain ⟨a, l, c, e⟩ := h.sess
  obtain ⟨hphase, hport, hpaused, hhold, hwindow, hseq⟩ := hs
  refine ⟨by rwa [e], ?_, ?_, by rwa [e], by rwa [e], by rwa [e]⟩
  · rw [e, h.rest]
    exact hport
  · rw [h.rest]
    exact hpaused

theorem Admitted.txSeq_lt {s : State} {r : Req} {rt : Rights} (h : Admitted s r rt) : (sessOf s r.sess).txSeq < 2 ^ 47 := by
  obtain ⟨-, -, -, -, -, -, -, -, -, -, -, -, -, hseq⟩ := h
  exact hseq

/-- What leaves the device with an answer, from a state that sends as the one that took the request, is that answer. -/
theorem answered_of_sendsAlike {s t u : State} {r : Req} {rt : Rights} {op : Nat} {st : Status} {earliest : Nat} {body : Bytes}
    (h : Admitted s r rt) (hu : SendsAlike r.sess s u) (hb : body.length < 2 ^ 40)
    (ht : t.out = (respondAt r op st earliest body u).out) : Answered s t r op st earliest body := by
  have hseq := h.txSeq_lt
  obtain ⟨⟨hport, -⟩, -, -, hphase, hsess, -⟩ := h
  unfold Answered
  intro e hpaused _ hhold hroom
  have hlen := length_datagramsOf_le s r.sess .plain e _ _ rfl
  rw [List.length_append, length_messageHeader] at hlen
  have hmax : ∀ a b, a ≤ natMax a b := fun a b => by unfold natMax; split <;> omega
  have hs : CanSend r.sess (datagramsOf s r.sess .plain e).length s :=
    ⟨hphase, by rwa [hsess], hpaused, hhold, Nat.le_trans (Nat.add_le_add_left (hmax _ _) _) hroom, by omega⟩
  rw [← hu.datagramsOf] at hs
  rw [ht]
  exact sendDatagram_getLast rfl (hu.canSend hs)

/-- An answer from a state that sends as the one that took the request changes the session table and what has left the device only. -/
theorem SendsAlike.respond_frame {s u : State} {r : Req} {rt : Rights} (hu : SendsAlike r.sess s u) (h : Admitted s r rt) (op : Nat)
    (st : Status) {body : Bytes} (hb : body.length < 2 ^ 40) : ∃ q o, respond r op st body u = { u with sess := q, out := o } := by
  have hseq := h.txSeq_lt
  exact respondAt_frame r op st 0 body u (by rw [hu.txSeq]; omega)

/-! ## Requests that are refused (R7) -/

/-- The check that `firstFailure` keeps of two. -/
def firstOf (b : Option Check) (c : Check) : Option Check :=
  match b with
  | none => some c
  | some d => if c.order < d.order then some c else some d

theorem foldl_firstOf (l : List Check) : ∀ b : Check,
    ∃ d ∈ b :: l, l.foldl firstOf (some b) = some d ∧ ∀ x ∈ b :: l, d.order ≤ x.order := by
  induction l with
  | nil => exact fun b => ⟨b, by simp, rfl, by simp⟩
  | cons c l ih =>
    intro b
    rw [List.foldl_cons, firstOf]
    split
    · next h =>
      obtain ⟨d, hd, e, hle⟩ := ih c
      refine ⟨d, List.mem_cons_of_mem _ hd, e, List.forall_mem_cons.2 ⟨?_, hle⟩⟩
      exact Nat.le_trans (hle c List.mem_cons_self) (Nat.le_of_lt h)
    · next h =>
      obtain ⟨d, hd, e, hle⟩ := ih b
      obtain ⟨hb, hl⟩ := List.forall_mem_cons.1 hle
      refine ⟨d, ?_, e, List.forall_mem_cons.2 ⟨hb, List.forall_mem_cons.2 ⟨Nat.le_trans hb (Nat.le_of_not_lt h), hl⟩⟩⟩
      rw [List.mem_cons] at hd ⊢
      exact hd.imp_right (List.mem_cons_of_mem _)

/-- The code of the first failing check is that of a failing check which no other precedes with another code. -/
theorem firstFailure_of_first {cs : List Check} {c : Check} (hc : c ∈ cs) (hf : c.fails = true)
    (hmin : ∀ d ∈ cs, d.fails = true → c.order < d.order ∨ d.code = c.code) : firstFailure cs = some c.code := by
  have hmem : c ∈ cs.filter (·.fails) := List.mem_filter.2 ⟨hc, hf⟩
  have heq : firstFailure cs = match (cs.filter (·.fails)).foldl firstOf none with | some c => some c.code | none => none := rfl
  have hcode : ∀ d ∈ cs.filter (·.fails), d.order ≤ c.order → d.code = c.code := fun d hd hle => by
    obtain ⟨hd, hdf⟩ := List.mem_filter.1 hd
    exact (hmin d hd hdf).resolve_left (Nat.not_lt.2 hle)
  cases hl : cs.filter (·.fails) with
  | nil => simp [hl] at hmem
  | cons b l =>
    obtain ⟨d, hd, e, hle⟩ := foldl_firstOf l b
    rw [hl] at hmem hcode
    rw [heq, hl, List.foldl_cons, firstOf, e]
    exact congrArg some (hcode d hd (hle c hmem))

/-- Of the checks that every request meets, an admitted one can fail that of its length only. -/
theorem headerChecks_fails {s : State} {r : Req} {op : Nat} {rt : Rights} {lenOk : Bool} (h : Admitted s r rt) (he : Exempt s r op)
    {d : Check} (hd : d ∈ headerChecks (taken s r) r op rt lenOk) (hf : d.fails = true) : lenOk = false ∧ d.order = 6 := by
  have hpass := headerChecks_admitted s r op rt true h he rfl
  cases lenOk with
  | true => simp [hpass d hd] at hf
  | false =>
    simp only [headerChecks, List.mem_cons, List.not_mem_nil, or_false, forall_eq_or_imp, forall_eq] at hd hpass
    obtain ⟨h1, h2, h3, h4, h5, -, h7, h8⟩ := hpass
    obtain rfl | rfl | rfl | rfl | rfl | rfl | rfl | rfl := hd
    case inr.inr.inr.inr.inr.inl => exact ⟨rfl, rfl⟩
    all_goals simp only [h1, h2, h3, h4, h5, h7, h8, Bool.false_eq_true] at hf

/-- A served request that fails a check of its own is answered with the code of that check, where no other failing one precedes it
with another code; nothing else changes but the count of refusals of its context. -/
theorem request_refused {s : State} {r : Req} {op : Nat} {rt : Rights} {lenOk : Bool} {checks : List Check} (act : State → State)
    (h : Served s r rt) {c : Check} (hc : c ∈ checks) (hf : c.fails = true) (hlen : lenOk = true ∨ c.order < 6)
    (hmin : ∀ d ∈ checks, d.fails = true → c.order < d.order ∨ d.code = c.code) :
    ∃ x, request s r op rt lenOk checks act = respond r op c.code [] { taken s r with ctxs := x } := by
  have hm : mailboxOpen s r = true := by
    obtain ⟨⟨⟨h0, -⟩, -, -, h4, h5, -⟩, -⟩ := h
    simp [mailboxOpen, h0, h4, h5]
  have hb : bootHalted s = false := by
    obtain ⟨⟨-, -, h2, -⟩, -⟩ := h
    simp [bootHalted, h2]
  have hfirst : firstFailure (headerChecks (taken s r) r op rt lenOk ++ checks) = some c.code := by
    refine firstFailure_of_first (List.mem_append_right _ hc) hf fun d hd hdf => ?_
    rcases List.mem_append.1 hd with hd | hd
    · obtain ⟨hl, ho⟩ := headerChecks_fails h.1 (h.exempt op) hd hdf
      exact .inl (ho ▸ hlen.resolve_left (by simp [hl]))
    · exact hmin d hd hdf
  simp only [request, hm, hb, Bool.false_and, Bool.false_eq_true, Bool.not_true, if_false, hfirst]
  split
  · exact ⟨_, rfl⟩
  · exact ⟨_, rfl⟩

/-- What a refusal leaves as it was, and its answer. -/
theorem refusal_answered {s : State} {r : Req} {rt : Rights} (op : Nat) (st : Status) (x : Tbl Context) (h : Admitted s r rt) :
    let t := respond r op st [] { taken s r with ctxs := x }
    t.parts = s.parts ∧ t.mem = s.mem ∧ t.cores = s.cores ∧ t.keys = s.keys ∧ Answered s t r op st 0 [] := by
  intro t
  obtain ⟨q, o, e, -⟩ := taken_frame s r h.1
  have hu : SendsAlike r.sess s { taken s r with ctxs := x } := by
    refine ⟨?_, sessOf_taken s r h.1⟩
    rw [e]
  obtain ⟨q', o', ht⟩ := hu.respond_frame h op st (body := []) (by simp)
  rw [e] at ht
  simp only [t, e, ht, true_and]
  exact answered_of_sendsAlike h (e ▸ hu) (by simp) (congrArg State.out ht.symm)

end Sys2Proof.Machine
end

section
/-! PROOF. Checkpoints (chapter 13): the cut and its copy. The six opcodes share one frame of checks; a cut that starts arms its snapshot
and zeroes the areas of it; handing the shard to its session changes neither memory nor, while the session stays open, what the
snapshot has copied. -/

namespace Sys2Proof.Machine

/-! ## The six checkpoint opcodes (R378, R379) -/

section
/-! A checkpoint request of an enabled partition, with the checks of its opcode. -/
variable {s : State} {r : Req} {body : Bytes} {op : Nat} {lenOk : Bool} {pre : List Check} {checks : Nat → Charter → List Check}
  {act : Nat → Charter → State → State}

theorem activeCharter_taken (p : Nat) (h : InTurn s r) : activeCharter (taken s r) p = activeCharter s p := by
  obtain ⟨q, o, e, -⟩ := taken_frame s r h
  rw [e]
  rfl

theorem ckptOp_served {p : Nat} {ch : Charter} (h : Served s r .f) (hp : be body 0 1 = p) (hlt : p < 16) (hen : pEnabled s p = true)
    (hch : activeCharter s p = some ch) (hmode : chMode ch.doc ≠ 0) (hlen : lenOk = true) (hpre : AllPass pre)
    (hchecks : AllPass (checks p ch)) : ckptOp op lenOk r body pre checks act s = act p ch (taken s r) := by
  subst hp
  simp only [ckptOp, hch]
  rw [request_served s r op .f lenOk _ _ h hlen]
  · simp only [activeCharter_taken _ h.1.1, hch]
  · simp only [List.mem_append, List.mem_cons, List.not_mem_nil, or_false]
    rintro c ((rfl | hc) | rfl | hc)
    · simp [hen, hlt]
    · exact hpre c hc
    · simpa using hmode
    · exact hchecks c hc

/-- Without an ACTIVE charter: CONFLICT (R378). -/
theorem ckptOp_conflict (h : Served s r .f) (hlt : be body 0 1 < 16) (hen : pEnabled s (be body 0 1) = true)
    (hch : activeCharter s (be body 0 1) = none) (hlen : lenOk = true) (hpre : AllPass pre) :
    ∃ x, ckptOp op lenOk r body pre checks act s = respond r op .conflict [] { taken s r with ctxs := x } := by
  simp only [ckptOp, hch]
  refine request_refused (c := ⟨8, true, .conflict⟩) _ h (by simp) rfl (.inl hlen) ?_
  simp only [List.mem_append, List.mem_cons, List.not_mem_nil, or_false]
  rintro d ((rfl | hd) | rfl) hf
  · simp [hen, Nat.not_le.2 hlt] at hf
  · simp [hpre d hd] at hf
  · exact .inr rfl

/-- Under a charter with CKPT_MODE 0: DENIED (R378), which a later check does not come before. -/
theorem ckptOp_denied {ch : Charter} (h : Served s r .f) (hch : activeCharter s (be body 0 1) = some ch) (hmode : chMode ch.doc = 0)
    (hlate : ∀ c ∈ pre ++ checks (be body 0 1) ch, 2 < c.order ∨ c.code = .denied) :
    ∃ x, ckptOp op lenOk r body pre checks act s = respond r op .denied [] { taken s r with ctxs := x } := by
  simp only [ckptOp, hch]
  refine request_refused (c := ⟨2, chMode ch.doc == 0, .denied⟩) _ h (by simp) (by simp [hmode]) (.inr (by simp)) ?_
  simp only [List.mem_append, List.mem_cons, List.not_mem_nil, or_false]
  rintro d ((rfl | hd) | rfl | hd) _
  · exact .inl (by simp)
  · exact hlate d (List.mem_append_left _ hd)
  · exact .inr rfl
  · exact hlate d (List.mem_append_right _ hd)

end

theorem lenIs_of_hasLength {r : Req} {body : Bytes} {n : Nat} (h : HasLength r body n) : lenIs r body n = true := by
  simp [lenIs, h.1, h.2]

/-! ### The cut's checks and its start, as `execCkptCut` runs them -/

/-- The ranges that a cut copies: those it lists, or else the committed one of each bank pair (R380). -/
def cutCopied (body : Bytes) (ch : Charter) : List CkRange := if be body 36 1 = 0 then committedRanges ch else cutRanges body
/-- The checks of a cut's fields. -/
def cutFields (s : State) (body : Bytes) : List Check :=
  let listed := cutRanges body
  [ ⟨2, !((sessOf s (be body 28 4)).phase == .opened && isFabric (sessOf s (be body 28 4))), .denied⟩,
    ⟨5, be body 1 1 != 0 || be body 6 2 != 0 || be body 37 3 != 0 || listed.any (fun x => crBase x ≥ 2 ^ 48), .badDescriptor⟩,
    ⟨5, listed.any (fun x => !(crWidth x == 1 || crWidth x == 2 || crWidth x == 4 || crWidth x == 16) || crSlot x == 0) ||
      !noneMeet (listed.map (fun x => (crBase x, crLen x))), .badDescriptor⟩,
    ⟨5, be body 2 2 ≥ be body 4 2 || be body 4 2 > 4096, .badDescriptor⟩,
    ⟨6, be body 36 1 > 64 || be body 32 4 == 0xFFFFFFFF || listed.any (fun x => x.2.1 == 0 || x.2.1 == 0xFFFFFFFF), .badLength⟩ ]
/-- The checks of a cut's moment and claims. -/
def cutClaims (s : State) (body : Bytes) (p : Nat) (ch : Charter) : List Check :=
  let n := be body 36 1
  let e := be body 24 4
  [ ⟨4, (ctxsOf s p).any (fun c => (ctxOf s c).state == .fencing || (ctxOf s c).state == .fenced), .fenced⟩,
    ⟨5, n == 0 && !chBanks ch.doc, .badDescriptor⟩,
    ⟨7, (cutRanges body).any (fun x => !sealedWith s (bankCtx s p) rREAD (crBase x) (crLen x)), .outOfRegion⟩,
    ⟨8, (partOf s p).snap.state != .idle || (ctxsOf s p).isEmpty || !(cutAtGate s p e || cutOnCommit s p ch n e) || !pushClaim s p, .conflict⟩,
    ⟨9, (placeArea s p (stagingBytes (be body 32 4) (cutCopied body ch))).isNone, .notAdmitted⟩ ]
/-- The snapshot of a cut, without the header of its shard (R383). -/
def cutSnapshot (body : Bytes) (p : Nat) (ch : Charter) (s : State) : Snapshot :=
  let (nonce, s) := drawBytes 32 s
  let c := bankCtx s p
  let e := be body 24 4
  let ranges := cutCopied body ch
  { state := .copying, ckpt := BitVec.ofNat 128 (be body 8 16), epoch := BitVec.ofNat 32 e, index := BitVec.ofNat 16 (be body 2 2),
    count := BitVec.ofNat 16 (be body 4 2), sink := be body 28 4, transfer := BitVec.ofNat 32 (freeTransfer s (be body 28 4)),
    ranges := ranges, latch := ((List.range ranges.length).zip ranges).flatMap (fun x => latchOf s c x.1 x.2),
    marks := ranges.map (fun _ => 0), nonce := nonce, areas := (placeArea s p (stagingBytes (be body 32 4) ranges)).getD [],
    staging := be body 32 4 * 512, key := some (shardKey s p ch (serialBytes s) (bytesBE 4 e) nonce), banked := !cutAtGate s p e,
    stallNs := (partOf s p).snap.stallNs }
/-- The snapshot stands in its partition, and the memory of its areas is zeroed. -/
def cutArmed (p : Nat) (ch : Charter) (m : Snapshot) (s : State) : State :=
  m.areas.foldl (fun s a => forget a.1 a.2 s) (setPart s p { partOf s p with snap := { m with bytes := firkinHeader s ch m } })
/-- What a cut does once its checks have passed. -/
def cutStart (r : Req) (body : Bytes) (p : Nat) (ch : Charter) (s : State) : State :=
  let ranges := cutCopied body ch
  match ranges.filterMap (fun x => zotBlocks s (bankCtx s p) (crBase x) (crLen x)) with
  | t :: l => respondAt r 0x0120 .deferred (l.foldl natMax t) [] s
  | [] =>
    let len := bytesBE 8 (plainLength ranges)
    postDev 0x0060 (bytesBE 1 p ++ slice body 8 16 ++ bytesBE 4 (be body 24 4) ++ len)
      (respond r 0x0120 .ok (bytesBE 4 (freeTransfer (drawBytes 32 s).2 (be body 28 4)) ++ len)
        (cutArmed p ch (cutSnapshot body p ch s) (drawBytes 32 s).2))

theorem exec_ckptCut (r : Req) (body : Bytes) (s : State) :
    exec (.ckptCut r body) s = arrives (.ckptCut r body) r s fun s =>
      .next (ckptOp 0x0120 (lenIs r body (40 + 16 * be body 36 1)) r body (cutFields s body) (cutClaims s body) (cutStart r body) s) := by
  rfl

theorem cutFields_pass {s : State} {r : Req} {body : Bytes} (h : CkptFormed s r body 0x0120) : AllPass (cutFields s body) := by
  obtain ⟨-, hopen, hfab, h1, h6, h37, hidx, hcnt, hn, hst, hr, hmeet⟩ := h.1 rfl
  have hbase : (cutRanges body).any (fun x => crBase x ≥ 2 ^ 48) = false :=
    List.any_eq_false.2 fun x hx => by simpa using (hr x hx).1
  have hshape : (cutRanges body).any (fun x => !(crWidth x == 1 || crWidth x == 2 || crWidth x == 4 || crWidth x == 16) || crSlot x == 0) = false :=
    List.any_eq_false.2 fun x hx => by
      obtain ⟨-, hw, hslot, -⟩ := hr x hx
      rcases hw with hw | hw | hw | hw <;> simp [hslot, hw]
  have hlen : (cutRanges body).any (fun x => x.2.1 == 0 || x.2.1 == 0xFFFFFFFF) = false :=
    List.any_eq_false.2 fun x hx => by
      obtain ⟨-, -, -, h0, hF⟩ := hr x hx
      simp [h0, hF]
  simp only [cutFields, AllPass, List.mem_cons, List.not_mem_nil, or_false, forall_eq_or_imp, forall_eq, hbase, hshape, hlen, hmeet]
  refine ⟨?_, ?_, ?_, ?_, ?_⟩
  · simp [hopen, hfab]
  · simp [h1, h6, h37]
  · rfl
  · simpa using ⟨hidx, hcnt⟩
  · simp [hst, hn]

/-- What the six opcodes have in common: a served request runs `ckptOp`; the checks of its fields pass where they are in order, and no
check of its own comes before DENIED. -/
theorem exec_ckptOp {i : Req → Bytes → Instr} {op : Nat} (h : CkptOp i op) {s : State} {r : Req} (body : Bytes) (hs : Served s r .f) :
    ∃ lenOk pre checks act, exec (i r body) s = .next (ckptOp op lenOk r body pre checks act s) ∧
      (CkptFormed s r body op → lenOk = true ∧ AllPass pre) ∧ ∀ p ch, ∀ c ∈ pre ++ checks p ch, 2 < c.order ∨ c.code = .denied := by
  simp only [CkptOp, List.mem_cons, Prod.mk.injEq, List.not_mem_nil, or_false] at h
  obtain ⟨rfl, rfl⟩ | ⟨rfl, rfl⟩ | ⟨rfl, rfl⟩ | ⟨rfl, rfl⟩ | ⟨rfl, rfl⟩ | ⟨rfl, rfl⟩ := h
  · have e : exec (.ckptCut r body) s = execCkptCut r body s := rfl
    rw [execCkptCut, arrives_admitted _ _ _ _ _ hs.1] at e
    refine ⟨_, cutFields s body, cutClaims s body, cutStart r body, e, fun hf => ?_, fun p ch => ?_⟩
    · exact ⟨lenIs_of_hasLength (hf.1 rfl).1, cutFields_pass hf⟩
    · simp [cutFields, cutClaims]
  · have e : exec (.ckptStatus r body) s = execCkptStatus r body s := rfl
    rw [execCkptStatus, arrives_admitted _ _ _ _ _ hs.1] at e
    refine ⟨_, _, _, _, e, fun ⟨_, hone, _⟩ => ?_, fun p ch => ?_⟩
    · exact ⟨lenIs_of_hasLength (hone (.inl rfl)), by simp [AllPass]⟩
    · simp
  · have e : exec (.ckptStored r body) s = execCkptStored r body s := rfl
    rw [execCkptStored, arrives_admitted _ _ _ _ _ hs.1] at e
    refine ⟨_, _, _, _, e, fun ⟨_, _, hstored, _⟩ => ?_, fun p ch => ?_⟩
    · exact ⟨lenIs_of_hasLength (hstored rfl), by simp [AllPass]⟩
    · simp
  · have e : exec (.ckptAbandon r body) s = execCkptAbandon r body s := rfl
    rw [execCkptAbandon, arrives_admitted _ _ _ _ _ hs.1] at e
    refine ⟨_, _, _, _, e, fun ⟨_, hone, _⟩ => ?_, fun p ch => ?_⟩
    · exact ⟨lenIs_of_hasLength (hone (.inr rfl)), by simp [AllPass]⟩
    · simp
  · have e : exec (.ckptManifestLoad r body) s = execCkptManifestLoad r body s := rfl
    rw [execCkptManifestLoad, arrives_admitted _ _ _ _ _ hs.1] at e
    refine ⟨_, _, _, _, e, fun ⟨_, _, _, hload, _⟩ => ?_, fun p ch => ?_⟩
    · obtain ⟨hmin, hlen, hlast, hzero, hmax, hend, hnext⟩ := hload rfl
      refine ⟨by simp [lenMin, hmin, hlen], ?_⟩
      simp only [AllPass, List.mem_cons, List.not_mem_nil, or_false, forall_eq_or_imp, forall_eq]
      refine ⟨by simp [hlast, hzero], ?_, by simp; omega⟩
      by_cases hoff : be body 4 8 = 0
      · simp [hoff]
      · obtain ⟨hwhole, hcont⟩ := hnext hoff
        simp [hwhole, ← hcont]
    · simp
  · have e : exec (.ckptRestoreOpen r body) s = execCkptRestoreOpen r body s := rfl
    rw [execCkptRestoreOpen, arrives_admitted _ _ _ _ _ hs.1] at e
    refine ⟨_, _, _, _, e, fun ⟨_, _, _, _, hopen⟩ => ?_, fun p ch => ?_⟩
    · obtain ⟨hlen, hplace, hzero, hid⟩ := hopen rfl
      exact ⟨lenIs_of_hasLength hlen, by simp [AllPass, hzero, hid, hplace]⟩
    · simp

/-! ## The cut (R378, R381-R383) -/

theorem postTo_frame {q : Nat} (hq : 16 ≤ q) (code ctx gen : Nat) (body : Bytes) (s : State) :
    ∃ d k, postTo q code ctx gen body s = { s with devQueue := d, mgmt := { s.mgmt with queue := k } } := by
  have hset : ∀ k, ∃ d m, setQueue s q k = { s with devQueue := d, mgmt := { s.mgmt with queue := m } } := fun k => by
    rw [setQueue, if_neg (Nat.not_lt.2 hq)]
    split
    · exact ⟨_, _, rfl⟩
    · exact ⟨_, _, rfl⟩
  simp only [postTo]
  split
  · exact hset _
  · exact hset _

theorem postDev_frame (code : Nat) (body : Bytes) (s : State) :
    ∃ d k, postDev code body s = { s with devQueue := d, mgmt := { s.mgmt with queue := k } } := by
  obtain ⟨d, k, e⟩ := postTo_frame (q := 16) (Nat.le_refl _) code 0 0 body s
  obtain ⟨d', k', e'⟩ := postTo_frame (q := 17) (by decide) code 0 0 body (postTo 16 code 0 0 body s)
  exact ⟨d', k', by rw [postDev, e', e]⟩

/-- Forgotten memory reads as zero; besides it only counters, poison and answers to waiting masters change. -/
theorem forget_frame (a n : Nat) (s : State) : ∃ h o, forget a n s = { s with mem := mzero s.mem a n, hbm := h, out := o } := by
  have hanswers : ∀ (l : List LineWait) (s : State), ∃ o, l.foldl (fun s w => answer w.master .ok [] s) s = { s with out := o } := by
    intro l
    induction l with
    | nil => exact fun s => ⟨_, rfl⟩
    | cons w l ih => exact fun s => ih _
  obtain ⟨o, e⟩ := hanswers _ s
  rw [forget, e]
  exact ⟨_, _, rfl⟩

theorem foldl_forget_frame (l : List (Nat × Nat)) : ∀ s : State, ∃ h o, l.foldl (fun s a => forget a.1 a.2 s) s =
    { s with mem := l.foldl (fun m a => mzero m a.1 a.2) s.mem, hbm := h, out := o } := by
  induction l with
  | nil => exact fun s => ⟨_, _, rfl⟩
  | cons a l ih =>
    intro s
    obtain ⟨h, o, e⟩ := forget_frame a.1 a.2 s
    obtain ⟨h', o', e'⟩ := ih (forget a.1 a.2 s)
    exact ⟨h', o', by rw [List.foldl_cons, List.foldl_cons, e', e]⟩

theorem mget_foldl_mzero (l : List (Nat × Nat)) (b : Nat) : ∀ m : Mem,
    mget (l.foldl (fun m a => mzero m a.1 a.2) m) b = if ∃ x ∈ l, x.1 ≤ b ∧ b < x.1 + x.2 then 0 else mget m b := by
  induction l with
  | nil => simp
  | cons a l ih =>
    intro m
    rw [List.foldl_cons, ih, mget_mzero]
    by_cases ha : a.1 ≤ b ∧ b < a.1 + a.2
    · simp [ha]
    · simp only [List.mem_cons, or_and_right, exists_or, exists_eq_left, ha, false_or, if_false]

@[simp] theorem length_serialBytes (s : State) : (serialBytes s).length = 8 := length_bytesBE _ _
@[simp] theorem length_digestBytes (d : Digest) : (digestBytes d).length = 64 := length_bytesBE _ _
@[simp] theorem length_rangeBytes (x : CkRange) : (rangeBytes x).length = 16 := by simp [rangeBytes]

theorem length_flatMap_rangeBytes (l : List CkRange) : (l.flatMap rangeBytes).length = 16 * l.length := by
  induction l with
  | nil => rfl
  | cons x l ih => rw [List.flatMap_cons, List.length_append, length_rangeBytes, ih, List.length_cons, Nat.mul_succ, Nat.add_comm]

/-- The header of a shard whose nonce has 32 bytes is as long as R391 lays it out. -/
theorem length_firkinHeader (s : State) (ch : Charter) (n : Snapshot) (h : n.nonce.length = 32) :
    (firkinHeader s ch n).length = headerLen n := by
  simp only [firkinHeader, List.length_append, length_bytesBE, length_serialBytes, chDigest, length_digestBytes, h,
    length_flatMap_rangeBytes, headerLen]

theorem freeTransfer_lt (s : State) (n : Nat) : freeTransfer s n < 2 ^ 32 := by
  unfold freeTransfer
  generalize hk : 4200 = k
  dsimp only
  split
  · next i hi =>
    have := List.mem_range.1 (List.mem_of_find?_eq_some hi)
    omega
  · decide

/-- What a cut answers: its transfer, and the bytes of its ranges. -/
def cutAnswer (body : Bytes) (ch : Charter) (m : Snapshot) : Bytes :=
  bytesBE 4 m.transfer.toNat ++ bytesBE 8 (plainLength (cutCopied body ch))
/-- The state behind a cut's draw of its nonce, with the snapshot armed. -/
def cutDone (body : Bytes) (p : Nat) (ch : Charter) (s : State) : State := cutArmed p ch (cutSnapshot body p ch s) (drawBytes 32 s).2

/-- Where no zero-on-first-touch holds a range back (R383), a cut leaves its snapshot armed, answers, and posts its event. -/
theorem cutStart_frame {s : State} (r : Req) {body : Bytes} {p : Nat} {ch : Charter}
    (hz : ∀ x ∈ cutCopied body ch, zotBlocks s (bankCtx s p) (crBase x) (crLen x) = none) :
    let u := respond r 0x0120 .ok (cutAnswer body ch (cutSnapshot body p ch s)) (cutDone body p ch s)
    ∃ d k, cutStart r body p ch s = { u with devQueue := d, mgmt := { u.mgmt with queue := k } } := by
  have hnone : (cutCopied body ch).filterMap (fun x => zotBlocks s (bankCtx s p) (crBase x) (crLen x)) = [] :=
    List.filterMap_eq_nil_iff.2 hz
  have htransfer : (cutSnapshot body p ch s).transfer.toNat = freeTransfer (drawBytes 32 s).2 (be body 28 4) :=
    (BitVec.toNat_ofNat _ _).trans (Nat.mod_eq_of_lt (freeTransfer_lt _ _))
  simp only [cutStart, hnone, cutAnswer, htransfer]
  exact postDev_frame _ _ _

theorem cutArmed_frame (p : Nat) (ch : Charter) (m : Snapshot) (s : State) : ∃ h o, cutArmed p ch m s =
    { s with parts := tset s.parts p { partOf s p with snap := { m with bytes := firkinHeader s ch m } },
             mem := m.areas.foldl (fun m a => mzero m a.1 a.2) s.mem, hbm := h, out := o } :=
  foldl_forget_frame m.areas _

/-- The state that a cut leaves: the snapshot with its header in its partition, its areas zeroed, and the answer given. -/
theorem cutStart_spec {s : State} {r : Req} {body : Bytes} {p : Nat} {ch : Charter} (h : Admitted s r .f)
    (hz : ∀ x ∈ cutCopied body ch, zotBlocks s (bankCtx s p) (crBase x) (crLen x) = none) :
    let m := cutSnapshot body p ch (taken s r)
    let t := cutStart r body p ch (taken s r)
    (partOf t p).snap = { m with bytes := firkinHeader (drawBytes 32 (taken s r)).2 ch m } ∧ t.keys = s.keys ∧
      t.mem = m.areas.foldl (fun m a => mzero m a.1 a.2) s.mem ∧ Answered s t r 0x0120 .ok 0 (cutAnswer body ch m) := by
  intro m t
  obtain ⟨q, o, e, -⟩ := taken_frame s r h.1
  obtain ⟨b, o', harmed⟩ := cutArmed_frame p ch m (drawBytes 32 (taken s r)).2
  have hu : SendsAlike r.sess s (cutDone body p ch (taken s r)) := by
    rw [cutDone, harmed]
    refine ⟨?_, sessOf_taken s r h.1⟩
    simp only [drawBytes, e]
  obtain ⟨q', o'', hresp⟩ := hu.respond_frame h 0x0120 .ok (body := cutAnswer body ch m) (by simp [cutAnswer])
  have hz' : ∀ x ∈ cutCopied body ch, zotBlocks (taken s r) (bankCtx (taken s r) p) (crBase x) (crLen x) = none := by
    rw [e]
    exact hz
  obtain ⟨d, k, ht⟩ := cutStart_frame r hz'
  have hans : Answered s t r 0x0120 .ok 0 (cutAnswer body ch m) :=
    answered_of_sendsAlike h hu (by simp [cutAnswer]) (congrArg State.out ht :)
  rw [hresp, cutDone, harmed] at ht
  refine ⟨?_, ?_, ?_, hans⟩
  · simp only [t, ht]
    exact congrArg Partition.snap (tget_tset_self _ _ _ _)
  · simp only [t, ht, drawBytes, e]
  · simp only [t, ht, drawBytes, e]

/-- The nonce that a cut draws has the 32 bytes that its header holds. -/
theorem length_cutSnapshot_header (body : Bytes) (p : Nat) (ch : Charter) (s u : State) :
    (firkinHeader u ch (cutSnapshot body p ch s)).length = headerLen (cutSnapshot body p ch s) :=
  length_firkinHeader _ _ _ (length_bytesBE _ _)

/-- A cut whose conditions hold (R378, R381-R383, R385). -/
theorem exec_ckptCut_accepted {s : State} {r : Req} {body : Bytes} {p : Nat} {ch : Charter}
    (h : UnderCharter s r body (40 + 16 * be body 36 1) p ch) (hmode : chMode ch.doc ≠ 0) (hfields : AllPass (cutFields s body))
    (hclaims : AllPass (cutClaims s body p ch))
    (hz : ∀ x ∈ cutCopied body ch, zotBlocks s (bankCtx s p) (crBase x) (crLen x) = none) :
    Completes (.ckptCut r body) s (fun t =>
      let m := (partOf t p).snap
      m.state = .copying ∧ m.ckpt = BitVec.ofNat 128 (be body 8 16) ∧ m.epoch = BitVec.ofNat 32 (be body 24 4) ∧ m.sink = be body 28 4 ∧
      m.ranges = cutCopied body ch ∧ m.marks = (cutCopied body ch).map (fun _ => 0) ∧ m.chunk = 0 ∧ m.key.isSome = true ∧
      m.bytes.length = headerLen m ∧
      some m.areas = placeArea s p (stagingBytes (be body 32 4) (cutCopied body ch)) ∧ t.keys = s.keys ∧
      (∀ a, (∀ x ∈ m.areas, a < x.1 ∨ x.1 + x.2 ≤ a) → mget t.mem a = mget s.mem a) ∧
      (∀ x ∈ m.areas, ∀ a, x.1 ≤ a → a < x.1 + x.2 → mget t.mem a = 0) ∧
      Answered s t r 0x0120 .ok 0 (bytesBE 4 m.transfer.toNat ++ bytesBE 8 (plainLength (cutCopied body ch)))) := by
  obtain ⟨hs, hlen, hp, hlt, hen, hch⟩ := h
  have hexec : exec (.ckptCut r body) s = .next (cutStart r body p ch (taken s r)) := by
    rw [exec_ckptCut, arrives_admitted _ r .f s _ hs.1,
      ckptOp_served hs hp hlt hen hch hmode (lenIs_of_hasLength hlen) hfields hclaims]
  have hplace : (placeArea s p (stagingBytes (be body 32 4) (cutCopied body ch))).isSome = true := by
    simp only [AllPass, cutClaims, List.mem_cons, List.not_mem_nil, or_false, forall_eq_or_imp, forall_eq] at hclaims
    obtain ⟨-, -, -, -, hplace⟩ := hclaims
    simpa using hplace
  obtain ⟨q, o, e, -⟩ := taken_frame s r hs.1.1
  obtain ⟨hsnap, hkeys, hmem, hans⟩ := cutStart_spec hs.1 hz
  refine ⟨_, hexec, ?_⟩
  dsimp only
  rw [hsnap, hkeys, hmem]
  refine ⟨rfl, rfl, rfl, rfl, rfl, rfl, rfl, rfl, length_cutSnapshot_header body p ch _ _, ?_, rfl, ?_, ?_, hans⟩
  · obtain ⟨l, hl⟩ := Option.isSome_iff_exists.1 hplace
    rw [e, hl]
    exact congrArg (fun x => some (x.getD [])) hl
  · intro a ha
    rw [mget_foldl_mzero, if_neg]
    rintro ⟨x, hx, hlo, hhi⟩
    have := ha x hx
    omega
  · intro x hx a hlo hhi
    rw [mget_foldl_mzero, if_pos ⟨x, hx, hlo, hhi⟩]

/-- A cut in a partition one of whose contexts fences or is fenced: FENCED, which the checks of moment and claims do not
come before (R7). -/
theorem exec_ckptCut_fenced {s : State} {r : Req} {body : Bytes} {p : Nat} {ch : Charter}
    (h : UnderCharter s r body (40 + 16 * be body 36 1) p ch) (hmode : chMode ch.doc ≠ 0) (hformed : CkptFormed s r body 0x0120)
    (hfence : ∃ c ∈ ctxsOf s p, (ctxOf s c).state = .fencing ∨ (ctxOf s c).state = .fenced) :
    Completes (.ckptCut r body) s (fun t => t.parts = s.parts ∧ t.mem = s.mem ∧ Answered s t r 0x0120 .fenced 0 []) := by
  obtain ⟨hs, hlen, rfl, hlt, hen, hch⟩ := h
  have hpass := cutFields_pass hformed
  have hany : ((ctxsOf s (be body 0 1)).any (fun c => (ctxOf s c).state == .fencing || (ctxOf s c).state == .fenced)) = true := by
    simpa using hfence
  have hrefused : ∃ x, ckptOp 0x0120 (lenIs r body (40 + 16 * be body 36 1)) r body (cutFields s body) (cutClaims s body)
      (cutStart r body) s = respond r 0x0120 .fenced [] { taken s r with ctxs := x } := by
    simp only [ckptOp, hch]
    refine request_refused (c := ⟨4, _, .fenced⟩) _ hs (by simp only [cutClaims, List.mem_append, List.mem_cons, true_or, or_true]) hany
      (.inr (by simp)) ?_
    simp only [List.mem_append, List.mem_cons, List.not_mem_nil, or_false]
    rintro d ((rfl | hd) | rfl | hd) hf
    · exact .inl (by simp)
    · simp [hpass d hd] at hf
    · simp [hmode] at hf
    · simp only [cutClaims, List.mem_cons, List.not_mem_nil, or_false] at hd
      obtain rfl | rfl | rfl | rfl | rfl := hd
      · exact .inr rfl
      all_goals exact .inl (by simp)
  obtain ⟨x, hx⟩ := hrefused
  obtain ⟨hparts, hmem, -, -, hans⟩ := refusal_answered 0x0120 .fenced x hs.1
  refine ⟨_, ?_, hparts, hmem, hans⟩
  rw [exec_ckptCut, arrives_admitted _ r .f s _ hs.1, hx]

/-- A cut at a gate: the step's arrival is the epoch's, and some grain core waits in GRECV (R381). -/
theorem cutAtGate_spec {s : State} {p e : Nat} (h : cutAtGate s p e = true) :
    (partOf s p).step.arrived = some (BitVec.ofNat 32 e) ∧
    ∃ k ∈ (runningCores s (bankCtx s p)).map (coreOf s) ++ (ctxOf s (bankCtx s p)).saved.map (·.2), ∃ g ∈ k.grains,
      g.2.started = true ∧ g.2.stopped = false ∧ g.2.waiting = .recv := by
  simp only [cutAtGate, waitsAtGate, Bool.and_eq_true, beq_iff_eq, List.any_eq_true, Bool.not_eq_true'] at h
  obtain ⟨harrived, ⟨k, hk, g, hg, ⟨hstarted, hstopped⟩, hwaits⟩, -⟩ := h
  exact ⟨harrived, k, hk, g, hg, hstarted, hstopped, hwaits⟩

/-! ## The copy (R384, R388-R392)

The shard goes out over its session, and a session that runs out of sequence numbers closes and takes the snapshot with it (R304, R395). -/

/-- Memory, fuses, sessions and every snapshot are as before. -/
structure SnapsKept (s t : State) : Prop where
  mem : t.mem = s.mem
  fuses : t.fuses = s.fuses
  sess : t.sess = s.sess
  snap : ∀ p, (partOf t p).snap = (partOf s p).snap

theorem SnapsKept.refl (s : State) : SnapsKept s s := ⟨rfl, rfl, rfl, fun _ => rfl⟩

theorem SnapsKept.trans {s t u : State} (h : SnapsKept s t) (h' : SnapsKept t u) : SnapsKept s u :=
  ⟨h'.mem.trans h.mem, h'.fuses.trans h.fuses, h'.sess.trans h.sess, fun p => (h'.snap p).trans (h.snap p)⟩

theorem SnapsKept.foldl {α : Type} {f : State → α → State} (hf : ∀ s a, SnapsKept s (f s a)) (l : List α) :
    ∀ s, SnapsKept s (l.foldl f s) := by
  induction l with
  | nil => exact SnapsKept.refl
  | cons a l ih => exact fun s => (hf s a).trans (ih _)

theorem snapsKept_cfg (s : State) (c : CfgSets) : SnapsKept s { s with cfg := c } := ⟨rfl, rfl, rfl, fun _ => rfl⟩

theorem snap_setPart (s : State) (q p : Nat) (k : Partition) :
    (partOf (setPart s q k) p).snap = if p = q then k.snap else (partOf s p).snap := by
  rw [partOf, setPart, tget_tset]
  split
  · rfl
  · rfl

theorem setQueue_snapsKept (s : State) (q : Nat) (k : EventQueue) : SnapsKept s (setQueue s q k) := by
  unfold setQueue
  split
  · refine ⟨rfl, rfl, rfl, fun p => ?_⟩
    rw [snap_setPart]
    split
    · next h => rw [h]
    · rfl
  · split
    · exact ⟨rfl, rfl, rfl, fun _ => rfl⟩
    · exact ⟨rfl, rfl, rfl, fun _ => rfl⟩

theorem postTo_snapsKept (q code ctx gen : Nat) (body : Bytes) (s : State) : SnapsKept s (postTo q code ctx gen body s) := by
  simp only [postTo]
  split
  · exact setQueue_snapsKept _ _ _
  · exact setQueue_snapsKept _ _ _

theorem postDev_snapsKept (code : Nat) (body : Bytes) (s : State) : SnapsKept s (postDev code body s) :=
  (postTo_snapsKept _ _ _ _ _ _).trans (postTo_snapsKept _ _ _ _ _ _)

theorem reportLost_snapsKept (q : Nat) (s : State) : SnapsKept s (reportLost q s) := by
  simp only [reportLost]
  split
  · exact SnapsKept.refl s
  · exact (setQueue_snapsKept _ _ _).trans (postTo_snapsKept _ _ _ _ _ _)

theorem moverEnd_snapsKept (ctx core mover : Nat) (st : Status) (s : State) : SnapsKept s (moverEnd ctx core mover st s) := by
  simp only [moverEnd, modMover]
  split
  · exact ⟨rfl, rfl, rfl, fun _ => rfl⟩
  · split
    · exact ⟨rfl, rfl, rfl, fun _ => rfl⟩
    · exact SnapsKept.refl s

theorem captureRec_snapsKept (ctx cause : Nat) (x : BitVec 384) (s : State) : SnapsKept s (captureRec ctx cause x s) := by
  simp only [captureRec]
  split
  · exact SnapsKept.trans (t := setCtx s ctx _) ⟨rfl, rfl, rfl, fun _ => rfl⟩ (postTo_snapsKept _ _ _ _ _ _)
  · exact ⟨rfl, rfl, rfl, fun _ => rfl⟩

theorem slotRefused_snapsKept (s : State) (p : Nat) (ch : Charter) (n : Snapshot) (i : Nat) (r : CkRange) (off len : Nat) :
    SnapsKept s (slotRefused s p ch n i r off len) := by
  simp only [slotRefused]
  split
  · exact SnapsKept.refl s
  · split
    · exact SnapsKept.refl s
    · split
      · exact captureRec_snapsKept _ _ _ _
      · exact SnapsKept.refl s

/-- Changing the queues of all partitions changes none of their snapshots. -/
theorem snap_tget_mapQueue (f : EventQueue → EventQueue) (l : Tbl Partition) (p : Nat) :
    (tget partitionReset (l.map (fun e => (e.1, { e.2 with queue := f e.2.queue }))) p).snap = (tget partitionReset l p).snap := by
  induction l with
  | nil => rfl
  | cons e l ih =>
    simp only [List.map_cons, tget]
    split
    · rfl
    · exact ih

/-- A snapshot that ends changes no other, and neither memory nor sessions. -/
theorem snapEnd_spec (p : Nat) (st : Status) (s : State) (h : (partOf s p).snap.state ≠ .idle) :
    SnapsKept (setPart s p { partOf s p with snap := { ({} : Snapshot) with stallNs := (partOf s p).snap.stallNs } }) (snapEnd p st s) := by
  simp only [snapEnd]
  rw [if_neg (by simpa using h)]
  exact postDev_snapsKept _ _ _

/-- Ending the snapshots that go to session n leaves every other, memory and sessions. -/
theorem foldl_snapEnd_spec (n : Nat) (st : Status) (l : List Nat) : ∀ s : State,
    let t := l.foldl (fun s p => if (partOf s p).snap.sink = n then snapEnd p st s else s) s
    t.mem = s.mem ∧ t.fuses = s.fuses ∧ t.sess = s.sess ∧ ∀ p, (partOf s p).snap.sink ≠ n → (partOf t p).snap = (partOf s p).snap := by
  induction l with
  | nil => exact fun s => ⟨rfl, rfl, rfl, fun _ _ => rfl⟩
  | cons q l ih =>
    intro s
    obtain ⟨hmem, hfuses, hsess, hsnap⟩ := ih (if (partOf s q).snap.sink = n then snapEnd q st s else s)
    rw [List.foldl_cons]
    by_cases hq : (partOf s q).snap.sink = n
    · by_cases hidle : (partOf s q).snap.state = .idle
      · have : snapEnd q st s = s := by simp [snapEnd, hidle]
        simp only [hq, if_true, this] at hmem hfuses hsess hsnap ⊢
        exact ⟨hmem, hfuses, hsess, hsnap⟩
      · have he := snapEnd_spec q st s hidle
        simp only [hq, if_true] at hmem hfuses hsess hsnap ⊢
        refine ⟨hmem.trans he.mem, hfuses.trans he.fuses, hsess.trans he.sess, fun p hp => ?_⟩
        have hne : p ≠ q := fun h => hp (h ▸ hq)
        have hsame : (partOf (snapEnd q st s) p).snap = (partOf s p).snap := by rw [he.snap, snap_setPart, if_neg hne]
        rw [hsnap p (by rwa [hsame]), hsame]
    · simp only [hq, if_false] at hmem hfuses hsess hsnap ⊢
      exact ⟨hmem, hfuses, hsess, hsnap⟩

/-- Closing a session resets it and leaves memory, fuses, the other sessions and the snapshots that go elsewhere. -/
theorem closeSession_spec (n : Nat) (s : State) (h : (sessOf s n).phase ≠ .closed) :
    let t := closeSession n s
    t.mem = s.mem ∧ t.fuses = s.fuses ∧ t.sess = tset s.sess n sessionReset ∧
      ∀ p, (partOf s p).snap.sink ≠ n → (partOf t p).snap = (partOf s p).snap := by
  unfold closeSession
  extract_lets q pushes s₁ s₂ s₃ s₄ m s₅ s₆ c s₇ t
  have ht : t = (List.range 16).foldl (fun s p => if (partOf s p).snap.sink = n then snapEnd p .linkLost s else s) s₇ :=
    if_neg (by simpa [q] using h)
  have h₁ : SnapsKept s s₂ := SnapsKept.trans (t := s₁) (SnapsKept.foldl (fun _ _ => moverEnd_snapsKept _ _ _ _ _) _ _)
    ⟨rfl, rfl, rfl, fun _ => rfl⟩
  have h₃ : SnapsKept s₂ s₃ := iteInduction (motive := SnapsKept s₂) (fun _ => ⟨rfl, rfl, rfl, fun _ => rfl⟩) fun _ => SnapsKept.refl _
  have h₅ : SnapsKept s₄ s₅ := ⟨rfl, rfl, rfl, fun p => snap_tget_mapQueue _ _ _⟩
  have h₆ : SnapsKept s₅ s₆ := SnapsKept.foldl (fun _ _ => reportLost_snapsKept _ _) _ _
  have h₇ : SnapsKept s₆ s₇ := iteInduction (motive := SnapsKept s₆) (fun _ => snapsKept_cfg s₆ _) fun _ => SnapsKept.refl _
  have hbefore : SnapsKept s s₃ := h₁.trans h₃
  have hafter : SnapsKept s₄ s₇ := (h₅.trans h₆).trans h₇
  have hsnaps : ∀ p, (partOf s₇ p).snap = (partOf s p).snap := fun p => (hafter.snap p).trans (hbefore.snap p)
  obtain ⟨hmem, hfuses, hsess, hsnap⟩ := foldl_snapEnd_spec n .linkLost (List.range 16) s₇
  rw [← ht] at hmem hfuses hsess hsnap
  refine ⟨hmem.trans (hafter.mem.trans hbefore.mem), hfuses.trans (hafter.fuses.trans hbefore.fuses), ?_, fun p hp => ?_⟩
  · rw [hsess, hafter.sess, ← hbefore.sess]
    rfl
  · rw [hsnap p (by rwa [hsnaps]), hsnaps]

/-- How far a snapshot has come: where it goes, its next chunk, and what it has copied. -/
def copyOf (m : Snapshot) : Nat × Nat × Nat × Bytes := (m.sink, m.chunk, m.copied, m.plain)

/-- What handing datagrams to sessions keeps of a snapshot: memory and fuses; no session opens; and while the session
that the shard goes to is open, what the snapshot has copied. -/
structure CopyKept (p : Nat) (s t : State) : Prop where
  mem : t.mem = s.mem
  fuses : t.fuses = s.fuses
  phase : ∀ n, (sessOf t n).phase = .opened → (sessOf s n).phase = .opened
  copy : (sessOf t (partOf s p).snap.sink).phase = .opened → copyOf (partOf t p).snap = copyOf (partOf s p).snap

theorem CopyKept.refl (p : Nat) (s : State) : CopyKept p s s := ⟨rfl, rfl, fun _ h => h, fun _ => rfl⟩

theorem CopyKept.trans {p : Nat} {s t u : State} (h : CopyKept p s t) (h' : CopyKept p t u) : CopyKept p s u := by
  refine ⟨h'.mem.trans h.mem, h'.fuses.trans h.fuses, fun n hn => h.phase n (h'.phase n hn), fun hn => ?_⟩
  have ht := h.copy (h'.phase _ hn)
  have hsink : (partOf t p).snap.sink = (partOf s p).snap.sink := congrArg Prod.fst ht
  exact (h'.copy (hsink ▸ hn)).trans ht

theorem CopyKept.foldl {α : Type} {p : Nat} {f : State → α → State} (hf : ∀ s a, CopyKept p s (f s a)) (l : List α) :
    ∀ s, CopyKept p s (l.foldl f s) := by
  induction l with
  | nil => exact CopyKept.refl p
  | cons a l ih => exact fun s => (hf s a).trans (ih _)

theorem closeSession_copyKept (p n : Nat) (s : State) : CopyKept p s (closeSession n s) := by
  by_cases hclosed : (sessOf s n).phase = .closed
  · have : closeSession n s = s := by simp [closeSession, hclosed]
    rw [this]
    exact CopyKept.refl p s
  · obtain ⟨hmem, hfuses, hsess, hsnap⟩ := closeSession_spec n s hclosed
    have hphase : ∀ j, (sessOf (closeSession n s) j).phase = .opened → j ≠ n ∧ (sessOf s j).phase = .opened := by
      intro j hj
      rw [sessOf, hsess, tget_tset] at hj
      split at hj
      · cases hj
      · next hne => exact ⟨hne, hj⟩
    exact ⟨hmem, hfuses, fun j hj => (hphase j hj).2, fun hopen => congrArg copyOf (hsnap p (hphase _ hopen).1)⟩

/-- A session's entry that keeps its phase, and what leaves the device. -/
theorem setSess_copyKept (p n : Nat) (s : State) (q : Session) (o : List Emit) (h : q.phase = (sessOf s n).phase) :
    CopyKept p s { setSess s n q with out := o } := by
  refine ⟨rfl, rfl, fun j hj => ?_, fun _ => rfl⟩
  have e : sessOf { setSess s n q with out := o } j = if j = n then q else sessOf s j := tget_tset _ _ _ _ _
  rw [e] at hj
  split at hj
  · next hn => rwa [hn, ← h]
  · exact hj

theorem sendDgram_copyKept (p n : Nat) (d : Dgram) (s : State) : CopyKept p s (sendDgram n d s) := by
  simp only [sendDgram]
  split
  · exact CopyKept.refl p s
  · split
    · exact setSess_copyKept p n s { sessOf s n with txHold := (sessOf s n).txHold ++ [d] } s.out rfl
    · have hsent : ∀ l o, CopyKept p s
          { setSess s n { sessOf s n with txSeq := (sessOf s n).txSeq + 1, unacked := l } with out := o } :=
        fun l o => setSess_copyKept p n s _ o rfl
      split
      · exact (hsent _ _).trans (closeSession_copyKept p n _)
      · exact hsent _ _

theorem sendOn_copyKept (p n : Nat) (w : TxWhat) (e : Emit) (s : State) : CopyKept p s (sendOn n w e s) :=
  CopyKept.foldl (fun _ _ => sendDgram_copyKept _ _ _ _) _ _

theorem sendChunk_copyKept (p n : Nat) (w : TxWhat) (key : Bytes × Bytes) (sub : BitVec 256) (chunk : Bytes) (s : State) :
    CopyKept p s (sendChunk n w key sub chunk s) := by
  simp only [sendChunk, warnSeq]
  split
  · exact (sendDgram_copyKept _ _ _ _).trans (sendOn_copyKept _ _ _ _ _)
  · exact sendDgram_copyKept _ _ _ _

theorem shardSend_copyKept (p f : Nat) : ∀ s : State, CopyKept p s (shardSend p f s) := by
  induction f with
  | zero => exact CopyKept.refl p
  | succ f ih =>
    intro s
    rw [shardSend]
    dsimp only
    refine iteInduction (motive := CopyKept p s) (fun _ => CopyKept.refl p s) fun _ => ?sent
    case sent =>
      refine CopyKept.trans ?_ ((sendChunk_copyKept _ _ _ _ _ _ _).trans (ih _))
      refine ⟨rfl, rfl, fun _ h => h, fun _ => ?_⟩
      rw [partOf_setPart_self]
      rfl

theorem shardSend_paused (p f : Nat) (s : State) (h : classPaused s 3 = true) : shardSend p f s = s := by
  cases f with
  | zero => rfl
  | succ f => simp [shardSend, h]

theorem copyOf_endShard (m : Snapshot) : copyOf (endShard m) = copyOf m := by
  simp only [endShard]
  split
  · rfl
  · rfl

theorem exec_snapshotChunk (part : BitVec 4) (s : State) : exec (.snapshotChunk part) s = execSnapshotChunk part s := rfl

section
/-! The snapshot n of a partition under an ACTIVE charter copies, and its shard is not yet whole. -/
variable {s : State} {part : BitVec 4} {ch : Charter} {n : Snapshot} (hn : (partOf s part.toNat).snap = n)
  (hcopying : n.state = .copying) (hsent : n.sentAll = false) (hch : activeCharter s part.toNat = some ch)
include hn hcopying hsent hch

/-- A chunk that does not pass ends the snapshot (R388, R395). -/
theorem exec_snapshotChunk_fails {i off len : Nat} (hchunk : (allChunks n.ranges)[n.chunk]? = some (i, off, len))
    (hbad : chunkStatus s part.toNat ch n i (n.ranges.getD i (0, 0, 0, 0)) off len ≠ .ok) :
    Completes (.snapshotChunk part) s (fun t =>
      (partOf t part.toNat).snap = { ({} : Snapshot) with stallNs := n.stallNs } ∧ t.mem = s.mem ∧ t.sess = s.sess) := by
  have hexec := exec_snapshotChunk part s
  simp only [execSnapshotChunk, hn, hcopying, hsent, hch, hchunk] at hexec
  generalize hk : n.ranges.getD i (0, 0, 0, 0) = k at hbad hexec
  have hslot := slotRefused_snapsKept s part.toNat ch n i k off len
  have hend := snapEnd_spec part.toNat (chunkStatus s part.toNat ch n i k off len) _ (by rw [hslot.snap, hn, hcopying]; decide)
  refine ⟨_, hexec, ?_, hend.mem.trans hslot.mem, hend.sess.trans hslot.sess⟩
  rw [hend.snap, partOf_setPart_self, hslot.snap, hn]

/-- A chunk whose slots pass joins the shard (R388, R389). -/
theorem exec_snapshotChunk_passes {i off len : Nat} (hchunk : (allChunks n.ranges)[n.chunk]? = some (i, off, len))
    (hok : chunkStatus s part.toNat ch n i (n.ranges.getD i (0, 0, 0, 0)) off len = .ok) :
    Completes (.snapshotChunk part) s (fun t => t.mem = s.mem ∧ t.fuses = s.fuses ∧
      ((sessOf t n.sink).phase = .opened → (partOf t part.toNat).snap.chunk = n.chunk + 1 ∧
        (partOf t part.toNat).snap.copied = n.copied + len ∧
        (partOf t part.toNat).snap.plain = n.plain ++ chunkBytes s n i (n.ranges.getD i (0, 0, 0, 0)) off len)) := by
  have hexec := exec_snapshotChunk part s
  simp only [execSnapshotChunk, hn, hcopying, hsent, hch, hchunk, hok] at hexec
  generalize chunkBytes s n i (n.ranges.getD i (0, 0, 0, 0)) off len = b at hexec ⊢
  generalize hm : addChunk n i off len (crWidth (n.ranges.getD i (0, 0, 0, 0))) b = m at hexec
  have hcopy : copyOf (endShard m) = (n.sink, n.chunk + 1, n.copied + len, n.plain ++ b) := by
    rw [copyOf_endShard, ← hm]
    rfl
  have hkept := shardSend_copyKept part.toNat ((endShard m).bytes.length / 64 + 2)
    (setPart s part.toNat { partOf s part.toNat with snap := endShard m })
  have hsink : (endShard m).sink = n.sink := congrArg Prod.fst hcopy
  refine ⟨_, hexec, hkept.mem, hkept.fuses, fun hopen => ?_⟩
  have hall := hkept.copy
  rw [partOf_setPart_self] at hall
  have hprogress := (hall (hsink ▸ hopen)).trans hcopy
  simp only [copyOf, Prod.mk.injEq] at hprogress
  exact hprogress.2

/-- Behind the last chunk the shard goes on to its session, as far as that takes it. -/
theorem exec_snapshotChunk_behind (hchunk : (allChunks n.ranges)[n.chunk]? = none) :
    Completes (.snapshotChunk part) s (fun t => t.mem = s.mem ∧ t.fuses = s.fuses ∧ (classPaused s 3 = true → t = s)) := by
  have hexec := exec_snapshotChunk part s
  simp only [execSnapshotChunk, hn, hcopying, hsent, hch, hchunk] at hexec
  have hkept := shardSend_copyKept part.toNat (n.bytes.length / 64 + 2) s
  exact ⟨_, hexec, hkept.mem, hkept.fuses, shardSend_paused _ _ _⟩

end

/-! ## The obligation -/

/-- The checks of a cut's moment and claims pass where its conditions hold. -/
theorem cutClaims_pass {s : State} {body : Bytes} {p : Nat} {ch : Charter} (hbanks : be body 36 1 = 0 → chBanks ch.doc = true)
    (hsealed : ∀ x ∈ cutRanges body, sealedWith s (bankCtx s p) rREAD (crBase x) (crLen x) = true)
    (hidle : (partOf s p).snap.state = .idle) (hctx : ctxsOf s p ≠ [])
    (hfence : ∀ c ∈ ctxsOf s p, (ctxOf s c).state ≠ .fencing ∧ (ctxOf s c).state ≠ .fenced)
    (hmoment : cutAtGate s p (be body 24 4) = true ∨ cutOnCommit s p ch (be body 36 1) (be body 24 4) = true)
    (hpush : pushClaim s p = true) (hplace : (placeArea s p (stagingBytes (be body 32 4) (cutCopied body ch))).isSome = true) :
    AllPass (cutClaims s body p ch) := by
  simp only [cutClaims, AllPass, List.mem_cons, List.not_mem_nil, or_false, forall_eq_or_imp, forall_eq]
  refine ⟨?fenced, ?banks, ?region, ?moment, ?area⟩
  case fenced => simpa using hfence
  case banks => simpa using hbanks
  case region => simpa using hsealed
  case moment => rcases hmoment with h | h <;> simp [hidle, hctx, hpush, h]
  case area => simpa using hplace

/-- Settles O52: the cut's checks pass under its conditions and its start arms the snapshot; each of the six opcodes is `ckptOp`, which
refuses without a charter that allows it; a chunk ends the snapshot or joins its shard, which its session takes on. -/
theorem checkpointCopy : Obligations.CheckpointCopy := by
  refine ⟨?cut, fun s p e h => cutAtGate_spec h, fun s r body p ch h => exec_ckptCut_fenced h, ?conflict, ?denied, ?chunk, ?idle, ?behind⟩
  case cut =>
    intro s r body p ch n listed ranges hunder hmode hopen hfab h1 h6 h37 hidx hcnt hn hstaging hbanks hlisted hmeet hidle hctx hfence
      hmoment hpush hplace hz
    have hformed : CkptFormed s r body 0x0120 := by
      obtain ⟨-, hlen, -⟩ := hunder
      refine ⟨fun _ => ⟨hlen, hopen, by simp [isFabric, hfab], h1, h6, h37, hidx, hcnt, hn, hstaging, fun x hx => ?_, hmeet⟩,
        by simp, by simp, by simp, by simp⟩
      obtain ⟨hbase, hwidth, hslot, h0, hF, -⟩ := hlisted x hx
      exact ⟨hbase, hwidth, hslot, h0, hF⟩
    have hsealed : ∀ x ∈ cutRanges body, sealedWith s (bankCtx s p) rREAD (crBase x) (crLen x) = true := fun x hx => by
      obtain ⟨-, -, -, -, -, h⟩ := hlisted x hx
      exact h
    exact exec_ckptCut_accepted hunder hmode (cutFields_pass hformed)
      (cutClaims_pass hbanks hsealed hidle hctx hfence hmoment hpush hplace) hz
  case conflict =>
    intro i op hop s r body hs hlt hen hformed hch
    obtain ⟨lenOk, pre, checks, act, hexec, hpass, -⟩ := exec_ckptOp hop body hs
    obtain ⟨hlen, hpre⟩ := hpass hformed
    obtain ⟨x, hx⟩ := ckptOp_conflict (op := op) (checks := checks) (act := act) hs hlt hen hch hlen hpre
    exact ⟨_, hexec.trans (congrArg _ hx), refusal_answered op .conflict x hs.1⟩
  case denied =>
    intro i op hop s r body ch hs hch hmode
    obtain ⟨lenOk, pre, checks, act, hexec, -, hlate⟩ := exec_ckptOp hop body hs
    obtain ⟨x, hx⟩ := ckptOp_denied (op := op) (lenOk := lenOk) (act := act) hs hch hmode (hlate _ ch)
    exact ⟨_, hexec.trans (congrArg _ hx), refusal_answered op .denied x hs.1⟩
  case chunk =>
    intro s part ch i off len p n k hcopying hsent hch hchunk
    exact ⟨exec_snapshotChunk_fails rfl hcopying hsent hch hchunk, exec_snapshotChunk_passes rfl hcopying hsent hch hchunk⟩
  case idle =>
    intro s part h
    rw [exec_snapshotChunk, execSnapshotChunk]
    exact if_pos (by simp [h])
  case behind =>
    intro s part ch n hcopying hsent hch hchunk
    exact exec_snapshotChunk_behind rfl hcopying hsent hch hchunk

end Sys2Proof.Machine
end

section
/-! PROOF. Operating life (chapter 14): the operator's messages of the management port. A served message ends in its answer, which adds
to the session table and to what has left the device; the port's new settings close its sessions behind the answer. -/

namespace Sys2Proof.Machine

/-! ## A message of the management port (R403) -/

section
variable {s : State} {r : Req} {i : Instr} {op : Nat} {lenOk : Bool} {checks : List Check} {act : State → State}
  {post : State → Prop}

/-- An operator's message on the management port runs at once, on the state that it finds. -/
theorem arrives_mgmtReq (f : State → State) (h : Served s r .o) (hp : r.port = .mgmt) :
    arrives i r s (mgmtReq r op f) = .next (f s) := by
  rw [arrives_admitted _ _ _ _ _ h.1, mgmtReq_of_mgmt _ _ _ _ hp]

/-- An answer from a state with the sessions of the one that took the request changes the session table and what has left the
device only. -/
theorem respond_frame_of_taken {rt : Rights} (h : Admitted s r rt) {u : State} (hu : u.sess = (taken s r).sess) (op : Nat) (st : Status)
    {body : Bytes} (hb : body.length < 2 ^ 40) : ∃ q o, respond r op st body u = { u with sess := q, out := o } := by
  obtain ⟨-, -, -, hseq⟩ := taken_frame s r h.1
  have hsame : (sessOf u r.sess).txSeq = (sessOf s r.sess).txSeq := by rw [← hseq, sessOf, hu, sessOf]
  have hlt := h.txSeq_lt
  exact respondAt_frame r op st 0 body u (by omega)

/-- A message whose checks pass is carried out, and completes with the state that it answers from. -/
theorem completes_served (h : Served s r .o) (hexec : exec i s = .next (request s r op .o lenOk checks act)) (hlen : lenOk = true)
    (hpass : AllPass checks)
    (hact : ∀ q o, ∃ op st body u, act { s with sess := q, out := o } = respond r op st body u ∧ u.sess = q ∧
      body.length < 2 ^ 40 ∧ ∀ q' o', post { u with sess := q', out := o' }) : Completes i s post := by
  obtain ⟨q, o, ht, -⟩ := taken_frame s r h.1.1
  obtain ⟨op, st, body, u, hu, hsess, hb, hpost⟩ := hact q o
  obtain ⟨q', o', hr⟩ := respond_frame_of_taken h.1 (hsess.trans (congrArg State.sess ht.symm)) op st hb
  refine ⟨_, hexec, ?_⟩
  rw [request_served s r _ .o lenOk checks act h hlen hpass, ht, hu, hr]
  exact hpost q' o'

/-- A message that fails a check of its own, its first, is answered with that check's code, and changes nothing but its context's
count of refusals. -/
theorem completes_refused (h : Served s r .o) (hexec : exec i s = .next (request s r op .o lenOk checks act)) (hlen : lenOk = true)
    {c : Check} (hc : c ∈ checks) (hf : c.fails = true) (hmin : ∀ d ∈ checks, d.fails = true → c.order < d.order ∨ d.code = c.code)
    (hpost : ∀ x q o, let t : State := { s with ctxs := x, sess := q, out := o }; Answered s t r op c.code 0 [] → post t) :
    Completes i s post := by
  obtain ⟨x, hx⟩ := request_refused act h hc hf (.inl hlen) hmin
  obtain ⟨q, o, ht, -⟩ := taken_frame s r h.1.1
  obtain ⟨q', o', hr⟩ := respond_frame_of_taken h.1 (u := { taken s r with ctxs := x }) rfl op c.code (body := []) (by simp)
  obtain ⟨-, -, -, -, hans⟩ := refusal_answered op c.code x h.1
  refine ⟨_, hexec, ?_⟩
  rw [hr, ht] at hans
  rw [hx, hr, ht]
  exact hpost x q' o' hans

end

theorem lenMin_of_le {r : Req} {body : Bytes} {n : Nat} (hle : n ≤ body.length) (h : r.bodyLen.toNat = body.length) :
    lenMin r body n = true := by
  simp [lenMin, hle, h]

/-! ## The fault log and retired links (R263, R403, R427) -/

/-- An answer holds at most 2,047 entries (log entry 97: the model's choice). -/
theorem exec_faultLogRead_served (s : State) (r : Req) (body : Bytes) (h : Served s r .o) (hp : r.port = .mgmt)
    (hl : HasLength r body 6) (hfirst : be body 0 4 < 4096) (hmost : be body 4 2 < 0xFFFF) :
    exec (.faultLogRead r body) s = .next (respond r 0x0306 .ok
      (((s.nvm.faultLog.drop (be body 0 4)).take (natMin (be body 4 2) 2047)).flatMap faultBytes) (taken s r)) := by
  obtain ⟨q, o, ht, -⟩ := taken_frame s r h.1.1
  show execFaultLogRead r body s = _
  rw [execFaultLogRead, arrives_mgmtReq _ h hp, request_served _ _ _ _ _ _ _ h (lenIs_of_hasLength hl)
    (by simp [hfirst, Nat.ne_of_lt hmost]), ht]

/-- A change of a link's state changes that link and sends two events. -/
theorem linkMove_frame (l : Nat) (new_ : LinkState) (cause : Nat) (s : State) :
    ∃ o d k, linkMove l new_ cause s = { s with
      links := tset s.links l { linkOf s l with state := new_, cause := BitVec.ofNat 8 cause }, out := o, devQueue := d,
      mgmt := { s.mgmt with queue := k } } := by
  obtain ⟨d, k, e⟩ := postDev_frame 0x0010 _ _
  exact ⟨_, d, k, e⟩

theorem exec_linkUnretire_served (s : State) (r : Req) (body : Bytes) (h : Served s r .o) (hp : r.port = .mgmt)
    (hl : HasLength r body 1) (hlt : be body 0 1 < 32) (hret : linkSt s (be body 0 1) = .retired) :
    Completes (.linkUnretire r body) s (fun t => (linkOf t (be body 0 1)).state = .down ∧ bit t.nvm.retiredLks (be body 0 1) = false ∧
      t.mem = s.mem ∧ t.fuses = s.fuses ∧ t.keys = s.keys) := by
  refine completes_served h (arrives_mgmtReq _ h hp) (lenIs_of_hasLength hl) (by simp [AllPass, hlt, hret]) fun q o => ?_
  obtain ⟨o', d, k, e⟩ := linkMove_frame (be body 0 1) .down 0 _
  refine ⟨_, _, _, _, congrArg (respond r 0x0307 .ok []) e, rfl, by simp, fun q' o' => ⟨?_, ?_, rfl, rfl, rfl⟩⟩
  · exact congrArg Link.state (tget_tset_self _ _ _ _)
  · simp [setLink, bit_setBit]

/-! ## Sessions that end (R304, R309) -/

theorem foldl_keeps {α β : Type} (g : State → β) {f : State → α → State} (hf : ∀ s a, g (f s a) = g s) (l : List α) :
    ∀ s, g (l.foldl f s) = g s := by
  induction l with
  | nil => exact fun _ => rfl
  | cons a l ih => exact fun s => (ih _).trans (hf s a)

@[simp] theorem setQueue_nvm (s : State) (q : Nat) (k : EventQueue) : (setQueue s q k).nvm = s.nvm := by
  unfold setQueue
  split
  · rfl
  · split
    · rfl
    · rfl

@[simp] theorem postTo_nvm (q code ctx gen : Nat) (body : Bytes) (s : State) : (postTo q code ctx gen body s).nvm = s.nvm := by
  simp only [postTo]
  split
  · exact setQueue_nvm _ _ _
  · exact setQueue_nvm _ _ _

theorem reportLost_nvm (q : Nat) (s : State) : (reportLost q s).nvm = s.nvm := by
  simp only [reportLost]
  split
  · rfl
  · simp

theorem snapEnd_nvm (p : Nat) (st : Status) (s : State) : (snapEnd p st s).nvm = s.nvm := by
  simp only [snapEnd]
  split
  · rfl
  · simp [postDev]

theorem moverEnd_nvm (ctx core mover : Nat) (st : Status) (s : State) : (moverEnd ctx core mover st s).nvm = s.nvm := by
  simp only [moverEnd, modMover]
  split
  · rfl
  · split
    · rfl
    · rfl

theorem closeSession_nvm (n : Nat) (s : State) : (closeSession n s).nvm = s.nvm := by
  unfold closeSession
  extract_lets q pushes s₁ s₂ s₃ s₄ m s₅ s₆ c s₇
  have h₁ : s₁.nvm = s.nvm := foldl_keeps State.nvm (fun _ _ => moverEnd_nvm _ _ _ _ _) _ _
  have h₃ : s₃.nvm = s₂.nvm := iteInduction (motive := fun u : State => u.nvm = s₂.nvm) (fun _ => rfl) fun _ => rfl
  have h₆ : s₆.nvm = s₅.nvm := foldl_keeps State.nvm (fun _ _ => reportLost_nvm _ _) _ _
  have h₇ : s₇.nvm = s₆.nvm := by
    clear_value s₆
    exact iteInduction (motive := fun u : State => u.nvm = s₆.nvm) (fun _ => rfl) fun _ => rfl
  have hsnap : ∀ (s : State) (p : Nat), (if (partOf s p).snap.sink = n then snapEnd p .linkLost s else s).nvm = s.nvm := fun s p =>
    iteInduction (motive := fun u : State => u.nvm = s.nvm) (fun _ => snapEnd_nvm _ _ _) fun _ => rfl
  refine iteInduction (motive := fun u : State => u.nvm = s.nvm) (fun _ => rfl) fun _ => ?_
  exact (foldl_keeps State.nvm hsnap _ _).trans (h₇.trans (h₆.trans (h₃.trans h₁)))

/-- Sessions send or end: memory, fuses and non-volatile memory are as before, and a session that is not closed was not closed
before, on the same port. -/
structure SessionsRun (s t : State) : Prop where
  mem : t.mem = s.mem
  fuses : t.fuses = s.fuses
  nvm : t.nvm = s.nvm
  live : ∀ n, (sessOf t n).phase ≠ .closed → (sessOf s n).phase ≠ .closed ∧ (sessOf t n).port = (sessOf s n).port

theorem SessionsRun.refl (s : State) : SessionsRun s s := ⟨rfl, rfl, rfl, fun _ h => ⟨h, rfl⟩⟩

theorem SessionsRun.trans {s t u : State} (h : SessionsRun s t) (h' : SessionsRun t u) : SessionsRun s u := by
  refine ⟨h'.mem.trans h.mem, h'.fuses.trans h.fuses, h'.nvm.trans h.nvm, fun n hn => ?_⟩
  obtain ⟨ht, hport'⟩ := h'.live n hn
  obtain ⟨hs, hport⟩ := h.live n ht
  exact ⟨hs, hport'.trans hport⟩

theorem SessionsRun.foldl {α : Type} {f : State → α → State} (hf : ∀ s a, SessionsRun s (f s a)) (l : List α) :
    ∀ s, SessionsRun s (l.foldl f s) := by
  induction l with
  | nil => exact SessionsRun.refl
  | cons a l ih => exact fun s => (hf s a).trans (ih _)

/-- A session's entry that keeps its phase and port, and what leaves the device. -/
theorem setSess_sessionsRun (n : Nat) (s : State) (q : Session) (o : List Emit) (hphase : q.phase = (sessOf s n).phase)
    (hport : q.port = (sessOf s n).port) : SessionsRun s { setSess s n q with out := o } := by
  refine ⟨rfl, rfl, rfl, fun j hj => ?_⟩
  have e : sessOf { setSess s n q with out := o } j = if j = n then q else sessOf s j := tget_tset _ _ _ _ _
  rw [e] at hj ⊢
  split at hj
  · next hn => exact ⟨by rwa [hn, ← hphase], by rw [if_pos hn, hn, hport]⟩
  · next hn => exact ⟨hj, by rw [if_neg hn]⟩

/-- A session that closes is closed, and no other opens. -/
theorem closeSession_sessionsRun (n : Nat) (s : State) :
    SessionsRun s (closeSession n s) ∧ (sessOf (closeSession n s) n).phase = .closed := by
  by_cases hclosed : (sessOf s n).phase = .closed
  · have e : closeSession n s = s := by simp [closeSession, hclosed]
    rw [e]
    exact ⟨SessionsRun.refl s, hclosed⟩
  · obtain ⟨hmem, hfuses, hsess, -⟩ := closeSession_spec n s hclosed
    have e : ∀ j, sessOf (closeSession n s) j = if j = n then sessionReset else sessOf s j := fun j => by
      rw [sessOf, hsess]
      exact tget_tset _ _ _ _ _
    refine ⟨⟨hmem, hfuses, closeSession_nvm n s, fun j hj => ?_⟩, by rw [e, if_pos rfl]; rfl⟩
    rw [e] at hj ⊢
    split at hj
    · exact absurd rfl hj
    · next hne => exact ⟨hj, by rw [if_neg hne]⟩

theorem sendDgram_sessionsRun (n : Nat) (d : Dgram) (s : State) : SessionsRun s (sendDgram n d s) := by
  simp only [sendDgram]
  split
  · exact SessionsRun.refl s
  · split
    · exact setSess_sessionsRun n s { sessOf s n with txHold := (sessOf s n).txHold ++ [d] } s.out rfl rfl
    · have hsent : ∀ l o, SessionsRun s
          { setSess s n { sessOf s n with txSeq := (sessOf s n).txSeq + 1, unacked := l } with out := o } :=
        fun l o => setSess_sessionsRun n s _ o rfl rfl
      split
      · exact (hsent _ _).trans (closeSession_sessionsRun n _).1
      · exact hsent _ _

theorem sendOn_sessionsRun (n : Nat) (w : TxWhat) (e : Emit) (s : State) : SessionsRun s (sendOn n w e s) :=
  SessionsRun.foldl (fun _ _ => sendDgram_sessionsRun _ _ _) _ _

theorem respond_sessionsRun (r : Req) (op : Nat) (st : Status) (body : Bytes) (s : State) :
    SessionsRun s (respond r op st body s) := by
  simp only [respond, respondAt, sendDatagram, warnSeq]
  split
  · exact (sendOn_sessionsRun _ _ _ _).trans (sendOn_sessionsRun _ _ _ _)
  · exact sendOn_sessionsRun _ _ _ _

theorem taken_sessionsRun {s : State} {r : Req} (h : InTurn s r) : SessionsRun s (taken s r) := by
  obtain ⟨a, l, k, o, e⟩ := taken_spec s r h
  rw [e]
  exact setSess_sessionsRun r.sess s { sessOf s r.sess with rxSeq := a, rxMap := l, rxSince := k } _ rfl rfl

theorem foldl_closeSession_spec (l : Tbl Session) : ∀ s : State, let t := l.foldl (fun s e => closeSession e.1 s) s
    SessionsRun s t ∧ ∀ e ∈ l, (sessOf t e.1).phase = .closed := by
  induction l with
  | nil => exact fun s => ⟨SessionsRun.refl s, by simp⟩
  | cons e l ih =>
    intro s
    obtain ⟨hrun, hclosed⟩ := closeSession_sessionsRun e.1 s
    obtain ⟨hrun', hclosed'⟩ := ih (closeSession e.1 s)
    refine ⟨hrun.trans hrun', List.forall_mem_cons.2 ⟨?_, hclosed'⟩⟩
    exact Classical.byContradiction fun hn => (hrun'.live e.1 hn).1 hclosed

/-- An entry that a table holds; an index that it does not list reads as the reset value. -/
theorem tget_mem_or_reset {α : Type} (d : α) (t : Tbl α) (k : Nat) : (k, tget d t k) ∈ t ∨ tget d t k = d := by
  induction t with
  | nil => exact .inr rfl
  | cons e t ih =>
    obtain ⟨i, v⟩ := e
    simp only [tget]
    split
    · next h => exact .inl (by simp [h])
    · exact ih.imp_left (List.mem_cons_of_mem _)

/-- Every session that satisfies p is closed. -/
theorem closeSessions_spec (p : Nat → Session → Bool) (s : State) :
    SessionsRun s (closeSessions p s) ∧ ∀ n, p n (sessOf s n) = true → (sessOf (closeSessions p s) n).phase = .closed := by
  obtain ⟨hrun, hclosed⟩ := foldl_closeSession_spec (s.sess.filter (fun e => p e.1 e.2 && e.2.phase != .closed)) s
  refine ⟨hrun, fun n hn => Classical.byContradiction fun hopen => ?_⟩
  have hphase := (hrun.live n hopen).1
  rcases tget_mem_or_reset sessionReset s.sess n with hmem | hreset
  · exact hopen (hclosed _ (List.mem_filter.2 ⟨hmem, Bool.and_eq_true_iff.2 ⟨hn, bne_iff_ne.2 hphase⟩⟩))
  · exact hphase (congrArg Session.phase hreset)

/-! ## The port's settings and its link (R401) -/

/-- New settings of the port, which Config reads from the body (log entry 98: the model's choice), apply behind the answer. -/
theorem exec_mgmtNetSet_applies {s : State} {r : Req} {body : Bytes} {m : MgNet} (h : Served s r .o) (hp : r.port = .mgmt)
    (hl : r.bodyLen.toNat = body.length) (hm : Config.netSettings body = some m) (hok : netOk m = true) :
    Completes (.mgmtNetSet r body) s (fun t => t.nvm.mgNet = m ∧ t.mgmt.up = false ∧
      (∀ n, (sessOf s n).port = .mgmt → (sessOf t n).phase = .closed) ∧ t.fuses = s.fuses ∧ t.mem = s.mem) := by
  have hany : (Config.netSettings body).any netOk = true := by simp [hm, hok]
  have hexec : exec (.mgmtNetSet r body) s = execMgmtNetSet r body s := rfl
  rw [execMgmtNetSet, arrives_mgmtReq _ h hp, request_served _ _ _ _ _ _ _ h (lenMin_of_le (Nat.zero_le _) hl) (by simp [hany])] at hexec
  simp only [hm] at hexec
  generalize hu : respond r 0x0308 .ok [] (taken s r) = u at hexec
  have hrun : SessionsRun s u := hu ▸ (taken_sessionsRun h.1.1).trans (respond_sessionsRun _ _ _ _ _)
  obtain ⟨hend, hclosed⟩ := closeSessions_spec (fun _ q => q.port == .mgmt) { u with nvm := { u.nvm with mgNet := m } }
  refine ⟨_, hexec, congrArg Nvm.mgNet hend.nvm, rfl, fun n hn => ?_, hend.fuses.trans hrun.fuses, hend.mem.trans hrun.mem⟩
  refine Classical.byContradiction fun hopen => hopen (hclosed n ?_)
  have hport := (hrun.live n (hend.live n hopen).1).2
  exact beq_iff_eq.2 (hport.trans hn)

/-- Settings that are not of R401's values are refused. -/
theorem exec_mgmtNetSet_refused {s : State} {r : Req} {body : Bytes} (h : Served s r .o) (hp : r.port = .mgmt)
    (hl : r.bodyLen.toNat = body.length) (hbad : (Config.netSettings body).any netOk = false) :
    Completes (.mgmtNetSet r body) s (fun t => t.nvm.mgNet = s.nvm.mgNet ∧ t.mgmt.up = s.mgmt.up ∧ t.fuses = s.fuses ∧ t.mem = s.mem) :=
  completes_refused (c := ⟨5, _, .badDescriptor⟩) h (arrives_mgmtReq _ h hp) (lenMin_of_le (Nat.zero_le _) hl) List.mem_cons_self
    (by simp [hbad]) (by simp) fun _ _ _ _ => ⟨rfl, rfl, rfl, rfl⟩

theorem exec_mgmtNetSet_served (s : State) (r : Req) (body : Bytes) (h : Served s r .o) (hp : r.port = .mgmt)
    (hl : r.bodyLen.toNat = body.length) :
    Completes (.mgmtNetSet r body) s (fun t =>
      (∀ m, Config.netSettings body = some m → netOk m = true → t.nvm.mgNet = m ∧ t.mgmt.up = false ∧
        (∀ n, (sessOf s n).port = .mgmt → (sessOf t n).phase = .closed)) ∧
      ((Config.netSettings body).any netOk = false → t.nvm.mgNet = s.nvm.mgNet ∧ t.mgmt.up = s.mgmt.up) ∧ t.fuses = s.fuses ∧
        t.mem = s.mem) := by
  cases hany : (Config.netSettings body).any netOk with
  | true =>
    obtain ⟨m, hm, hok⟩ := (Option.any_eq_true _ _).1 hany
    obtain ⟨t, ht, hnet, hup, hclosed, hfuses, hmem⟩ := exec_mgmtNetSet_applies h hp hl hm hok
    refine ⟨t, ht, fun m' hm' _ => ?_, by simp, hfuses, hmem⟩
    obtain rfl := Option.some.inj (hm.symm.trans hm')
    exact ⟨hnet, hup, hclosed⟩
  | false =>
    obtain ⟨t, ht, hnet, hup, hfuses, hmem⟩ := exec_mgmtNetSet_refused h hp hl hany
    refine ⟨t, ht, fun m hm hok => ?_, fun _ => ⟨hnet, hup⟩, hfuses, hmem⟩
    simp [hm, hok] at hany

theorem bootHalted_of_fwRuns {s : State} (h : fwRuns s = true) : bootHalted s = false := by
  simp only [fwRuns, Bool.and_eq_true, Bool.or_eq_true, beq_iff_eq] at h
  obtain ⟨-, (h | h) | h⟩ := h <;> simp [bootHalted, h]

theorem exec_mgmtPortLinkUp_runs (s : State) (m : Byte) (hup : s.mgmt.up = false) (hfw : fwRuns s = true) (hm : m = 1 ∨ m = 2)
    (hmode : s.nvm.mgNet.mode = 0 ∨ s.nvm.mgNet.mode.toNat = m.toNat) :
    exec (.mgmtPortLinkUp m) s = .next { s with mgmt := { s.mgmt with up := true, mode := m } } := by
  have hin : m.toNat ≠ 0 ∧ m.toNat ≤ 2 := by rcases hm with rfl | rfl <;> decide
  have hforce : (s.nvm.mgNet.mode.toNat == 0 || s.nvm.mgNet.mode.toNat == m.toNat) = true := by
    rcases hmode with h | h <;> simp [h]
  show execMgmtPortLinkUp m s = _
  simp only [execMgmtPortLinkUp, mgMode, mgSettings, bootHalted_of_fwRuns hfw, Bool.false_eq_true, if_false, hforce]
  rw [if_neg (by simp [hup, hfw, hin])]

/-- In BOOT_HALT the port is in mode 2 whatever its settings are (R56, R401). -/
theorem exec_mgmtPortLinkUp_halted (s : State) (hup : s.mgmt.up = false) (hh : bootHalted s = true) :
    exec (.mgmtPortLinkUp 2) s = .next { s with mgmt := { s.mgmt with up := true, mode := 2 } } ∧
      exec (.mgmtPortLinkUp 1) s = .next s := by
  have hmode : mgMode s = 2 := by simp [mgMode, mgSettings, hh]
  constructor
  · show execMgmtPortLinkUp 2 s = _
    simp [execMgmtPortLinkUp, hup, hh, hmode]
  · show execMgmtPortLinkUp 1 s = _
    simp [execMgmtPortLinkUp, hmode]

/-- The port's link goes down without an end of its sessions (log entry 98: the model's choice). -/
theorem exec_mgmtPortLinkDown_up (s : State) (hup : s.mgmt.up = true) :
    exec .mgmtPortLinkDown s = .next { s with mgmt := { s.mgmt with up := false, mode := 0 } } := by
  show execMgmtPortLinkDown s = _
  rw [execMgmtPortLinkDown, if_pos hup]

/-! ## Staging (R408) -/

theorem exec_fwStageBegin_served (s : State) (r : Req) (body : Bytes) (h : Served s r .o) (hp : r.port = .mgmt)
    (hl : HasLength r body 5) (hslot : be body 0 1 ≤ 1) (hidle : be body 0 1 ≠ s.boot.source.toNat) (hpos : 0 < be body 1 4)
    (hmax : be body 1 4 ≤ 0x04000000) :
    Completes (.fwStageBegin r body) s (fun t => t.nvm.stageSlot = some (be body 0 1, be body 1 4, 0) ∧
      t.nvm.flash = mzero s.nvm.flash (be body 0 1 * 0x04000000) 0x04000000 ∧ t.mem = s.mem ∧ t.fuses = s.fuses ∧ t.boot = s.boot) :=
  completes_served h (arrives_mgmtReq _ h hp) (lenIs_of_hasLength hl) (by simp [AllPass, hslot, hidle, hmax])
    fun _ _ => ⟨_, _, _, _, if_neg (Nat.ne_of_gt hpos), rfl, by simp, fun _ _ => ⟨rfl, rfl, rfl, rfl, rfl⟩⟩

theorem exec_fwStageData_served (s : State) (r : Req) (body : Bytes) (n len done : Nat) (h : Served s r .o) (hp : r.port = .mgmt)
    (hmin : 4 ≤ body.length) (hl : r.bodyLen.toNat = body.length) (hstage : s.nvm.stageSlot = some (n, len, done))
    (hoff : be body 0 4 = done) (hmax : body.length - 4 ≤ 32768) (hend : done + (body.length - 4) ≤ len) :
    Completes (.fwStageData r body) s (fun t => t.nvm.stageSlot = some (n, len, done + (body.length - 4)) ∧
      t.nvm.flash = mwrite s.nvm.flash (n * 0x04000000 + done) ((body.drop 4).map (· ^^^ 0xFF)) ∧ t.mem = s.mem ∧
      t.fuses = s.fuses) := by
  refine completes_served h (arrives_mgmtReq _ h hp) (lenMin_of_le hmin hl) ?_
    fun _ _ => ⟨_, _, _, _, rfl, rfl, by simp, fun _ _ => ⟨?_, ?_, rfl, rfl⟩⟩
  · simpa [AllPass, hstage, hoff] using ⟨by omega, hend⟩
  · simp [hstage]
  · simp [flashWrite, slotBase, hstage, hoff]

/-- What the end of staging makes of slot n before it answers, by the cause that its check found. -/
def stageEnded (n cause : Nat) (s : State) : State :=
  let s := { s with nvm := { s.nvm with stageSlot := none } }
  if cause = 0 then { s with nvm := { s.nvm with staged := some n } } else eraseSlot n s

theorem stageEnded_frame (n cause : Nat) (s : State) : ∃ v, stageEnded n cause s = { s with nvm := v } ∧ v.stageSlot = none ∧
    (cause = 0 → v.staged = some n ∧ v.flash = s.nvm.flash) ∧
    (cause ≠ 0 → v.staged = s.nvm.staged ∧ v.flash = mzero s.nvm.flash (n * 0x04000000) 0x04000000) := by
  simp only [stageEnded]
  split
  · next h => exact ⟨_, rfl, rfl, fun _ => ⟨rfl, rfl⟩, fun hn => absurd h hn⟩
  · next h => exact ⟨_, rfl, rfl, fun hn => absurd hn h, fun _ => ⟨rfl, rfl⟩⟩

/-- The answer of the end of staging: the cause, and what the slot's manifest says. -/
def stageReport (n cause : Nat) (s : State) : Bytes :=
  bytesBE 1 cause ++ bytesBE 4 (mfVersion (manifestOf s n)) ++ bytesBE 4 (mfSvn (manifestOf s n)) ++
    digestBytes (Config.sha512 (manifestOf s n))

theorem exec_fwStageEnd_served (s : State) (r : Req) (body : Bytes) (n len done : Nat) (h : Served s r .o) (hp : r.port = .mgmt)
    (hl : HasLength r body 0) (hstage : s.nvm.stageSlot = some (n, len, done)) :
    Completes (.fwStageEnd r body) s (fun t => t.nvm.stageSlot = none ∧ t.fuses = s.fuses ∧ t.mem = s.mem ∧
      (slotCheck (taken s r) n (slotXspi s n) = 0 → t.nvm.staged = some n ∧ t.nvm.flash = s.nvm.flash) ∧
      (slotCheck (taken s r) n (slotXspi s n) ≠ 0 → t.nvm.staged = s.nvm.staged ∧
        t.nvm.flash = mzero s.nvm.flash (n * 0x04000000) 0x04000000)) := by
  refine completes_served h (arrives_mgmtReq _ h hp) (lenIs_of_hasLength hl) (by simp [AllPass, hstage]) fun q o => ?_
  have hcause : slotCheck (taken s r) n (slotXspi s n) = slotCheck { s with sess := q, out := o } n (slotXspi s n) := by
    obtain ⟨q', o', ht, -⟩ := taken_frame s r h.1.1
    rw [ht]
    rfl
  rw [hcause]
  generalize hc : slotCheck { s with sess := q, out := o } n (slotXspi s n) = cause
  obtain ⟨v, hv, hnone, hpass, hfail⟩ := stageEnded_frame n cause { s with sess := q, out := o }
  obtain ⟨k, hk⟩ := postMgmt_frame 0x0071 (bytesBE 1 n ++ bytesBE 1 cause) { s with sess := q, out := o, nvm := v }
  refine ⟨0x0312, .ok, stageReport n cause { s with sess := q, out := o },
    { s with sess := q, out := o, nvm := v, mgmt := { s.mgmt with queue := k } }, ?act, rfl, ?len,
    fun _ _ => ⟨hnone, rfl, rfl, hpass, hfail⟩⟩
  case act =>
    rw [← hk, ← hv, ← hc]
    simp only [hstage]
    rfl
  case len => simp [stageReport]

/-! ## Activation (R409) -/

theorem exec_fwActivate_served (s : State) (r : Req) (body : Bytes) (h : Served s r .o) (hp : r.port = .mgmt)
    (hl : HasLength r body 0) (hstaged : s.nvm.staged ≠ none) (hact : s.nvm.activation = none) (hsrc : s.boot.source.toNat ≤ 1) :
    Completes (.fwActivate r body) s (fun t => t.nvm.activation = some (srcRead s s.boot.source.toNat 0 4096) ∧
      t.nvm.flash = mwrite s.nvm.flash (s.boot.source.toNat * 0x04000000 + 0x200) [0xFF, 0xFF, 0xFF, 0xFF] ∧ t.fuses = s.fuses ∧
      t.mem = s.mem) := by
  refine completes_served h (arrives_mgmtReq _ h hp) (lenIs_of_hasLength hl)
    (by simpa [AllPass] using Option.isSome_iff_ne_none.2 hstaged) fun q o => ?_
  have hne : ¬ s.nvm.activation.isSome = true := by simp [hact]
  exact ⟨_, _, _, _, congrArg (respond r 0x0313 .ok []) ((if_neg hne).trans (if_neg (Nat.not_lt.2 hsrc))), rfl, by simp,
    fun _ _ => ⟨rfl, rfl, rfl, rfl⟩⟩

theorem exec_fwAbandon_served (s : State) (r : Req) (body copy : Bytes) (h : Served s r .o) (hp : r.port = .mgmt)
    (hl : HasLength r body 0) (hact : s.nvm.activation = some copy) :
    Completes (.fwAbandon r body) s (fun t => t.nvm.activation = none ∧
      t.nvm.flash = mwrite s.nvm.flash (s.boot.source.toNat * 0x04000000) (copy.map (· ^^^ 0xFF)) ∧ t.fuses = s.fuses ∧
      t.mem = s.mem) := by
  refine completes_served h (arrives_mgmtReq _ h hp) (lenIs_of_hasLength hl) (by simp [AllPass]) fun q o => ?_
  simp only [hact]
  exact ⟨_, _, _, _, rfl, rfl, by simp, fun _ _ => ⟨rfl, rfl, rfl, rfl⟩⟩

/-! ## The security-version count (R410) -/

/-- The state whose fuses hold the target count, as the check of the idle slots sees it. -/
def svnAt (n : Nat) (s : State) : State := { s with fuses := { s.fuses with svn := n } }

theorem exec_svnCommit_same (s : State) (r : Req) (body : Bytes) (h : Served s r .o) (hp : r.port = .mgmt)
    (hl : HasLength r body 1) (hsame : be body 0 1 = s.fuses.svn) :
    exec (.svnCommit r body) s = .next (respond r 0x0315 .ok (bytesBE 1 s.fuses.svn) (taken s r)) := by
  obtain ⟨q, o, ht, -⟩ := taken_frame s r h.1.1
  show execSvnCommit r body s = _
  rw [execSvnCommit, arrives_mgmtReq _ h hp, request_served _ _ _ _ _ _ _ h (lenIs_of_hasLength hl) (by simp [hsame]), ht]
  simp [hsame]

section
variable {s : State} {r : Req} {body : Bytes} (h : Served s r .o) (hp : r.port = .mgmt) (hl : HasLength r body 1)
  (hup : s.fuses.svn < be body 0 1) (hmax : be body 0 1 ≤ s.boot.fwSvn.toNat) (hsrc : s.boot.source = 2)
include h hp hl hup hmax hsrc

/-- With the host port's image running, both slots are idle; one that passes at the target count lets the fuses go up. -/
theorem exec_svnCommit_burns (hidle : slotCheck (svnAt (be body 0 1) s) 0 (slotXspi s 0) = 0 ∨
      slotCheck (svnAt (be body 0 1) s) 1 (slotXspi s 1) = 0) :
    Completes (.svnCommit r body) s (fun t => t.mem = s.mem ∧ t.fuses = (svnAt (be body 0 1) s).fuses) := by
  refine completes_served h (arrives_mgmtReq _ h hp) (lenIs_of_hasLength hl) ?_
    fun _ _ => ⟨_, _, _, _, rfl, rfl, by simp, fun _ _ => ⟨rfl, rfl⟩⟩
  simp only [AllPass, List.mem_cons, List.not_mem_nil, or_false, forall_eq_or_imp, forall_eq]
  refine ⟨by simp [Nat.not_lt.2 (Nat.le_of_lt hup), Nat.not_lt.2 hmax], ?_⟩
  simp only [svnAt] at hidle
  rcases hidle with hidle | hidle <;> simp [hsrc, hidle]

theorem exec_svnCommit_refused (h0 : slotCheck (svnAt (be body 0 1) s) 0 (slotXspi s 0) ≠ 0)
    (h1 : slotCheck (svnAt (be body 0 1) s) 1 (slotXspi s 1) ≠ 0) :
    Completes (.svnCommit r body) s (fun t => t.mem = s.mem ∧ t.fuses = s.fuses) := by
  refine completes_refused (c := ⟨8, _, .conflict⟩) h (arrives_mgmtReq _ h hp) (lenIs_of_hasLength hl)
    (List.mem_cons_of_mem _ List.mem_cons_self) ?_ ?_ fun _ _ _ _ => ⟨rfl, rfl⟩
  · simp only [svnAt] at h0 h1
    simp [hsrc, h0, h1, Nat.ne_of_gt hup]
  · simp [Nat.not_lt.2 (Nat.le_of_lt hup), Nat.not_lt.2 hmax]

theorem exec_svnCommit_served :
    Completes (.svnCommit r body) s (fun t =>
      let u : State := { s with fuses := { s.fuses with svn := be body 0 1 } }
      t.mem = s.mem ∧
      (slotCheck u 0 (slotXspi s 0) = 0 ∨ slotCheck u 1 (slotXspi s 1) = 0 → t.fuses = u.fuses) ∧
      (slotCheck u 0 (slotXspi s 0) ≠ 0 → slotCheck u 1 (slotXspi s 1) ≠ 0 → t.fuses = s.fuses)) := by
  by_cases hidle : slotCheck (svnAt (be body 0 1) s) 0 (slotXspi s 0) = 0 ∨ slotCheck (svnAt (be body 0 1) s) 1 (slotXspi s 1) = 0
  · obtain ⟨t, ht, hmem, hfuses⟩ := exec_svnCommit_burns h hp hl hup hmax hsrc hidle
    exact ⟨t, ht, hmem, fun _ => hfuses, fun h0 h1 => (hidle.elim h0 h1).elim⟩
  · obtain ⟨h0, h1⟩ := not_or.1 hidle
    obtain ⟨t, ht, hmem, hfuses⟩ := exec_svnCommit_refused h hp hl hup hmax hsrc h0 h1
    exact ⟨t, ht, hmem, fun hpass => absurd hpass hidle, fun _ _ => hfuses⟩

end

/-! ## The operator's reset (R57, R411) -/

theorem exec_deviceReset_granted (s : State) (r : Req) (body : Bytes) (h : Served s r .o) (hp : r.port = .mgmt)
    (hl : HasLength r body 1) (hforce : be body 0 1 ≤ 1) (hidle : be body 0 1 = 0 → ∀ p < 16, (partOf s p).state = .unused) :
    exec (.deviceReset r body) s = .next (deviceReset (respond r 0x0316 .ok [] (taken s r))) := by
  show execDeviceReset r body s = _
  rw [execDeviceReset, arrives_mgmtReq _ h hp, request_served _ _ _ _ _ _ _ h (lenIs_of_hasLength hl)
    (by simpa [Nat.not_lt.2 hforce] using hidle)]

/-- Without Force, a partition in use refuses the reset (R411). -/
theorem exec_deviceReset_conflict {s : State} {r : Req} {body : Bytes} (h : Served s r .o) (hp : r.port = .mgmt)
    (hl : HasLength r body 1) (hforce : be body 0 1 = 0) {p : Nat} (hlt : p < 16) (hused : (partOf s p).state ≠ .unused) :
    Completes (.deviceReset r body) s (fun t => Answered s t r 0x0316 .conflict 0 [] ∧ t.parts = s.parts ∧ t.boot = s.boot ∧
      t.keys = s.keys ∧ t.mem = s.mem ∧ t.fuses = s.fuses) := by
  refine completes_refused (c := ⟨8, _, .conflict⟩) h (arrives_mgmtReq _ h hp) (lenIs_of_hasLength hl)
    (List.mem_cons_of_mem _ List.mem_cons_self) ?_ (by simp [hforce]) fun _ _ _ hans => ⟨hans, rfl, rfl, rfl, rfl, rfl⟩
  simp only [hforce, beq_self_eq_true, Bool.true_and, List.any_eq_true, List.mem_range, bne_iff_ne]
  exact ⟨p, hlt, hused⟩

/-- Settles O15: each message whose conditions hold passes the checks of its row and answers from the state that its row makes; a row's
refusal answers with its code; the sessions of the port close behind the answer of MGMT_NET_SET. -/
theorem managementAndFirmware : Obligations.ManagementAndFirmware := by
  refine ⟨⟨exec_faultLogRead_served, exec_linkUnretire_served, exec_mgmtNetSet_served, exec_mgmtPortLinkUp_runs,
    exec_mgmtPortLinkUp_halted, exec_mgmtPortLinkDown_up⟩, exec_fwStageBegin_served, exec_fwStageData_served, exec_fwStageEnd_served,
    exec_fwActivate_served, exec_fwAbandon_served, exec_svnCommit_same,
    fun s r body h hp hl hup hmax hsrc => exec_svnCommit_served h hp hl hup hmax hsrc, exec_deviceReset_granted, ?conflict⟩
  intro s r body h hp hl hforce ⟨p, hlt, hstate⟩
  refine exec_deviceReset_conflict h hp hl hforce hlt ?_
  rcases hstate with e | e | e | e <;> simp [e]

end Sys2Proof.Machine
end
